-- ==== Sys2Proof/Word.lean ====
section
/-! DEFINITION. The word types of the ETB-9040, as the manual counts bits, and the type of a sparse canonical map. -/

namespace Sys2Proof

/-- A byte of any store (R10). -/
abbrev Byte := BitVec 8
/-- A 32-bit value: a vector lane (R106), a 32-bit register, a ticket (R322). -/
abbrev Lane := BitVec 32
/-- A 64-bit value: a scalar register (R72), an instruction word (R75), a 64-bit register. -/
abbrev Word := BitVec 64
/-- A tile descriptor register (R108). -/
abbrev DescWord := BitVec 128
/-- A partition number, equal to its cluster number (R20). -/
abbrev PartId := Fin 16
/-- The device-wide number of a logical core, 12c + n (R49). -/
abbrev CoreId := Fin 192
/-- A berth (R315). -/
abbrev BerthId := Fin 48
/-- A queue of a context (R312). -/
abbrev QueueId := Fin 16
/-- A virtual-device slot of this device (R207). -/
abbrev SlotId := Fin 16
/-- A landing number (R408). -/
abbrev Landing := BitVec 16

/-- A sparse array: pairs of key and value. Its canonical form, kept by every operation of the model, is strictly
rising keys and no value equal to what an unlisted key reads as. -/
abbrev SMap (α : Type) := List (Nat × α)

end Sys2Proof
end

