-- ==== Sys2Proof/Syntax.lean ====
section
/-! DEFINITION. The commands of the ETB-9040 (one constructor per row of the operation table) and their operands. An
operand carries what comes from outside the part: the instruction word a core dispatches, a frame's contents, a register
value, a physical outcome (a signature check, a training result, a temperature). -/

namespace Sys2Proof

/-- A hardware error that the step meets in the core's own structures: a parity error in a register, accumulator, queue
or buffer word it reads, or a bench line that reads corrected or uncorrectable (R55, R92). DEDUCED (log entry 27, safe). -/
inductive Upset where
  | none
  | parity
  | benchCorrected
  | benchUe
  deriving DecidableEq, Repr

/-- An instruction word at dispatch on a logical core: the fields of R75 other than OP and FUNC, which the command
itself names. -/
structure CoreOp where
  core : CoreId
  pe : Bool
  pred : Fin 8
  dst : Fin 32
  src1 : Fin 32
  src2 : Fin 32
  imm : BitVec 33
  upset : Upset
  deriving DecidableEq, Repr

/-- Bytes the host has stored to its own memory since the last command, by host physical address. -/
abbrev HostStores := List (Nat × Byte)

/-- An access to a doorbell page: an aligned 8-byte write of DB_TAIL, a 4-byte write of one of its halves, or a write to
another offset or of another size (R318). -/
inductive DbAccess where
  | tail
  | half (upper : Bool)
  | other
  deriving DecidableEq, Repr

/-- Who sent a doorbell write: the PASID prefix it carries, if any, or the virtual function (R320, R452). -/
inductive DbSender where
  | pasid (p : BitVec 20)
  | noPasid
  | function (i : Fin 64)
  deriving DecidableEq, Repr

/-- An arbiter instance index of R374, 0x000 to 0x180. -/
abbrev ArbIndex := Fin 385

/-- What carries a frame inside its Ethernet header (R396, R397): an EtherType of its own, UDP over IPv6 without extension
headers to (or, of a frame sent, from) an address and a port, or anything else. -/
inductive Carrier where
  | raw (etherType : BitVec 16)
  | udp (addr : BitVec 128) (port : BitVec 16)
  | other
  deriving DecidableEq, Repr

/-- An interface of a port (R389). -/
structure LinkEnd where
  port : Fin 4
  iface : Fin 8
  deriving DecidableEq, Repr

/-- What an arriving frame comes in: how many of its codewords were corrected, the destination MAC address and the encapsulation
(R393, R396, R397). -/
structure Envelope where
  corrected : BitVec 8
  mac : BitVec 48
  carrier : Carrier
  deriving DecidableEq, Repr

/-- How a frame arrives. -/
structure Arrival extends LinkEnd, Envelope where
  deriving DecidableEq, Repr

/-- Why a frame may be discarded: an uncorrectable codeword, or its VERSION and TYPE (R393, R421, R422). -/
structure Discarded where
  uncorrectable : Bool
  version : Byte
  type : Byte
  deriving DecidableEq, Repr

/-- An IEEE 1588 message of the peer-to-peer delay mechanism (R402), its timestamps in 1/256 beat: Sync with its origin
timestamp corrected on the way, Pdelay_Req, Pdelay_Resp with the times the request was received and the response sent. -/
inductive PtpBody where
  | sync (origin : Int)
  | delayReq
  | delayResp (received sent : Int)
  deriving DecidableEq, Repr

/-- The envelope of a received protected frame: how it arrived, its source, stream sequence number, flags, association
number, packet number, and whether its ICV checks (R398, R399, R421). -/
structure Rx extends Arrival where
  src : Landing
  seq : Lane
  lastOff : Bool
  retx : Bool
  an : Fin 4
  pn : Word
  icvOk : Bool
  deriving DecidableEq, Repr

/-- One record of a HELLO (R423). -/
structure HelloRecord where
  vdev : BitVec 24
  epoch : Lane
  myLat : Lane
  vdLat : Lane
  deriving DecidableEq, Repr

/-- The data extension of WRITE, READ, RDATA and ATOMIC (R426). -/
structure DataExt where
  addr : BitVec 48
  edom : Byte
  op : BitVec 6
  move : Lane
  mstream : Lane
  ord : Lane
  prior : Lane
  len : Lane
  deriving DecidableEq, Repr

/-- A composition record (R428). -/
structure CompRecord where
  op : Byte
  role : Byte
  landing : Landing
  part : Byte
  rank : BitVec 16
  vdev : BitVec 24
  tag : Lane
  epoch : Lane
  result : Byte
  vdLat : Lane
  deriving DecidableEq, Repr

/-- A place on a device of the fabric: landing number and 48-bit physical address (R431). -/
structure FabricAddr where
  landing : Landing
  addr : BitVec 48
  deriving DecidableEq, Repr

/-- A handoff record and, in OFFER, its pairs of source and destination (R431); with them what the taker's copying needs and
the record does not carry: the size of a block and the second destinations of mirrored blocks (R429). -/
structure HandoffRecord where
  hid : Lane
  holder : Landing
  taker : Landing
  key : Word
  count : BitVec 16
  kind : Byte
  info : Byte
  epoch : Lane
  vdev : BitVec 24
  pairs : List (FabricAddr × FabricAddr)
  bytes : Nat
  mirrors : List FabricAddr
  deriving DecidableEq, Repr

/-- One member of a roster as its keeper holds it, which a device that first carries a member learns with the commit. -/
structure RosterEntry where
  rank : Fin 16384
  landing : Landing
  part : Fin 16
  store : Bool
  active : Bool
  deriving DecidableEq, Repr

/-- A frame by its header fields and payload bytes (R421). -/
structure Frame where
  type : Byte
  hops : Byte
  flags : Byte
  dst : Landing
  src : Landing
  seq : Lane
  payload : List Byte
  deriving DecidableEq, Repr

/-- The commands the block takes, one constructor per row of the operation table. DESIGN CHOICE (log entry 88, safe). -/
inductive Instr where
  /-- PWRGD is asserted after the rails and REFCLK are stable, the beat counter starts from zero and the start sequence begins (R560). -/
  | powerGood
  /-- PWRGD is deasserted before the rails fall, and nothing but the flash persists (R560). -/
  | powerDown
  /-- A rail or REFCLK leaves its limits while PWRGD is asserted, which gives the device's behaviour device reach (R560). -/
  | supplyFault
  /-- The assayer verifies the slot and the configuration record and extends MEAS[0] to MEAS[2] (R541). -/
  | startAssay (slotSigOk ecilamoSigOk opSigOk : Bool)
  /-- The key store reconstructs the PUF seed, or sets ROOT_FAILED (R488). -/
  | startRoot (pufMatches : Bool)
  /-- The Ferryman loads the management firmware and starts its cores while UCIe trains (R541). -/
  | startFerry (ok : Bool)
  /-- Both compute dies are brought up, positions are assigned, DEV_CORE_MAP is published and the cluster stores are zeroed (R541). -/
  | startCompute (failedClusters : BitVec 16)
  /-- All LPDDR5X channels are trained and the reserved regions are zeroed, and DEV_STATE is raised to READY or DEGRADED (R541). -/
  | startDram (failedNormal failedConservative : BitVec 32)
  /-- LNK_PORT_CTRL is written from PORTS and the optical ports train (R541). -/
  | startOptics (failedLanes : BitVec 32)
  /-- Discovery of the landing number runs (R409). -/
  | startRoster (ok : Bool)
  /-- A write to a register that has no row of its own applies its access codes, or completes without effect under R11 (R13). -/
  | registerWrite (offset : BitVec 26) (size : Fin 65) (value : Word) (stores : HostStores)
  /-- Scalar add modulo 2^64 (R97). -/
  | add (a : CoreOp)
  /-- Scalar subtract modulo 2^64 (R97). -/
  | sub (a : CoreOp)
  /-- Scalar bitwise AND (R97). -/
  | and (a : CoreOp)
  /-- Scalar bitwise OR (R97). -/
  | or (a : CoreOp)
  /-- Scalar bitwise XOR (R97). -/
  | xor (a : CoreOp)
  /-- Scalar x AND NOT y (R97). -/
  | andn (a : CoreOp)
  /-- Scalar logical shift left (R97). -/
  | sll (a : CoreOp)
  /-- Scalar logical shift right (R97). -/
  | srl (a : CoreOp)
  /-- Scalar arithmetic shift right (R97). -/
  | sra (a : CoreOp)
  /-- Signed scalar minimum (R97). -/
  | min (a : CoreOp)
  /-- Signed scalar maximum (R97). -/
  | max (a : CoreOp)
  /-- Unsigned scalar minimum (R97). -/
  | minu (a : CoreOp)
  /-- Unsigned scalar maximum (R97). -/
  | maxu (a : CoreOp)
  /-- Low 64 bits of the scalar product (R97). -/
  | mul (a : CoreOp)
  /-- High 64 bits of the unsigned product (R97). -/
  | mulhu (a : CoreOp)
  /-- High 64 bits of the signed product (R97). -/
  | mulhs (a : CoreOp)
  /-- Unsigned division, with a defined result for a divisor of zero (R97). -/
  | divu (a : CoreOp)
  /-- Signed division, with defined results for zero and overflow (R97). -/
  | divs (a : CoreOp)
  /-- Unsigned remainder (R97). -/
  | remu (a : CoreOp)
  /-- Signed remainder (R97). -/
  | rems (a : CoreOp)
  /-- Count of leading zero bits (R97). -/
  | clz (a : CoreOp)
  /-- Count of trailing zero bits (R97). -/
  | ctz (a : CoreOp)
  /-- Count of one bits (R97). -/
  | popc (a : CoreOp)
  /-- An ALU function with a sign-extended immediate operand (R98). -/
  | alui (a : CoreOp) (func : Fin 64)
  /-- Load a sign-extended immediate (R99). -/
  | movi (a : CoreOp)
  /-- Set the high half of a register from the immediate (R99). -/
  | movh (a : CoreOp)
  /-- Select x or y by a predicate (R99). -/
  | sel (a : CoreOp)
  /-- Compare two registers into a predicate (R100). -/
  | cmp (a : CoreOp) (func : Fin 64)
  /-- Compare a register with an immediate into a predicate (R100). -/
  | cmpi (a : CoreOp) (func : Fin 64)
  /-- Predicate AND (R101). -/
  | pand (a : CoreOp)
  /-- Predicate OR (R101). -/
  | por (a : CoreOp)
  /-- Predicate XOR (R101). -/
  | pxor (a : CoreOp)
  /-- Predicate AND NOT (R101). -/
  | pandn (a : CoreOp)
  /-- Predicate NOT (R101). -/
  | pnot (a : CoreOp)
  /-- Load one byte from the bench, zero-extended (R102). -/
  | ld8u (a : CoreOp)
  /-- Load two bytes from the bench, zero-extended (R102). -/
  | ld16u (a : CoreOp)
  /-- Load four bytes from the bench, zero-extended (R102). -/
  | ld32u (a : CoreOp)
  /-- Load eight bytes from the bench (R102). -/
  | ld64 (a : CoreOp)
  /-- Load one byte from the bench, sign-extended (R102). -/
  | ld8s (a : CoreOp)
  /-- Load two bytes from the bench, sign-extended (R102). -/
  | ld16s (a : CoreOp)
  /-- Load four bytes from the bench, sign-extended (R102). -/
  | ld32s (a : CoreOp)
  /-- Store one byte to the bench (R102). -/
  | st8 (a : CoreOp)
  /-- Store two bytes to the bench (R102). -/
  | st16 (a : CoreOp)
  /-- Store four bytes to the bench (R102). -/
  | st32 (a : CoreOp)
  /-- Store eight bytes to the bench (R102). -/
  | st64 (a : CoreOp)
  /-- Relative branch (R103). -/
  | bra (a : CoreOp)
  /-- Relative branch that saves the return offset (R103). -/
  | call (a : CoreOp)
  /-- Branch to a register plus an immediate (R103). -/
  | jr (a : CoreOp)
  /-- Decrement a register and branch while it is not zero (R103). -/
  | loopDec (a : CoreOp)
  /-- No effect (R103). -/
  | nop (a : CoreOp)
  /-- End the kernel on this core once earlier instructions have completed and its movements have retired (R82). -/
  | kend (a : CoreOp)
  /-- Halt for the debugger, or raise BREAK (R103). -/
  | brk (a : CoreOp)
  /-- Read a special value (R104). -/
  | srd (a : CoreOp)
  /-- Set a tile descriptor (R112). -/
  | tdset (a : CoreOp)
  /-- Set the scale fields of a descriptor (R112). -/
  | tdscl (a : CoreOp)
  /-- Advance the addresses of a descriptor (R112). -/
  | tdadd (a : CoreOp)
  /-- Accumulate a tile product into an accumulator, once a toll is held where required (R113). -/
  | mma (a : CoreOp)
  /-- Zero an accumulator (R116). -/
  | azero (a : CoreOp)
  /-- Drain an accumulator into a bench tile (R117). -/
  | adrn (a : CoreOp)
  /-- Drain accumulator rows into a vector register (R118). -/
  | adrv (a : CoreOp)
  /-- FP32 vector add (R124). -/
  | vadd (a : CoreOp)
  /-- FP32 vector subtract (R124). -/
  | vsub (a : CoreOp)
  /-- FP32 vector multiply (R124). -/
  | vmul (a : CoreOp)
  /-- FP32 fused multiply-add (R124). -/
  | vfma (a : CoreOp)
  /-- FP32 negated fused multiply-add (R124). -/
  | vfnma (a : CoreOp)
  /-- FP32 minimum (R124). -/
  | vmin (a : CoreOp)
  /-- FP32 maximum (R124). -/
  | vmax (a : CoreOp)
  /-- FP32 absolute value (R124). -/
  | vabs (a : CoreOp)
  /-- FP32 negation (R124). -/
  | vneg (a : CoreOp)
  /-- Copy the lanes of a vector register unchanged (R124). -/
  | vmov (a : CoreOp)
  /-- Rotary position arithmetic on lane pairs (R125). -/
  | vrope (a : CoreOp)
  /-- Packed BF16 add (R126). -/
  | vbadd (a : CoreOp)
  /-- Packed BF16 subtract (R126). -/
  | vbsub (a : CoreOp)
  /-- Packed BF16 multiply (R126). -/
  | vbmul (a : CoreOp)
  /-- Packed BF16 fused multiply-add (R126). -/
  | vbfma (a : CoreOp)
  /-- Packed BF16 negated fused multiply-add (R126). -/
  | vbfnma (a : CoreOp)
  /-- Packed BF16 minimum (R126). -/
  | vbmin (a : CoreOp)
  /-- Packed BF16 maximum (R126). -/
  | vbmax (a : CoreOp)
  /-- FP32 equality compare (R127). -/
  | vfeq (a : CoreOp)
  /-- FP32 less-than compare (R127). -/
  | vflt (a : CoreOp)
  /-- FP32 less-or-equal compare (R127). -/
  | vfle (a : CoreOp)
  /-- FP32 unordered compare (R127). -/
  | vfun (a : CoreOp)
  /-- Integer equality compare (R127). -/
  | vieq (a : CoreOp)
  /-- Signed integer less-than compare (R127). -/
  | vilt (a : CoreOp)
  /-- Unsigned integer less-than compare (R127). -/
  | viltu (a : CoreOp)
  /-- 32-bit integer add (R128). -/
  | viadd (a : CoreOp)
  /-- 32-bit integer subtract (R128). -/
  | visub (a : CoreOp)
  /-- 32-bit integer AND (R128). -/
  | viand (a : CoreOp)
  /-- 32-bit integer OR (R128). -/
  | vior (a : CoreOp)
  /-- 32-bit integer XOR (R128). -/
  | vixor (a : CoreOp)
  /-- 32-bit integer AND NOT (R128). -/
  | viandn (a : CoreOp)
  /-- 32-bit logical shift left (R128). -/
  | visll (a : CoreOp)
  /-- 32-bit logical shift right (R128). -/
  | visrl (a : CoreOp)
  /-- 32-bit arithmetic shift right (R128). -/
  | visra (a : CoreOp)
  /-- Signed 32-bit minimum (R128). -/
  | vimin (a : CoreOp)
  /-- Signed 32-bit maximum (R128). -/
  | vimax (a : CoreOp)
  /-- Unsigned 32-bit minimum (R128). -/
  | viminu (a : CoreOp)
  /-- Unsigned 32-bit maximum (R128). -/
  | vimaxu (a : CoreOp)
  /-- Low 32 bits of the integer product (R128). -/
  | vimul (a : CoreOp)
  /-- Lane select by a selector register (R129). -/
  | vsel (a : CoreOp)
  /-- Broadcast a scalar to every lane (R129). -/
  | vbcast (a : CoreOp)
  /-- Write each lane's index (R129). -/
  | viota (a : CoreOp)
  /-- Build a mask of the first s lanes (R129). -/
  | vfirst (a : CoreOp)
  /-- Read one lane into a scalar register (R129). -/
  | vget (a : CoreOp)
  /-- Write a scalar into one lane (R129). -/
  | vput (a : CoreOp)
  /-- Permute the lanes by an index vector (R129). -/
  | vperm (a : CoreOp)
  /-- Convert FP32 to packed BF16 (R130). -/
  | vf2bf (a : CoreOp)
  /-- Convert the low BF16 elements to FP32 (R130). -/
  | vbf2fl (a : CoreOp)
  /-- Convert the high BF16 elements to FP32 (R130). -/
  | vbf2fh (a : CoreOp)
  /-- Convert FP32 to packed FP16 (R130). -/
  | vf2h (a : CoreOp)
  /-- Convert the low FP16 elements to FP32 (R130). -/
  | vh2fl (a : CoreOp)
  /-- Convert the high FP16 elements to FP32 (R130). -/
  | vh2fh (a : CoreOp)
  /-- Convert FP32 to INT32, rounding to nearest (R130). -/
  | vf2i (a : CoreOp)
  /-- Convert FP32 to INT32, rounding toward zero (R130). -/
  | vf2iz (a : CoreOp)
  /-- Convert INT32 to FP32 (R130). -/
  | vi2f (a : CoreOp)
  /-- Quantise 256 FP32 lanes into eight MX blocks (R131). -/
  | vqmx (a : CoreOp)
  /-- Load a vector register from the bench (R132). -/
  | vld (a : CoreOp)
  /-- Store the enabled lanes of a vector register to the bench (R132). -/
  | vst (a : CoreOp)
  /-- FP32 segment sum in the tree (R133). -/
  | vrsum (a : CoreOp)
  /-- FP32 segment maximum (R133). -/
  | vrmax (a : CoreOp)
  /-- FP32 segment minimum (R133). -/
  | vrmin (a : CoreOp)
  /-- Integer segment sum (R133). -/
  | vrisum (a : CoreOp)
  /-- Special function 2^x per lane (R196). -/
  | exp2 (a : CoreOp)
  /-- Special function log2 per lane (R197). -/
  | log2 (a : CoreOp)
  /-- Special function reciprocal per lane (R198). -/
  | rcp (a : CoreOp)
  /-- Special function reciprocal square root per lane (R199). -/
  | rsq (a : CoreOp)
  /-- Special function hyperbolic tangent per lane (R201). -/
  | tanh (a : CoreOp)
  /-- Special function sigmoid per lane (R200). -/
  | sigm (a : CoreOp)
  /-- Special function sine per lane (R202). -/
  | sin (a : CoreOp)
  /-- Special function cosine per lane (R202). -/
  | cos (a : CoreOp)
  /-- One step of online softmax (R135). -/
  | vosm (a : CoreOp)
  /-- Root-mean-square normalisation factor (R136). -/
  | vrms (a : CoreOp)
  /-- Philox words into a vector register (R137). -/
  | vrng (a : CoreOp)
  /-- Philox words into a scalar register (R137). -/
  | srng (a : CoreOp)
  /-- Build the k highest-ranked candidates from a run of logits (R139). -/
  | topk (a : CoreOp)
  /-- Merge two candidate lists (R139). -/
  | tkmrg (a : CoreOp)
  /-- Draw one token from a candidate list (R140). -/
  | sdraw (a : CoreOp)
  /-- Movement that copies rows between endpoints, submitted to the mover (R153). -/
  | copy (a : CoreOp) (second : Word)
  /-- Movement that fills destination rows with a pattern (R153). -/
  | fill (a : CoreOp) (second : Word)
  /-- A movement's last byte is written or acknowledged, and it retires (R146). -/
  | movementRetire (move : Nat)
  /-- All-reduce collective (R160). -/
  | allred (a : CoreOp)
  /-- All-gather collective (R160). -/
  | allgath (a : CoreOp)
  /-- Reduce-scatter collective (R160). -/
  | redscat (a : CoreOp)
  /-- Collective barrier (R160). -/
  | cbar (a : CoreOp)
  /-- A participant's part of a collective completes (R162). -/
  | collectiveRetire (core : CoreId) (team : Bool) (ordinal : Nat) (remote : List (Nat × List Byte))
  /-- Release, then add atomically to an event (R166). -/
  | eadd (a : CoreOp)
  /-- Wait for an event threshold, then acquire (R166). -/
  | ewait (a : CoreOp)
  /-- Read an event's value (R166). -/
  | erd (a : CoreOp)
  /-- A waiting EWAIT or FWAIT reads its remote word again every 128 beats (R171). -/
  | eventRepoll (core : CoreId) (remoteValue : Option Word)
  /-- Release at a scope (R167). -/
  | rel (a : CoreOp)
  /-- Acquire at a scope (R167). -/
  | acq (a : CoreOp)
  /-- Wait for the retirement of the movements of the named groups (R167). -/
  | mwait (a : CoreOp)
  /-- Release, then write a flag (R168). -/
  | fset (a : CoreOp)
  /-- Wait for a flag threshold, then acquire (R168). -/
  | fwait (a : CoreOp)
  /-- A held last-off write is performed once the earlier writes of its stream have been performed (R279). -/
  | lastoffPerform (held : Nat)
  /-- Read the physical location word (R172). -/
  | phys (a : CoreOp)
  /-- Write a mark to the profiling trace (R172). -/
  | pmark (a : CoreOp)
  /-- Read a performance counter (R484). -/
  | pcnt (a : CoreOp)
  /-- Allocate a block-map entry (R223). -/
  | sbnew (a : CoreOp)
  /-- Commit a range of blocks (R223). -/
  | sbcmt (a : CoreOp)
  /-- Free a range of blocks (R223). -/
  | sbfree (a : CoreOp)
  /-- Read a block's state and class (R223). -/
  | sbstat (a : CoreOp)
  /-- Allocate tree blocks (R223). -/
  | stree (a : CoreOp)
  /-- Ancestor mask of a draft node (R228). -/
  | sanc (a : CoreOp)
  /-- Walk the draft tree and record the accepted path (R229). -/
  | sacpt (a : CoreOp)
  /-- Copy the accepted rows to position blocks and free the tree blocks (R230). -/
  | scmt (a : CoreOp)
  /-- Freed block storage goes to the bin or the return ring once the movements that resolved it have retired (R222). -/
  | storageReturn (freed : Nat)
  /-- A folding position switches to another logical core once its transfers have completed (R67). -/
  | foldSwitch (part : PartId) (pos : Fin 15) (parityError : Bool)
  /-- A DB_TAIL write offers a new tail, or is discarded (R319). -/
  | doorbell (berth : BerthId) (queue : QueueId) (access : DbAccess) (value : Word) (sender : DbSender) (stores : HostStores)
  /-- A queue entry is fetched and bound, and HEAD advances (R321). -/
  | fetch (berth : BerthId) (queue : QueueId)
  /-- The WAIT_EVENT word is read again every 128 beats (R347). -/
  | waitEventPoll (manifest : Nat)
  /-- The admission unit admits or refuses a manifest or a run (R358). -/
  | admission (manifest : Nat)
  /-- The kernel-issue arbiter places a kernel into the engine queues of its cores (R351). -/
  | kernelIssue (part : PartId)
  /-- A run of a running manifest ends and its tokens are delivered, after which the manifest completes or the next run starts (R237). -/
  | runEnd (manifest : Nat)
  /-- CONSUMED is read again every 128 beats while the token ring has no room (R237). -/
  | tokenRingPoll (manifest : Nat)
  /-- The completion record is written and SIGNAL_EVENT is signalled or abandoned (R347). -/
  | manifestComplete (manifest : Nat)
  /-- CRING_CONSUMED is read again every 128 beats while the completion ring is full (R348). -/
  | cringPoll (berth : BerthId) (queue : QueueId)
  /-- The manifest retires, and its counts and booking are returned (R347). -/
  | manifestRetire (manifest : Nat)
  /-- An abandoned manifest is re-issued under its booking once every named rank has stopped (R532). -/
  | replayReissue (manifest : Nat)
  /-- BRT LOAD request that moves a context record into a berth (R316). -/
  | loadBerth (value : Lane) (busy : Option (BitVec 14))
  /-- The context record is read, the berth becomes Resident and held doorbells are applied (R316). -/
  | berthLoaded (berth : BerthId)
  /-- BRT UNLOAD request that stops fetching (R317). -/
  | unloadBerth (value : Lane) (busy : Option (BitVec 14))
  /-- Every fetched manifest has completed, HEAD is written and the berth becomes Empty (R317). -/
  | berthEmpty (berth : BerthId)
  /-- Revoke the named queues of a berth (R333). -/
  | brtQrevoke (value : Lane)
  /-- Mark an event abandoned (R332). -/
  | ldgAbandon (ticket : Lane)
  /-- Read and clear LDG_BINDS or LDG_RELEASES (R339). -/
  | ldgCountRead (releases : Bool)
  /-- Issue a translation fence of a context (R305). -/
  | xltFenceGo (value : Lane)
  /-- The work translated under earlier epochs has retired, and the fence completes (R305). -/
  | fenceComplete
  /-- Read and clear a translation cache counter (R310). -/
  | xltCountRead (counter : Fin 5)
  /-- Commit the timetable shadows after re-testing the bookings (R373). -/
  | ttbCommit (part : PartId) (value : Lane)
  /-- A pending timetable commit takes effect at the end of the cycle (R373). -/
  | ttbCommitEffect (part : PartId)
  /-- Read and clear an admission counter (R371). -/
  | subCountRead (counter : Fin 3)
  /-- One turn of an arbiter instance grants a requester or is dead (R377). -/
  | arbitration (inst : ArbIndex) (present : List Nat)
  /-- A requester's wait counter reaches LIMIT (R378). -/
  | waitCounterExpire (inst : ArbIndex) (requester : Nat)
  /-- The rotation base advances every 64 turns (R379). -/
  | arbEpochAdvance (inst : ArbIndex)
  /-- A granted requester withdraws and the turn passes dead (R381). -/
  | arbWithdraw (inst : ArbIndex) (requester : Nat)
  /-- Commit the shadows of the selected arbiter instance (R375). -/
  | arbCommit (value : Lane)
  /-- Read and clear ARB_DEAD or ARB_FORCED (R388). -/
  | arbCountRead (forced : Bool)
  /-- A patrol scrub engine reads one line and writes it back if it was corrected (R255). -/
  | scrubTurn (part : PartId) (dram : Bool)
  /-- Clear an uncorrectable-line entry and release the replays it holds (R258). -/
  | memUeClear (value : Lane)
  /-- Read and clear a corrected-error counter (R254). -/
  | memCeRead (part : PartId) (dram : Bool)
  /-- Enabling or disabling a port latches MODE and GEN and starts training (R391). -/
  | portEnable (port : Fin 4) (value : Lane)
  /-- A lane has not trained within 500 ms (R391). -/
  | laneTrainingTimeout (port : Fin 4) (lane : Fin 8)
  /-- Read and clear a link counter (R407). -/
  | lnkCountRead (port : Fin 4) (counter : Fin 5)
  /-- Forward a frame for another landing number cut-through (R395). -/
  | frameForward (link : LinkEnd) (env : Envelope) (frame : Frame)
  /-- Answer an IPv6 neighbour solicitation (R397). -/
  | neighbourSolicitation (link : LinkEnd) (env : Envelope) (target : BitVec 128)
  /-- An IEEE 1588 message is timestamped and the beat counter is disciplined (R402). -/
  | ptpMessage (arr : Arrival) (domain : Byte) (fraction : BitVec 8) (body : PtpBody)
  /-- LNK_SA_ADVANCE with HARD = 0 installs the next association and keeps the old one for 1 ms (R400). -/
  | softAdvance (value : Lane)
  /-- LNK_SA_ADVANCE with HARD = 1 installs the next association and deletes the old one (R400). -/
  | hardAdvance (value : Lane)
  /-- The transmit packet number reaches 0xC000_0000 and a soft advance starts (R502). -/
  | pnThreshold (peer : Landing)
  /-- An advance completes at its bound, counting peers that did not confirm (R400). -/
  | advanceTimeout
  /-- The 1 ms acceptance of the old association after a soft advance ends (R400). -/
  | oldAnExpire (peer : Landing)
  /-- The laser input power falls below its limit and the port goes down (R404). -/
  | laserLoss (port : Fin 4) (power : BitVec 16)
  /-- The laser power returns and the port retrains (R404). -/
  | laserRestore (port : Fin 4) (power : BitVec 16)
  /-- A counting-off frame is received (R409). -/
  | countOff (link : LinkEnd) (env : Envelope) (number : Landing)
  /-- A landing-number claim is received (R410). -/
  | claim (link : LinkEnd) (env : Envelope) (hops : Byte) (number : Landing) (mac : BitVec 48)
  /-- A defence of a claimed number is received (R410). -/
  | defend (link : LinkEnd) (env : Envelope) (hops : Byte) (number : Landing) (mac : BitVec 48)
  /-- Repeat the claim every 200 µs, or settle after 2 ms without collision (R410). -/
  | claimTimer
  /-- A device still unnumbered 100 ms after training falls back to claiming (R409). -/
  | discoveryFallback
  /-- Run discovery again (R408). -/
  | rediscover (value : Lane)
  /-- A HELLO is received, refreshing liveness, the time reference and latencies (R423). -/
  | hello (rx : Rx) (mac : BitVec 48) (reference : Landing) (records : List HelloRecord)
  /-- Send HELLO every 20 µs (R413). -/
  | helloTimer
  /-- The keeper publishes VDLAT every 1 ms (R419). -/
  | keeperLatencyUpdate (slot : SlotId)
  /-- A peer has been silent beyond DEAD_US and is declared dead (R413). -/
  | peerDead (peer : Landing)
  /-- A remote WRITE frame is performed and acknowledged (R426). -/
  | frameWrite (rx : Rx) (ext : DataExt) (data : List Byte)
  /-- A remote READ request is served with RDATA (R426). -/
  | frameRead (rx : Rx) (ext : DataExt)
  /-- Read data arrives for a movement (R426). -/
  | rdata (rx : Rx) (ext : DataExt) (data : List Byte)
  /-- A remote event add or flag write is performed (R426). -/
  | atomic (rx : Rx) (ext : DataExt) (operand : Word)
  /-- A write acknowledgement arrives for a movement (R426). -/
  | wack (rx : Rx) (move : Lane) (bytes : Lane)
  /-- A selective acknowledgement frees acknowledged frames (R424). -/
  | sack (rx : Rx) (cum : Lane) (bitmap : Word)
  /-- Send SACK 2 µs after the first unacknowledged frame (R424). -/
  | sackTimer (peer : Landing)
  /-- Retransmit a frame that has gone unacknowledged (R424). -/
  | retransmitTimer (peer : Landing) (seq : Lane)
  /-- Composition operation that joins a Free partition as Staging (R32). -/
  | join (vdev : BitVec 24)
  /-- Composition operation that makes a Staging member Active (R32). -/
  | activate (vdev : BitVec 24)
  /-- Composition operation that moves a rank to a Staging member (R32). -/
  | rehost (vdev : BitVec 24)
  /-- Composition operation that releases a member or a rank without a host (R32). -/
  | leave (vdev : BitVec 24)
  /-- Composition operation that dissolves a virtual device (R32). -/
  | dissolve (vdev : BitVec 24)
  /-- A composition request arrives at the keeper (R427). -/
  | request (rx : Rx) (rec : CompRecord)
  /-- A composition proposal arrives at a member's device (R427). -/
  | propose (rx : Rx) (rec : CompRecord)
  /-- A member's vote arrives at the keeper (R427). -/
  | vote (rx : Rx) (rec : CompRecord)
  /-- A commit arrives, and dispatch tables switch to the new epoch (R427). -/
  | compCommit (rx : Rx) (rec : CompRecord) (roster : List RosterEntry)
  /-- A composition change is abandoned (R427). -/
  | compAbort (rx : Rx) (rec : CompRecord)
  /-- The outcome of a composition request arrives at the requester (R427). -/
  | reply (rx : Rx) (rec : CompRecord)
  /-- A new keeper's SYNC is answered with the epoch and any COMMIT held (R415). -/
  | rosterSync (rx : Rx) (vdev : BitVec 24) (epoch : Lane) (rec : Option CompRecord)
  /-- A partner copy's status arrives and this copy stops or abandons (R346). -/
  | partner (rx : Rx) (tag : Word) (vdev : BitVec 24) (status : Byte)
  /-- Mailbox request to hand over sequence state (R429). -/
  | handoff (busy : Option (BitVec 14))
  /-- The taker receives an offer and starts copying (R431). -/
  | hoOffer (rx : Rx) (rec : HandoffRecord)
  /-- The taker has written every copy and sends TAKE (R431). -/
  | handoffCopyDone (hid : Lane) (holder : Landing)
  /-- The holder records the TAKE and sends ACK (R430). -/
  | hoTake (rx : Rx) (rec : HandoffRecord)
  /-- The taker receives ACK and sends DONE (R431). -/
  | hoAck (rx : Rx) (rec : HandoffRecord)
  /-- The holder completes the TAKE at the new location (R430). -/
  | hoDone (rx : Rx) (rec : HandoffRecord)
  /-- The holder returns the entries to Committed at the old location (R430). -/
  | hoRefuse (rx : Rx) (rec : HandoffRecord)
  /-- A disputed handoff is reported to the keeper, or the keeper queries the other party (R432). -/
  | hoReport (rx : Rx) (rec : HandoffRecord)
  /-- A party applies the keeper's decision, NEW or OLD (R430). -/
  | hoDecide (rx : Rx) (rec : HandoffRecord)
  /-- A handoff party's 1 ms timer expires and the party disputes (R430). -/
  | handoffTimer (hid : Lane) (holder : Landing) (asHolder : Bool)
  /-- A disputing party repeats REPORT every 200 µs (R430). -/
  | reportRepeat (hid : Lane) (holder : Landing) (asHolder : Bool)
  /-- The keeper's 1 ms wait for the other report ends and it decides (R432). -/
  | keeperQueryTimeout (hid : Lane) (holder : Landing)
  /-- The keeper repeats DECIDE every 100 µs until the party applies it (R432). -/
  | decideRepeat (hid : Lane) (holder : Landing)
  /-- Clear a lost-sequence entry, or every entry of a slot (R435). -/
  | rosLostClear (value : Lane)
  /-- Read and clear a handoff counter (R437). -/
  | rosHoCountRead (counter : Fin 3)
  /-- The UCIe link trains and configuration completes (R441). -/
  | hostLinkUp (fast : Bool) (modules : BitVec 4)
  /-- The UCIe link goes down, host movements are squashed and publications are held (R442). -/
  | hostLinkDown
  /-- The link has not returned within 100 ms and every instance is reset with SQUASH (R442). -/
  | hostLinkTimeout
  /-- HST_LINK_CTRL write that retrains the link (R460). -/
  | retrain (value : Lane)
  /-- A deferred MSI-X raise fires at the end of the moderation interval (R446). -/
  | irqModerationExpire (vector : Fin 64)
  /-- Change the sharing mode while the device is idle, or set REFUSED (R449). -/
  | devModeWrite (value : Lane)
  /-- Write HST_INST to create an instance or change its PASID and PARTS (R451). -/
  | instanceWrite (inst : Fin 64) (value : Word)
  /-- Instance command that resets an instance, letting kernels reach their boundaries (R455). -/
  | resetDrain (inst : Fin 64)
  /-- Instance command that resets an instance, stopping kernels at once (R455). -/
  | resetSquash (inst : Fin 64)
  /-- Instance command that removes an instance by draining (R455). -/
  | removeDrain (inst : Fin 64)
  /-- Instance command that removes an instance by squashing (R455). -/
  | removeSquash (inst : Fin 64)
  /-- A function-level reset of a virtual function acts as RESET_SQUASH (R455). -/
  | functionLevelReset (inst : Fin 64)
  /-- A CXL reset acts as RESET_SQUASH of every instance (R455). -/
  | cxlReset
  /-- Clearing VF Enable removes every valid instance (R458). -/
  | vfEnableClear
  /-- The instance command's waits end, the berths are cleared and vector 2 is raised (R455). -/
  | instanceCommandDone (inst : Fin 64)
  /-- A rack grant frame sets G and F (R461). -/
  | rackGrant (rx : Rx) (watts floor : BitVec 16) (effective : Word)
  /-- A new grant takes effect at its EFFECTIVE beat (R462). -/
  | grantEffective
  /-- No grant arrives for TIMEOUT_US, so G is set to F and RACK_SILENT is set (R461). -/
  | rackTimeout
  /-- Send RACK_REPORT every 1 ms (R465). -/
  | rackReportTimer
  /-- Every 100 µs, send SLACK to each keeper, and as keeper order loans (R466). -/
  | slackInterval (slack : List (SlotId × BitVec 32))
  /-- The keeper receives a slack report (R467). -/
  | slack (rx : Rx) (vdev : BitVec 24) (value : Lane)
  /-- A lender obeys or ignores an order to lend 1 W (R467). -/
  | loanOrder (rx : Rx) (vdev : BitVec 24) (peer : Landing)
  /-- A borrower adds 1 W to BORROWED (R467). -/
  | loan (rx : Rx) (vdev : BitVec 24) (expiry : Word)
  /-- A borrowed watt expires (R467). -/
  | loanExpire
  /-- A lent watt returns to the lender (R467). -/
  | lentExpire
  /-- Every 10 µs, choose each die's rail step (R472). -/
  | railChoice (die : Fin 2) (fits : Fin 25)
  /-- A rail step settles and the caps it sustains may be raised (R470). -/
  | railStepSettled (die : Fin 2)
  /-- Commit the power shadows, or refuse the commit (R486). -/
  | pwrCommit (value : Lane)
  /-- A droop detector stretches its cluster's pace (R480). -/
  | droop (part : PartId)
  /-- The stretch ends HOLD × 16 beats after the droop clears (R480). -/
  | droopHoldExpire (part : PartId)
  /-- Read and clear a droop counter (R487). -/
  | pwrDroopCntRead (die : Fin 2)
  /-- Read and clear the reserve shortfall counter (R487). -/
  | pwrRsvShortRead (part : PartId)
  /-- A junction exceeds 105 °C or 110 °C, which caps or stops the die (R481). -/
  | thermalOver (die : Fin 2) (celsius : BitVec 8)
  /-- The die falls below 100 °C and the measures lift (R481). -/
  | thermalRecover (die : Fin 2) (celsius : BitVec 8)
  /-- A junction reaches 120 °C and THERMTRIP_N is asserted (R564). -/
  | thermtrip
  /-- Key command that installs a tenant's fabric secret (R500). -/
  | install (value : Lane) (busy : Option (BitVec 14)) (tagOk kcvOk : Bool)
  /-- Key command that removes the tenant (R511). -/
  | removeTenant (value : Lane) (busy : Option (BitVec 14))
  /-- After the hard advance and twice Lmax, removal zeroes state and destroys the keys (R511). -/
  | removalWaitEnd
  /-- Key command that writes a signed attestation report (R499). -/
  | attest (value : Lane) (busy : Option (BitVec 14))
  /-- Key command that returns the identity and alias certificates (R498). -/
  | certs (value : Lane) (busy : Option (BitVec 14))
  /-- Key command that installs a weight-bundle key (R506). -/
  | openBundle (value : Lane) (busy : Option (BitVec 14)) (tagOk kcvOk : Bool)
  /-- Key command that opens bundle chunks into device memory (R506). -/
  | decrypt (value : Lane) (busy : Option (BitVec 14)) (badChunk : Option Nat)
  /-- Key command that clears a bundle handle (R506). -/
  | closeBundle (value : Lane) (busy : Option (BitVec 14))
  /-- Key command that advances a domain key's generation (R504). -/
  | eraseDomain (value : Lane) (busy : Option (BitVec 14))
  /-- Key command that seals a blob (R515). -/
  | seal (value : Lane) (busy : Option (BitVec 14))
  /-- Key command that unseals a blob (R515). -/
  | unseal (value : Lane) (busy : Option (BitVec 14)) (tagOk : Bool)
  /-- Enable invasive debug under the test root (R497). -/
  | keyDebugEnable (value : Lane)
  /-- Thaw a frozen queue, mover, core or link flow (R510). -/
  | keyThaw (value : Lane)
  /-- Read and clear the violation counter (R514). -/
  | keyViolationsRead
  /-- Start a partition reset of the named partitions (R521). -/
  | fltReset (value : Lane)
  /-- The main-path salvage record is complete and zeroing begins (R526). -/
  | salvageDone (part : PartId)
  /-- The main path has not completed in 100 µs and the Ferryman collects salvage over the debug path (R529). -/
  | salvageFallback (part : PartId)
  /-- A held fall-back record is written once its half is reachable (R529). -/
  | salvageDeferredWrite (part : PartId)
  /-- The partition's state is zeroed and the pattern test begins (R522). -/
  | zeroDone (part : PartId)
  /-- The pattern test ends, pending positions are retired and the core map is published (R64). -/
  | patternTestDone (part : PartId) (failed : BitVec 15)
  /-- Both channels are re-initialised and the reset completes (R522). -/
  | dramReinitDone (part : PartId)
  /-- A channel fails re-initialisation and the partition is stranded at once (R530). -/
  | channelReinitFailed (channel : Fin 32)
  /-- A reset has not completed within 10 ms and the partition becomes Stranded (R530). -/
  | partitionStranded (part : PartId)
  /-- The Ferryman writes retired positions to the flash retirement list (R65). -/
  | retirementListWrite (part : PartId) (flashOk : Bool)
  /-- Start a new fault mirror ring and mirror the queued entries again (R518). -/
  | fltRingWrite (value : Word)
  /-- Clear the overflow counts and beats of the named sources (R536). -/
  | fltOvfClear (value : Lane)
  /-- The Ferryman writes the last fault summary to flash (R546). -/
  | faultSummaryWrite
  /-- Mailbox command that writes a slot's class table and map-page ring record and zeroes its map index (R213). -/
  | seqset (busy : Option (BitVec 14))
  /-- Mailbox command that marks a position pending retirement (R62). -/
  | retire (busy : Option (BitVec 14))
  /-- Mailbox command that clears clusters' retirement-list entries (R60). -/
  | retireClear (busy : Option (BitVec 14))
  /-- Mailbox command that extends MEAS[5] to MEAS[7] (R489). -/
  | extend (busy : Option (BitVec 14))
  /-- Mailbox command that sends a composition request (R427). -/
  | compose (busy : Option (BitVec 14))
  /-- Mailbox command that writes a firmware image to the unused slot (R538). -/
  | fwWrite (busy : Option (BitVec 14)) (sigOk flashOk : Bool)
  /-- Mailbox command that replaces the configuration record (R540). -/
  | cfgWrite (busy : Option (BitVec 14)) (sigsOk flashOk : Bool)
  /-- Mailbox command that copies the start journal (R553). -/
  | journalRead (busy : Option (BitVec 14))
  /-- Mailbox command that returns the previous start's fault summary (R546). -/
  | faultSummary (busy : Option (BitVec 14))
  /-- Mailbox command that copies temperatures, steps and counters (R554). -/
  | telemetry (busy : Option (BitVec 14))
  /-- Restart the Ferryman (R551). -/
  | ferRestart (value : Lane)
  /-- FER_HEARTBEAT advances every 100 µs (R551). -/
  | ferryHeartbeat
  /-- A wait in class 0 or 1 passes 100 µs or 500 µs, and the Ferryman sheds class 4 or defers class 3 (R550). -/
  | ferryShed (waitUs : Nat)
  /-- SMBus read of DEV_IDENT (R562). -/
  | smbIdent
  /-- SMBus read of the serial number (R562). -/
  | smbSerial
  /-- SMBus read of the device state (R562). -/
  | smbState
  /-- SMBus read of the die temperatures (R562). -/
  | smbTemp
  /-- SMBus read of power and grant (R562). -/
  | smbPower
  /-- SMBus read of the laser powers (R562). -/
  | smbLaser
  /-- SMBus read that returns and clears the alert bits (R562). -/
  | smbAlert
  /-- The lanes of an interface finish training within 500 ms of enable and IF_UP sets (R391). -/
  | portTrained (port : Fin 4) (iface : Fin 8)
  /-- A named peer confirms a key association advance, and PENDING clears once every named peer has confirmed (R400). -/
  | advanceConfirmed (peer : Landing)
  /-- The far end of a channel installs the key for AN + 1 when a peer advances the association, and confirms it (R400). -/
  | peerAdvance (peer : Landing) (hard : Bool)
  /-- The Ferryman finishes reading the engine state over the debug path, and zeroing of the partition begins (R529). -/
  | salvageFallbackDone (part : PartId)
  /-- An instruction word with an undefined OP or FUNC reaches dispatch and raises ILLEGAL (R78). -/
  | reservedEncoding (core : CoreId) (word : Word)
  /-- Setting VF Enable with NumVFs in mediated mode makes the instances below NumVFs valid (R450). -/
  | vfEnableSet (numVfs : Nat)
  /-- Each sync interval the Ferryman sends IEEE 1588 peer-delay and sync messages on every interface that is up (R402). -/
  | ptpSyncInterval
  /-- A received frame that is not accepted is discarded and counted in LNK_RX_DROP or LNK_FEC_UCW (R397). -/
  | frameDiscarded (arr : Arrival) (frame : Discarded)
  deriving DecidableEq, Repr

end Sys2Proof
end

