-- ==== Sys2Proof/Decode.lean ====
section
/-! DEFINITION. The operation table gives no row any bits, so no word of it spells a command; and the instruction words of the
cores (R75 to R78): the fields of a word, and the command it is at the head of a core's dispatch. -/

namespace Sys2Proof

/-- The command a word of the operation table spells: none, since every row's list of bit fields is empty. -/
def decodeTableWord (_nbits _w : Nat) : Option Instr := none

/-! ## Instruction words (R75 to R78) -/

/-- Bits [hi:lo] of an instruction word. -/
def wordField (w : Word) (hi lo : Nat) : Nat := w.toNat / 2 ^ lo % 2 ^ (hi + 1 - lo)

/-- OP and FUNC. -/
def wordOp (w : Word) : Nat := wordField w 5 0
def wordFunc (w : Word) : Nat := wordField w 11 6

/-- PE, PRED, DST, SRC1, SRC2 and IMM of a word that a core dispatches. -/
def wordFields (core : CoreId) (u : Upset) (w : Word) : CoreOp where
  core := core
  pe := wordField w 12 12 == 1
  pred := BitVec.toFin (BitVec.ofNat 3 (wordField w 15 13))
  dst := BitVec.toFin (BitVec.ofNat 5 (wordField w 20 16))
  src1 := BitVec.toFin (BitVec.ofNat 5 (wordField w 25 21))
  src2 := BitVec.toFin (BitVec.ofNat 5 (wordField w 30 26))
  imm := BitVec.ofNat 33 (wordField w 63 31)
  upset := u

/-- A command of an instruction, from the fields of its first word and its second word. -/
abbrev Spelled := CoreOp → Word → Instr

/-- An instruction of one word. -/
def oneWord (f : CoreOp → Instr) : Spelled := fun a _ => f a

/-- The functions of a major opcode, with their FUNC values counted from 0: scalar (R97 to R103). -/
def scalarFuncs : Nat → List (Nat × Spelled)
  | 0x00 => (List.range 13).zip [oneWord .add, oneWord .sub, oneWord .and, oneWord .or, oneWord .xor, oneWord .andn, oneWord .sll,
      oneWord .srl, oneWord .sra, oneWord .min, oneWord .max, oneWord .minu, oneWord .maxu] ++
    [(0x10, oneWord .mul), (0x11, oneWord .mulhu), (0x12, oneWord .mulhs), (0x14, oneWord .divu), (0x15, oneWord .divs),
      (0x16, oneWord .remu), (0x17, oneWord .rems), (0x18, oneWord .clz), (0x19, oneWord .ctz), (0x1A, oneWord .popc)]
  | 0x01 => ([0, 1, 2, 3, 4, 5, 6, 7, 8, 9, 10, 11, 12, 16] : List (Fin 64)).map (fun f => (f.val, oneWord (fun a => .alui a f)))
  | 0x02 => [(0, oneWord .movi), (1, oneWord .movh), (2, oneWord .sel)]
  | 0x03 => ([0, 1, 2, 3, 4, 5] : List (Fin 64)).map (fun f => (f.val, oneWord (fun a => .cmp a f)))
  | 0x04 => ([0, 1, 2, 3, 4, 5] : List (Fin 64)).map (fun f => (f.val, oneWord (fun a => .cmpi a f)))
  | 0x05 => [(0, oneWord .pand), (1, oneWord .por), (2, oneWord .pxor), (3, oneWord .pandn), (4, oneWord .pnot)]
  | 0x06 => [(0, oneWord .ld8u), (1, oneWord .ld16u), (2, oneWord .ld32u), (3, oneWord .ld64), (4, oneWord .ld8s),
      (5, oneWord .ld16s), (6, oneWord .ld32s)]
  | 0x07 => [(0, oneWord .st8), (1, oneWord .st16), (2, oneWord .st32), (3, oneWord .st64)]
  | 0x08 => [(0, oneWord .bra), (1, oneWord .call), (2, oneWord .jr), (3, oneWord .loopDec)]
  | 0x09 => [(0, oneWord .nop), (1, oneWord .kend), (2, oneWord .brk), (3, oneWord .srd)]
  | _ => []

/-- Vector and matrix (R112 to R118, R124 to R133). -/
def vectorFuncs : Nat → List (Nat × Spelled)
  | 0x10 => (List.range 11).zip [oneWord .vadd, oneWord .vsub, oneWord .vmul, oneWord .vfma, oneWord .vfnma, oneWord .vmin,
      oneWord .vmax, oneWord .vabs, oneWord .vneg, oneWord .vmov, oneWord .vrope]
  | 0x11 => (List.range 7).zip [oneWord .vbadd, oneWord .vbsub, oneWord .vbmul, oneWord .vbfma, oneWord .vbfnma, oneWord .vbmin,
      oneWord .vbmax]
  | 0x12 => (List.range 7).zip [oneWord .vfeq, oneWord .vflt, oneWord .vfle, oneWord .vfun, oneWord .vieq, oneWord .vilt,
      oneWord .viltu]
  | 0x13 => (List.range 13).zip [oneWord .viadd, oneWord .visub, oneWord .viand, oneWord .vior, oneWord .vixor, oneWord .viandn,
      oneWord .visll, oneWord .visrl, oneWord .visra, oneWord .vimin, oneWord .vimax, oneWord .viminu, oneWord .vimaxu] ++
    [(0x10, oneWord .vimul)]
  | 0x14 => (List.range 7).zip [oneWord .vsel, oneWord .vbcast, oneWord .viota, oneWord .vfirst, oneWord .vget, oneWord .vput,
      oneWord .vperm]
  | 0x15 => (List.range 10).zip [oneWord .vf2bf, oneWord .vbf2fl, oneWord .vbf2fh, oneWord .vf2h, oneWord .vh2fl, oneWord .vh2fh,
      oneWord .vf2i, oneWord .vf2iz, oneWord .vi2f, oneWord .vqmx]
  | 0x16 => [(0, oneWord .vld), (1, oneWord .vst)]
  | 0x17 => [(0, oneWord .vrsum), (1, oneWord .vrmax), (2, oneWord .vrmin), (3, oneWord .vrisum)]
  | 0x20 => [(0, oneWord .tdset), (1, oneWord .tdscl), (2, oneWord .tdadd)]
  | 0x21 => [(0, oneWord .mma), (1, oneWord .azero)]
  | 0x22 => [(0, oneWord .adrn), (1, oneWord .adrv)]
  | _ => []

/-- Special functions, sampling, sequence state, movement, synchronisation and system (R134 to R140, R152, R160, R166 to R168,
R172, R223, R228). -/
def otherFuncs : Nat → List (Nat × Spelled)
  | 0x28 => (List.range 8).zip [oneWord .exp2, oneWord .log2, oneWord .rcp, oneWord .rsq, oneWord .tanh, oneWord .sigm,
      oneWord .sin, oneWord .cos]
  | 0x29 => [(0, oneWord .vosm), (1, oneWord .vrms)]
  | 0x2A => [(0, oneWord .vrng), (1, oneWord .srng), (2, oneWord .topk), (3, oneWord .tkmrg), (4, oneWord .sdraw)]
  | 0x2E => [(0, oneWord .sbnew), (1, oneWord .sbcmt), (2, oneWord .sbfree), (3, oneWord .sbstat), (4, oneWord .stree)]
  | 0x2F => [(0, oneWord .sanc), (1, oneWord .sacpt), (2, oneWord .scmt)]
  | 0x30 => [(0, .copy), (1, .fill)]
  | 0x31 => [(0, oneWord .allred), (1, oneWord .allgath), (2, oneWord .redscat), (3, oneWord .cbar)]
  | 0x38 => [(0, oneWord .eadd), (1, oneWord .ewait), (2, oneWord .erd)]
  | 0x39 => [(0, oneWord .rel), (1, oneWord .acq), (2, oneWord .mwait)]
  | 0x3A => [(0, oneWord .fset), (1, oneWord .fwait)]
  | 0x3C => [(0, oneWord .phys), (1, oneWord .pmark), (2, oneWord .pcnt)]
  | _ => []

/-- What OP and FUNC name; none where the tables of their group do not define them (R78). -/
def spelled (op func : Nat) : Option Spelled := (scalarFuncs op ++ vectorFuncs op ++ otherFuncs op).lookup func

/-- Whether a word's OP and FUNC are defined. -/
def wordDefined (w : Word) : Bool := (spelled (wordOp w) (wordFunc w)).isSome

/-- The command that a word at the head of a core's dispatch is, with the word that follows it (R75, R77); none where the word is
undefined, which RESERVED_ENCODING is (R78). -/
def wordCommand (core : CoreId) (u : Upset) (w second : Word) : Option Instr :=
  (spelled (wordOp w) (wordFunc w)).map (fun f => f (wordFields core u w) second)

end Sys2Proof
end

