-- ==== Sys2Proof/Config.lean ====
section
/-! DEFINITION. What the specification leaves open: free values, which nothing can evaluate, and the primitives of
cryptography, which the model names and does not compute. Each is named in the assumption log. -/

namespace Sys2Proof.Config

/-- A bench byte the running kernel has not written (R74): by kernel start and byte address. -/
opaque benchByte : Nat → Nat → Byte
/-- A byte of an LPDDR5X data-range line not written whole since start or since a reset (R568, R524): by occasion and address.
DESIGN CHOICE (log entry 11, unsafe). -/
opaque dramByte : Nat → Nat → Byte
/-- Whether such a line is uncorrectable, which it stays until it is written whole (R257, R568, R524): by START_NONCE, the partition's
count of resets, and line. DESIGN CHOICE (log entry 11, unsafe). -/
opaque dramUncorrectable : List Byte → Nat → Nat → Bool
/-- What a line whose ciphertext was miscorrected decrypts to (R252, R503), in the 16-byte blocks touched: by key, plaintext, the
pattern left, and byte. DEDUCED (log entry 13, unsafe). -/
opaque garbledByte : List Nat → List Byte → List (Nat × Nat) → Nat → Byte
/-- What a line read under another key than its own decrypts to (R503, R504): by its key, the key in use, plaintext and address.
DEDUCED (log entry 14, safe). -/
opaque otherKeyByte : List Nat → List Nat → List Byte → Nat → Byte
/-- Whether a cached run still present is used after the tables changed (R299, R300): the choice is open. -/
opaque cacheHit : Nat → Bool
/-- What selects the set of a run from its context, virtual base and page bits (R299). DESIGN CHOICE (log entry 18, safe). -/
opaque cacheSet : Nat → Nat → Nat → Nat
/-- Lines the remote read buffer supplies are those of the model's choice (R272): whether a held line is served. -/
opaque rrbHit : Nat → Bool
/-- What the device's own engines read of another device's memory (R84, R88): by occasion and address.
DESIGN CHOICE (log entry 20, safe). -/
opaque remoteByte : Nat → Nat → Byte
/-- Energy in microjoules of a completed manifest (R482, R483). DESIGN CHOICE (log entry 21, safe). -/
opaque energyUj : Nat → Word
/-- Performance-counter values that count time or conflicts (R484). DESIGN CHOICE (log entry 21, safe). -/
opaque perfCount : Nat → Word
/-- The power estimate of R479, in watts. DESIGN CHOICE (log entry 21, safe). -/
opaque needW : Nat → BitVec 16
/-- The average power of the last window (R464), in watts. DESIGN CHOICE (log entry 21, safe). -/
opaque powerW : Nat → BitVec 16
/-- A microsecond figure of a FERRY_BUSY answer (R550). DESIGN CHOICE (log entry 22, safe). -/
opaque retryUs : Nat → BitVec 14
/-- How many requests each Ferryman class holds at a read of FER_LOAD (R550, R556). DESIGN CHOICE (log entry 22, safe). -/
opaque ferryLoad : Nat → BitVec 30
/-- Which of several permitted outcomes an open choice takes. DESIGN CHOICE (log entry 23, safe). -/
opaque choice : Nat → Bool
/-- The order of two candidates equal in value and index whose encodings differ (R138): a rank by encoding.
DESIGN CHOICE (log entry 30, safe). -/
opaque tieRank : Lane → Nat
/-- A lane, and flags, that a sampling instruction leaves open (R139, R140): by occasion, and lane. DESIGN CHOICE (log entries 30 and 31,
safe). -/
opaque openLane : Nat → Nat → Lane
opaque openFlags : Nat → BitVec 5
/-- The contents of an output buffer whose layout the specification does not give byte by byte.
DEDUCED (log entry 66, unsafe). -/
opaque outputByte : Nat → Nat → Byte

/-- Hops beyond the first of a route to a device that is not at the far end of a link (R395): no frame carries them.
DESIGN CHOICE (log entry 48, safe). -/
opaque farHops : Nat → Nat
/-- The measured path delays of the hops of a route beyond the first, in 1/256 ns (R403): other devices measure them, so they
are free by measurement and landing number. DESIGN CHOICE (log entry 48, safe). -/
opaque farDelay : Nat → Nat → Nat
/-- The part of the fixed delay of GEN 1 that lies at the sending end, in 1/256 ns (R394): the table gives the total alone.
DESIGN CHOICE (log entry 115, safe). -/
opaque sendDelayGen1 : Nat
/-- The fraction of a beat, in 1/256, at which a message that the device sends starts (R401). DESIGN CHOICE (log entry 115, safe). -/
opaque sendFraction : Nat → BitVec 8
/-- The rate the servo takes from an offset, in parts per million before the limit of R402. DESIGN CHOICE (log entry 96, safe). -/
opaque servoRate : Nat → Int
/-- The SCI of the channel from one landing number to another (R398). DESIGN CHOICE (log entry 97, safe). -/
opaque channelSci : Nat → Nat → Word
/-- The ARB_BOUND of the egress interfaces of other devices on a route, in beats (R403, R420).
DESIGN CHOICE (log entry 48, safe). -/
opaque farBound : Nat → Nat

/-! Cryptographic primitives (R488 to R506), on byte strings. -/

/-- SHAKE256 with an output of the given number of bytes. DESIGN CHOICE (log entry 24, safe). -/
opaque shake256 : List Byte → Nat → List Byte
/-- The random source: the n-th request of a start (R496). DESIGN CHOICE (log entry 24, safe). -/
opaque random : Nat → List Byte
/-- The seed S the PUF reconstructs (R488). DESIGN CHOICE (log entry 24, safe). -/
opaque pufSeed : List Byte
/-- A Falcon-1024 signature under a node, with a salt. DESIGN CHOICE (log entry 24, safe). -/
opaque falconSign : List Byte → List Byte → List Byte → List Byte
/-- The ML-KEM-1024 public key of a node, and decapsulation. -/
opaque kemPublic : List Byte → List Byte
opaque kemDecap : List Byte → List Byte → List Byte
/-- AES-256-GCM: key, nonce, additional data, text; encryption gives ciphertext and tag, opening gives the plaintext. -/
opaque gcmSeal : List Byte → List Byte → List Byte → List Byte → List Byte
opaque gcmOpen : List Byte → List Byte → List Byte → List Byte → List Byte
/-- GCM-AES-XPN-256 of IEEE 802.1AE: SAK, salt, SSCI, packet number, and the frame from its protocol header on; the ciphertext and
ICV (R398, R501). -/
opaque gcmXpnSeal : List Byte → List Byte → Nat → Nat → List Byte → List Byte

/-- The kernel a rank that moves here from another device has reached (R35, R38): no frame carries it.
DEDUCED (log entry 55, unsafe). -/
opaque nextKernel : Nat → Nat

end Sys2Proof.Config
end

