-- ==== Sys2Proof/Machine/SMap.lean ====
section
/-! DEFINITION. Reading and writing the sparse canonical maps that hold registers, stores and tables. -/

namespace Sys2Proof.Machine

/-- What key `n` holds; `d` is what an unlisted key reads as. -/
def mapGet {α : Type} (d : α) : SMap α → Nat → α
  | [], _ => d
  | (k, v) :: t, n => if k = n then v else mapGet d t n

/-- Set key `n` to `x`, keeping keys rising and listing no default. -/
def mapPut {α : Type} [DecidableEq α] (d : α) : SMap α → Nat → α → SMap α
  | [], n, x => if x = d then [] else [(n, x)]
  | (k, v) :: t, n, x =>
    if n < k then (if x = d then (k, v) :: t else (n, x) :: (k, v) :: t)
    else if k = n then (if x = d then t else (n, x) :: t)
    else (k, v) :: mapPut d t n x

/-- Every listed key is at least `lo`, keys rise strictly, and no value is the default. -/
def mapWfFrom {α : Type} [DecidableEq α] (d : α) : Nat → SMap α → Bool
  | _, [] => true
  | lo, (k, v) :: t => decide (lo ≤ k) && decide (v ≠ d) && mapWfFrom d (k + 1) t

/-- The canonical form. -/
def mapWf {α : Type} [DecidableEq α] (d : α) (m : SMap α) : Bool := mapWfFrom d 0 m

/-- Consecutive keys from `a`, `n` of them. -/
def mapRead {α : Type} (d : α) (m : SMap α) (a : Nat) : Nat → List α
  | 0 => []
  | n + 1 => mapGet d m a :: mapRead d m (a + 1) n

/-- Write a list of values at consecutive keys from `a`. -/
def mapWrite {α : Type} [DecidableEq α] (d : α) (m : SMap α) (a : Nat) : List α → SMap α
  | [] => m
  | x :: xs => mapWrite d (mapPut d m a x) (a + 1) xs

/-- Remove every key in `[lo, hi)`: those keys then read as the default. -/
def mapClear {α : Type} (m : SMap α) (lo hi : Nat) : SMap α :=
  m.filter (fun p => p.1 < lo || hi ≤ p.1)

end Sys2Proof.Machine
end

