-- ==== Sys2Proof/Machine/RegMap.lean ====
section
/-! DEFINITION. The register window: offsets, widths, access codes and reset values of every register, from the register
tables of the chapters (R371, R372, R387, R388, R406, R407, R437, R447, R459, R460, R486, R487, R514, R535, R536, R556,
R262 to R266, R309, R310, R338, R339). -/

namespace Sys2Proof.Machine

/-- Access codes of R13. -/
inductive Acc where
  | ro
  | rw
  | w1c
  | wo
  | rc
  | rws
  deriving DecidableEq, Repr

/-- A field that is not read-only: bits [hi:lo] and its access code. Bits no field lists are reserved or RO. -/
structure RegField where
  hi : Nat
  lo : Nat
  acc : Acc
  deriving DecidableEq, Repr

/-- A register or array of registers: base offset in the window, the strides and counts of its indices, whether it is
64-bit, its fields that are not RO, and its reset value where that is the same for every element. -/
structure RegRow where
  base : Nat
  dims : List (Nat × Nat)
  wide : Bool
  fields : List RegField
  reset : Nat
  deriving DecidableEq, Repr

/-! Offsets of the registers, by the names of the chapters; an array's first element. -/
def R_MEM_CTRL : Nat := 0xC0000
def R_MEM_CE_THRESH : Nat := 0xC0004
def R_MEM_SCRUB_CS : Nat := 0xC0008
def R_MEM_SCRUB_DR : Nat := 0xC000C
def R_MEM_UE_CLEAR : Nat := 0xC0010
def R_MEM_INJ_CTRL : Nat := 0xC0014
def R_MEM_INJ_ADDR : Nat := 0xC0018
def R_MEM_RSV_BACKING : Nat := 0xC0040
def R_MEM_RSV_SALVAGE_A : Nat := 0xC0048
def R_MEM_RSV_SALVAGE_B : Nat := 0xC0050
def R_MEM_RSV_FERRY : Nat := 0xC0058
def R_MEM_UE : Nat := 0xC0100
def R_MEM_PART : Nat := 0xC0200
def R_MEM_CE_CS : Nat := 0xC0300
def R_MEM_CE_DR : Nat := 0xC0340
def R_MEM_SCRUB_PASS : Nat := 0xC0380
def R_MEM_CH : Nat := 0xC0400
def R_XLT_CTRL : Nat := 0x50000
def R_XLT_STATUS : Nat := 0x50004
def R_XLT_FENCE_CTX : Nat := 0x50010
def R_XLT_FENCE_BASE : Nat := 0x50018
def R_XLT_FENCE_LIMIT : Nat := 0x50020
def R_XLT_FENCE_GO : Nat := 0x50028
def R_XLT_FENCE_ISSUED : Nat := 0x50030
def R_XLT_FENCE_DONE : Nat := 0x50034
def R_XLT_RC_HIT : Nat := 0x50040
def R_XLT_RC_MISS : Nat := 0x50044
def R_XLT_SC_HIT : Nat := 0x50048
def R_XLT_SC_MISS : Nat := 0x5004C
def R_XLT_WALKS : Nat := 0x50050
def R_XLT_EPOCH : Nat := 0x50100
def R_BRT_REQ_ADDR : Nat := 0xE0000
def R_BRT_REQ : Nat := 0xE0008
def R_BRT_REQ_STATUS : Nat := 0xE000C
def R_BRT_QREVOKE : Nat := 0xE0010
def R_BRT_BERTH : Nat := 0xE0100
def R_LDG_BASE : Nat := 0x60000
def R_LDG_REL_BASE : Nat := 0x60008
def R_LDG_ABANDON : Nat := 0x60010
def R_LDG_STATUS : Nat := 0x60014
def R_LDG_BINDS : Nat := 0x60018
def R_LDG_RELEASES : Nat := 0x6001C
def R_SUB_CTRL : Nat := 0x20000
def R_SUB_ADM_ALLOW : Nat := 0x20004
def R_SUB_STATUS : Nat := 0x20008
def R_SUB_ADMITTED : Nat := 0x20010
def R_SUB_REFUSED : Nat := 0x20014
def R_SUB_VOIDED : Nat := 0x20018
def R_SUB_LAST_REFUSAL : Nat := 0x20020
def R_SUB_LINKLAT : Nat := 0x20100
def R_TTB_CTRL : Nat := 0x30000
def R_TTB_COMMIT : Nat := 0x30004
def R_TTB_STATUS : Nat := 0x30008
def R_TTB_COUNT : Nat := 0x3000C
def R_TTB_ANCHOR : Nat := 0x30010
def R_TTB_CYCLE : Nat := 0x30018
def R_TTB_BOOKED : Nat := 0x30020
def R_TTB_SLOT : Nat := 0x30400
def R_ARB_SEL : Nat := 0x40000
def R_ARB_CTRL : Nat := 0x40004
def R_ARB_COMMIT : Nat := 0x40008
def R_ARB_STATUS : Nat := 0x4000C
def R_ARB_BOUND : Nat := 0x40010
def R_ARB_DEAD : Nat := 0x40014
def R_ARB_FORCED : Nat := 0x40018
def R_ARB_SLOT : Nat := 0x40100
def R_ARB_PRIO : Nat := 0x40200
def R_ARB_WAIT : Nat := 0x41000
def R_LNK_GLOBAL : Nat := 0xA0000
def R_LNK_TIME : Nat := 0xA0004
def R_LNK_TIME_OFFSET : Nat := 0xA0008
def R_LNK_SA_ADVANCE : Nat := 0xA0010
def R_LNK_SA_STATUS : Nat := 0xA0014
def R_LNK_ROUTE_SEL : Nat := 0xA0020
def R_LNK_ROUTE : Nat := 0xA0024
def R_LNK_PEER_DELAY : Nat := 0xA0028
def R_LNK_MAC_BASE : Nat := 0xA0030
def R_LNK_PORT_CTRL : Nat := 0xA0100
def R_LNK_PORT_STATUS : Nat := 0xA0104
def R_LNK_ASYM : Nat := 0xA0108
def R_LNK_LASER_PWR : Nat := 0xA010C
def R_LNK_IF_CTRL : Nat := 0xA0110
def R_LNK_IP6_hi : Nat := 0xA0800
def R_LNK_IP6_lo : Nat := 0xA0808
def R_ROS_CTRL : Nat := 0xB0000
def R_ROS_STATUS : Nat := 0xB0004
def R_ROS_CMD : Nat := 0xB0008
def R_ROS_DISC : Nat := 0xB000C
def R_ROS_DEAD : Nat := 0xB0010
def R_ROS_LOST_CLEAR : Nat := 0xB0014
def R_ROS_PEER_SEL : Nat := 0xB0018
def R_ROS_PEER : Nat := 0xB001C
def R_ROS_HO_ACTIVE : Nat := 0xB0020
def R_ROS_HO_TAKEN : Nat := 0xB0024
def R_ROS_HO_DISPUTED : Nat := 0xB0028
def R_ROS_HO_REFUSED : Nat := 0xB002C
def R_ROS_VSLOT : Nat := 0xB0100
def R_ROS_EPOCH : Nat := 0xB0180
def R_ROS_PART : Nat := 0xB0200
def R_ROS_LOST : Nat := 0xB0300
def R_DEV_IDENT : Nat := 0x0
def R_DEV_STEPPING : Nat := 0x4
def R_DEV_SERIAL : Nat := 0x8
def R_DEV_CAP0 : Nat := 0x10
def R_DEV_CAP1 : Nat := 0x14
def R_DEV_STATE : Nat := 0x18
def R_DEV_MODE : Nat := 0x1C
def R_DEV_BEAT : Nat := 0x20
def R_DEV_CORE_MAP : Nat := 0x100
def R_HST_LINK_STATUS : Nat := 0xD0000
def R_HST_LINK_CTRL : Nat := 0xD0004
def R_HST_IRQ_MOD : Nat := 0xD0008
def R_HST_HOST_RATE : Nat := 0xD000C
def R_HST_INST_CMD : Nat := 0xD0010
def R_HST_INST_STATUS : Nat := 0xD0014
def R_HST_INST : Nat := 0xD0100
def R_HST_INST_DRAIN : Nat := 0xD0300
def R_HST_BERTH : Nat := 0xD0400
def R_PWR_CTRL : Nat := 0x70000
def R_PWR_COMMIT : Nat := 0x70004
def R_PWR_STATUS : Nat := 0x70008
def R_PWR_RACK : Nat := 0x7000C
def R_PWR_GRANT : Nat := 0x70010
def R_PWR_LOANS : Nat := 0x70018
def R_PWR_SHIFT : Nat := 0x7001C
def R_PWR_DROOP : Nat := 0x70020
def R_PWR_POWER : Nat := 0x70024
def R_PWR_TEMP : Nat := 0x70028
def R_PWR_ENERGY_DEVICE : Nat := 0x70030
def R_PWR_ENERGY_UNATTR : Nat := 0x70038
def R_PWR_DIE : Nat := 0x70040
def R_PWR_DROOP_CNT : Nat := 0x70048
def R_PWR_PART : Nat := 0x70100
def R_PWR_BOOTH : Nat := 0x70104
def R_PWR_RESERVE : Nat := 0x70108
def R_PWR_RSV_SHORT : Nat := 0x7010C
def R_PWR_TAG : Nat := 0x70400
def R_PWR_BERTH_ENERGY : Nat := 0x70600
def R_KEY_CMD : Nat := 0x80000
def R_KEY_STATUS : Nat := 0x80004
def R_KEY_ARG0 : Nat := 0x80008
def R_KEY_ARG1 : Nat := 0x80010
def R_KEY_ARG2 : Nat := 0x80018
def R_KEY_TENANT : Nat := 0x80020
def R_KEY_DEBUG : Nat := 0x80028
def R_KEY_START_COUNT : Nat := 0x8002C
def R_KEY_THAW : Nat := 0x80030
def R_KEY_VIOLATIONS : Nat := 0x80034
def R_KEY_LINK_SEL : Nat := 0x80038
def R_KEY_LINK : Nat := 0x8003C
def R_KEY_FROZEN : Nat := 0x80200
def R_FLT_CTRL : Nat := 0x90000
def R_FLT_STATUS : Nat := 0x90004
def R_FLT_RING : Nat := 0x90008
def R_FLT_PRODUCED : Nat := 0x90010
def R_FLT_RESET : Nat := 0x90018
def R_FLT_OVF_CLEAR : Nat := 0x9001C
def R_FLT_OVF_COUNT : Nat := 0x90100
def R_FLT_OVF_FIRST : Nat := 0x90200
def R_FLT_OVF_LAST : Nat := 0x90280
def R_FLT_PROGRESS : Nat := 0x90400
def R_FLT_LAST_RETIRE : Nat := 0x90440
def R_FLT_RESET_STATUS : Nat := 0x904C0
def R_FLT_RESET_BEAT : Nat := 0x90500
def R_FLT_SALV : Nat := 0x90580
def R_FER_REQ_ADDR : Nat := 0x10000
def R_FER_REQ : Nat := 0x10008
def R_FER_ACCEPT : Nat := 0x1000C
def R_FER_STATUS : Nat := 0x10010
def R_FER_HEARTBEAT : Nat := 0x10014
def R_FER_RESTART : Nat := 0x10018
def R_FER_LOAD : Nat := 0x1001C
def R_LNK_FEC_CW : Nat := 0xA0140
def R_LNK_FEC_UCW : Nat := 0xA0144
def R_LNK_RX_DROP : Nat := 0xA0148
def R_LNK_AUTH_FAIL : Nat := 0xA014C
def R_LNK_OLDAN_DROP : Nat := 0xA0150
def R_KEY_MEAS : Nat := 0x80100

def regRows0 : List RegRow := [
  ⟨R_MEM_CTRL, [], false, [⟨1, 1, .rw⟩, ⟨0, 0, .rw⟩], 0x3⟩,
  ⟨R_MEM_CE_THRESH, [], false, [⟨15, 0, .rw⟩], 0x100⟩,
  ⟨R_MEM_SCRUB_CS, [], false, [⟨15, 0, .rw⟩], 0xD1B⟩,
  ⟨R_MEM_SCRUB_DR, [], false, [⟨15, 0, .rw⟩], 0xA70⟩,
  ⟨R_MEM_UE_CLEAR, [], false, [⟨31, 4, .wo⟩, ⟨3, 0, .wo⟩], 0x0⟩,
  ⟨R_MEM_INJ_CTRL, [], false, [⟨31, 31, .rw⟩, ⟨26, 24, .rw⟩, ⟨23, 16, .rw⟩, ⟨6, 0, .rw⟩], 0x1010000⟩,
  ⟨R_MEM_INJ_ADDR, [], true, [⟨47, 6, .rw⟩], 0x0⟩,
  ⟨R_MEM_RSV_BACKING, [], true, [], 0x10767800000⟩,
  ⟨R_MEM_RSV_SALVAGE_A, [], true, [], 0x10F67800000⟩,
  ⟨R_MEM_RSV_SALVAGE_B, [], true, [], 0x17767800000⟩,
  ⟨R_MEM_RSV_FERRY, [], true, [], 0x17F6F800000⟩,
  ⟨R_MEM_UE, [(0x8, 16)], true, [], 0x0⟩,
  ⟨R_MEM_PART, [(0x4, 16)], false, [], 0x0⟩,
  ⟨R_MEM_CE_CS, [(0x4, 16)], false, [⟨31, 0, .rc⟩], 0x0⟩,
  ⟨R_MEM_CE_DR, [(0x4, 16)], false, [⟨31, 0, .rc⟩], 0x0⟩,
  ⟨R_MEM_SCRUB_PASS, [(0x4, 16)], false, [], 0x0⟩,
  ⟨R_MEM_CH, [(0x4, 32)], false, [], 0x0⟩,
  ⟨R_XLT_CTRL, [], false, [⟨1, 1, .rw⟩, ⟨0, 0, .rw⟩], 0x3⟩,
  ⟨R_XLT_STATUS, [], false, [⟨5, 5, .w1c⟩], 0x0⟩,
  ⟨R_XLT_FENCE_CTX, [], false, [⟨31, 31, .rw⟩, ⟨15, 0, .rw⟩], 0x0⟩]

def regRows1 : List RegRow := [
  ⟨R_XLT_FENCE_BASE, [], true, [⟨47, 16, .rw⟩], 0x0⟩,
  ⟨R_XLT_FENCE_LIMIT, [], true, [⟨47, 16, .rw⟩], 0x0⟩,
  ⟨R_XLT_FENCE_GO, [], false, [⟨31, 1, .wo⟩, ⟨0, 0, .wo⟩], 0x0⟩,
  ⟨R_XLT_FENCE_ISSUED, [], false, [], 0x0⟩,
  ⟨R_XLT_FENCE_DONE, [], false, [], 0x0⟩,
  ⟨R_XLT_RC_HIT, [], false, [⟨31, 0, .rc⟩, ⟨31, 0, .rc⟩], 0x0⟩,
  ⟨R_XLT_RC_MISS, [], false, [⟨31, 0, .rc⟩, ⟨31, 0, .rc⟩], 0x0⟩,
  ⟨R_XLT_SC_HIT, [], false, [⟨31, 0, .rc⟩, ⟨31, 0, .rc⟩], 0x0⟩,
  ⟨R_XLT_SC_MISS, [], false, [⟨31, 0, .rc⟩, ⟨31, 0, .rc⟩], 0x0⟩,
  ⟨R_XLT_WALKS, [], false, [⟨31, 0, .rc⟩, ⟨31, 0, .rc⟩], 0x0⟩,
  ⟨R_XLT_EPOCH, [(0x4, 48)], false, [], 0x0⟩,
  ⟨R_BRT_REQ_ADDR, [], true, [⟨51, 6, .rw⟩], 0x0⟩,
  ⟨R_BRT_REQ, [], false, [⟨31, 31, .wo⟩, ⟨29, 28, .rw⟩, ⟨27, 27, .rw⟩, ⟨21, 16, .rw⟩, ⟨15, 0, .rw⟩], 0x0⟩,
  ⟨R_BRT_REQ_STATUS, [], false, [⟨30, 30, .w1c⟩], 0x0⟩,
  ⟨R_BRT_QREVOKE, [], false, [⟨31, 31, .wo⟩, ⟨30, 22, .wo⟩, ⟨21, 16, .wo⟩, ⟨15, 0, .wo⟩], 0x0⟩,
  ⟨R_BRT_BERTH, [(0x8, 48)], true, [], 0x0⟩,
  ⟨R_LDG_BASE, [], true, [⟨51, 12, .rw⟩, ⟨4, 0, .rw⟩], 0x0⟩,
  ⟨R_LDG_REL_BASE, [], true, [⟨51, 12, .rw⟩, ⟨4, 0, .rw⟩], 0x0⟩,
  ⟨R_LDG_ABANDON, [], false, [⟨31, 0, .wo⟩], 0x0⟩,
  ⟨R_LDG_STATUS, [], false, [⟨1, 1, .w1c⟩, ⟨0, 0, .w1c⟩], 0x0⟩]

def regRows2 : List RegRow := [
  ⟨R_LDG_BINDS, [], false, [⟨31, 0, .rc⟩], 0x0⟩,
  ⟨R_LDG_RELEASES, [], false, [⟨31, 0, .rc⟩], 0x0⟩,
  ⟨R_SUB_CTRL, [], false, [⟨3, 0, .rw⟩], 0x3⟩,
  ⟨R_SUB_ADM_ALLOW, [], false, [⟨15, 0, .rw⟩], 0x40⟩,
  ⟨R_SUB_STATUS, [], false, [], 0x0⟩,
  ⟨R_SUB_ADMITTED, [], false, [⟨31, 0, .rc⟩], 0x0⟩,
  ⟨R_SUB_REFUSED, [], false, [⟨31, 0, .rc⟩], 0x0⟩,
  ⟨R_SUB_VOIDED, [], false, [⟨31, 0, .rc⟩], 0x0⟩,
  ⟨R_SUB_LAST_REFUSAL, [], true, [], 0x0⟩,
  ⟨R_SUB_LINKLAT, [(0x4, 16)], false, [], 0x0⟩,
  ⟨R_TTB_CTRL, [(0x1000, 16)], false, [⟨0, 0, .rws⟩], 0x0⟩,
  ⟨R_TTB_COMMIT, [(0x1000, 16)], false, [⟨31, 1, .wo⟩, ⟨0, 0, .wo⟩], 0x0⟩,
  ⟨R_TTB_STATUS, [(0x1000, 16)], false, [⟨30, 30, .w1c⟩], 0x0⟩,
  ⟨R_TTB_COUNT, [(0x1000, 16)], false, [⟨8, 0, .rws⟩], 0x1⟩,
  ⟨R_TTB_ANCHOR, [(0x1000, 16)], true, [⟨63, 6, .rws⟩], 0x0⟩,
  ⟨R_TTB_CYCLE, [(0x1000, 16)], false, [], 0x1⟩,
  ⟨R_TTB_BOOKED, [(0x1000, 16)], true, [], 0x0⟩,
  ⟨R_TTB_SLOT, [(0x1000, 16), (0x4, 256)], false, [⟨29, 24, .rws⟩, ⟨23, 23, .rws⟩, ⟨11, 0, .rws⟩], 0x800000⟩,
  ⟨R_ARB_SEL, [], false, [⟨8, 0, .rw⟩], 0x0⟩,
  ⟨R_ARB_CTRL, [], false, [⟨9, 0, .rws⟩], 0x2⟩]

def regRows3 : List RegRow := [
  ⟨R_ARB_COMMIT, [], false, [⟨31, 1, .wo⟩, ⟨0, 0, .wo⟩], 0x0⟩,
  ⟨R_ARB_STATUS, [], false, [⟨31, 31, .w1c⟩], 0x0⟩,
  ⟨R_ARB_BOUND, [], false, [], 0x0⟩,
  ⟨R_ARB_DEAD, [], false, [⟨31, 0, .rc⟩], 0x0⟩,
  ⟨R_ARB_FORCED, [], false, [⟨31, 0, .rc⟩], 0x0⟩,
  ⟨R_ARB_SLOT, [(0x4, 64)], false, [⟨31, 31, .rws⟩, ⟨4, 0, .rws⟩], 0x0⟩,
  ⟨R_ARB_PRIO, [(0x4, 18)], false, [⟨3, 0, .rws⟩], 0x0⟩,
  ⟨R_ARB_WAIT, [(0x4, 768)], false, [], 0x0⟩,
  ⟨R_LNK_GLOBAL, [], false, [⟨31, 16, .rw⟩, ⟨15, 0, .rw⟩], 0x88B5C15C⟩,
  ⟨R_LNK_TIME, [], false, [⟨23, 16, .rw⟩], 0x0⟩,
  ⟨R_LNK_TIME_OFFSET, [], false, [], 0x0⟩,
  ⟨R_LNK_SA_ADVANCE, [], false, [⟨31, 31, .wo⟩, ⟨30, 30, .wo⟩, ⟨29, 16, .wo⟩, ⟨15, 0, .wo⟩], 0x0⟩,
  ⟨R_LNK_SA_STATUS, [], false, [⟨30, 30, .w1c⟩], 0x0⟩,
  ⟨R_LNK_ROUTE_SEL, [], false, [⟨15, 0, .rw⟩], 0x0⟩,
  ⟨R_LNK_ROUTE, [], false, [], 0x0⟩,
  ⟨R_LNK_PEER_DELAY, [], false, [], 0x0⟩,
  ⟨R_LNK_MAC_BASE, [], true, [], 0x0⟩,
  ⟨R_LNK_PORT_CTRL, [(0x100, 4)], false, [⟨3, 3, .rw⟩, ⟨2, 1, .rw⟩, ⟨0, 0, .rw⟩], 0x0⟩,
  ⟨R_LNK_PORT_STATUS, [(0x100, 4)], false, [⟨30, 30, .w1c⟩], 0x0⟩,
  ⟨R_LNK_ASYM, [(0x100, 4)], false, [⟨31, 0, .rw⟩], 0x0⟩]

def regRows4 : List RegRow := [
  ⟨R_LNK_LASER_PWR, [(0x100, 4)], false, [], 0x0⟩,
  ⟨R_LNK_IF_CTRL, [(0x100, 4), (0x4, 8)], false, [⟨31, 20, .rw⟩, ⟨19, 17, .rw⟩, ⟨16, 16, .rw⟩, ⟨0, 0, .rw⟩], 0x0⟩,
  ⟨R_LNK_IP6_hi, [(0x80, 4), (0x10, 8)], true, [⟨63, 0, .rw⟩], 0x0⟩,
  ⟨R_LNK_IP6_lo, [(0x80, 4), (0x10, 8)], true, [⟨63, 0, .rw⟩], 0x0⟩,
  ⟨R_ROS_CTRL, [], false, [⟨31, 16, .rw⟩, ⟨4, 4, .rw⟩, ⟨3, 3, .rw⟩, ⟨1, 0, .rw⟩], 0x0⟩,
  ⟨R_ROS_STATUS, [], false, [], 0x0⟩,
  ⟨R_ROS_CMD, [], false, [⟨31, 1, .wo⟩, ⟨0, 0, .wo⟩], 0x0⟩,
  ⟨R_ROS_DISC, [], false, [], 0x0⟩,
  ⟨R_ROS_DEAD, [], false, [⟨15, 0, .rw⟩], 0x1F4⟩,
  ⟨R_ROS_LOST_CLEAR, [], false, [⟨31, 8, .wo⟩, ⟨7, 7, .wo⟩, ⟨6, 6, .wo⟩, ⟨5, 0, .wo⟩], 0x0⟩,
  ⟨R_ROS_PEER_SEL, [], false, [⟨19, 16, .rw⟩, ⟨15, 0, .rw⟩], 0x0⟩,
  ⟨R_ROS_PEER, [], false, [], 0xFFFF⟩,
  ⟨R_ROS_HO_ACTIVE, [], false, [], 0x0⟩,
  ⟨R_ROS_HO_TAKEN, [], false, [⟨31, 0, .rc⟩], 0x0⟩,
  ⟨R_ROS_HO_DISPUTED, [], false, [⟨31, 0, .rc⟩], 0x0⟩,
  ⟨R_ROS_HO_REFUSED, [], false, [⟨31, 0, .rc⟩], 0x0⟩,
  ⟨R_ROS_VSLOT, [(0x8, 16)], true, [], 0x0⟩,
  ⟨R_ROS_EPOCH, [(0x4, 16)], false, [], 0x0⟩,
  ⟨R_ROS_PART, [(0x4, 16)], false, [], 0x0⟩,
  ⟨R_ROS_LOST, [(0x8, 64)], true, [], 0x0⟩]

def regRows5 : List RegRow := [
  ⟨R_DEV_IDENT, [], false, [], 0x9040⟩,
  ⟨R_DEV_STEPPING, [], false, [], 0x4101⟩,
  ⟨R_DEV_SERIAL, [], true, [], 0x0⟩,
  ⟨R_DEV_CAP0, [], false, [], 0x30100C44⟩,
  ⟨R_DEV_CAP1, [], false, [], 0x4010⟩,
  ⟨R_DEV_STATE, [], false, [], 0x0⟩,
  ⟨R_DEV_MODE, [], false, [⟨31, 31, .w1c⟩, ⟨1, 0, .rw⟩], 0x0⟩,
  ⟨R_DEV_BEAT, [], true, [], 0x0⟩,
  ⟨R_DEV_CORE_MAP, [(0x8, 16)], true, [], 0x0⟩,
  ⟨R_HST_LINK_STATUS, [], false, [], 0x0⟩,
  ⟨R_HST_LINK_CTRL, [], false, [⟨1, 1, .rw⟩, ⟨0, 0, .wo⟩], 0x0⟩,
  ⟨R_HST_IRQ_MOD, [], false, [⟨15, 0, .rw⟩], 0x4⟩,
  ⟨R_HST_HOST_RATE, [], false, [], 0x0⟩,
  ⟨R_HST_INST_CMD, [], false, [⟨31, 31, .wo⟩, ⟨30, 28, .wo⟩, ⟨27, 6, .wo⟩, ⟨5, 0, .wo⟩], 0x0⟩,
  ⟨R_HST_INST_STATUS, [], false, [⟨30, 30, .w1c⟩, ⟨29, 29, .w1c⟩], 0x0⟩,
  ⟨R_HST_INST, [(0x8, 64)], true, [⟨63, 63, .rw⟩, ⟨35, 16, .rw⟩, ⟨15, 0, .rw⟩], 0x0⟩,
  ⟨R_HST_INST_DRAIN, [(0x4, 64)], false, [], 0x0⟩,
  ⟨R_HST_BERTH, [(0x4, 48)], false, [⟨31, 31, .rw⟩, ⟨6, 6, .rw⟩, ⟨5, 0, .rw⟩], 0x0⟩,
  ⟨R_PWR_CTRL, [], false, [⟨0, 0, .rw⟩], 0x1⟩,
  ⟨R_PWR_COMMIT, [], false, [⟨31, 1, .wo⟩, ⟨0, 0, .wo⟩], 0x0⟩]

def regRows6 : List RegRow := [
  ⟨R_PWR_STATUS, [], false, [⟨27, 27, .w1c⟩, ⟨26, 26, .w1c⟩], 0x0⟩,
  ⟨R_PWR_RACK, [], false, [⟨31, 16, .rw⟩, ⟨15, 0, .rw⟩], 0x2710⟩,
  ⟨R_PWR_GRANT, [], true, [], 0x0⟩,
  ⟨R_PWR_LOANS, [], false, [], 0x0⟩,
  ⟨R_PWR_SHIFT, [], false, [⟨31, 16, .rw⟩, ⟨15, 0, .rw⟩], 0x8000064⟩,
  ⟨R_PWR_DROOP, [], false, [⟨23, 16, .rws⟩, ⟨15, 8, .rws⟩, ⟨7, 0, .rws⟩], 0x10C006⟩,
  ⟨R_PWR_POWER, [], false, [], 0x0⟩,
  ⟨R_PWR_TEMP, [], false, [], 0x0⟩,
  ⟨R_PWR_ENERGY_DEVICE, [], true, [], 0x0⟩,
  ⟨R_PWR_ENERGY_UNATTR, [], true, [], 0x0⟩,
  ⟨R_PWR_DIE, [(0x4, 2)], false, [⟨31, 31, .rws⟩, ⟨15, 0, .rws⟩], 0x578⟩,
  ⟨R_PWR_DROOP_CNT, [(0x4, 2)], false, [⟨31, 0, .rc⟩], 0x0⟩,
  ⟨R_PWR_PART, [(0x10, 16)], false, [⟨20, 16, .rws⟩, ⟨15, 0, .rws⟩], 0x9C4⟩,
  ⟨R_PWR_BOOTH, [(0x10, 16)], false, [⟨31, 24, .rws⟩, ⟨23, 0, .rws⟩], 0x1010000⟩,
  ⟨R_PWR_RESERVE, [(0x10, 16)], false, [⟨31, 24, .rws⟩, ⟨23, 0, .rws⟩], 0x4000⟩,
  ⟨R_PWR_RSV_SHORT, [(0x10, 16)], false, [⟨31, 0, .rc⟩], 0x0⟩,
  ⟨R_PWR_TAG, [(0x8, 64)], true, [], 0x0⟩,
  ⟨R_PWR_BERTH_ENERGY, [(0x8, 48)], true, [], 0x0⟩,
  ⟨R_KEY_CMD, [], false, [⟨31, 31, .wo⟩, ⟨27, 24, .rw⟩, ⟨15, 0, .rw⟩], 0x0⟩,
  ⟨R_KEY_STATUS, [], false, [⟨30, 30, .w1c⟩], 0x0⟩]

def regRows7 : List RegRow := [
  ⟨R_KEY_ARG0, [], true, [⟨63, 0, .rw⟩], 0x0⟩,
  ⟨R_KEY_ARG1, [], true, [⟨63, 0, .rw⟩], 0x0⟩,
  ⟨R_KEY_ARG2, [], true, [⟨63, 0, .rw⟩], 0x0⟩,
  ⟨R_KEY_TENANT, [], true, [], 0x0⟩,
  ⟨R_KEY_DEBUG, [], false, [⟨31, 31, .wo⟩, ⟨29, 29, .w1c⟩], 0x0⟩,
  ⟨R_KEY_START_COUNT, [], false, [], 0x0⟩,
  ⟨R_KEY_THAW, [], false, [⟨31, 31, .wo⟩, ⟨30, 28, .wo⟩, ⟨27, 16, .wo⟩, ⟨15, 0, .wo⟩], 0x0⟩,
  ⟨R_KEY_VIOLATIONS, [], false, [⟨31, 0, .rc⟩], 0x0⟩,
  ⟨R_KEY_LINK_SEL, [], false, [⟨15, 0, .rw⟩], 0x0⟩,
  ⟨R_KEY_LINK, [], false, [], 0x0⟩,
  ⟨R_KEY_FROZEN, [(0x4, 16)], false, [], 0x0⟩,
  ⟨R_FLT_CTRL, [], false, [⟨1, 1, .rw⟩, ⟨0, 0, .rw⟩], 0x3⟩,
  ⟨R_FLT_STATUS, [], false, [⟨30, 30, .w1c⟩], 0x0⟩,
  ⟨R_FLT_RING, [], true, [⟨51, 12, .rw⟩, ⟨3, 0, .rw⟩], 0x0⟩,
  ⟨R_FLT_PRODUCED, [], true, [], 0x0⟩,
  ⟨R_FLT_RESET, [], false, [⟨31, 31, .wo⟩, ⟨30, 16, .wo⟩, ⟨15, 0, .wo⟩], 0x0⟩,
  ⟨R_FLT_OVF_CLEAR, [], false, [⟨31, 16, .wo⟩, ⟨15, 0, .wo⟩], 0x0⟩,
  ⟨R_FLT_OVF_COUNT, [(0x4, 16)], false, [], 0x0⟩,
  ⟨R_FLT_OVF_FIRST, [(0x8, 16)], true, [], 0x0⟩,
  ⟨R_FLT_OVF_LAST, [(0x8, 16)], true, [], 0x0⟩]

def regRows8 : List RegRow := [
  ⟨R_FLT_PROGRESS, [(0x4, 16)], false, [], 0x0⟩,
  ⟨R_FLT_LAST_RETIRE, [(0x8, 16)], true, [], 0x0⟩,
  ⟨R_FLT_RESET_STATUS, [(0x4, 16)], false, [], 0x0⟩,
  ⟨R_FLT_RESET_BEAT, [(0x8, 16)], true, [], 0x0⟩,
  ⟨R_FLT_SALV, [(0x8, 16)], true, [], 0x0⟩,
  ⟨R_FER_REQ_ADDR, [], true, [⟨51, 8, .rw⟩], 0x0⟩,
  ⟨R_FER_REQ, [], false, [⟨31, 31, .wo⟩, ⟨30, 0, .wo⟩], 0x0⟩,
  ⟨R_FER_ACCEPT, [], false, [⟨30, 30, .w1c⟩], 0x0⟩,
  ⟨R_FER_STATUS, [], false, [], 0x0⟩,
  ⟨R_FER_HEARTBEAT, [], false, [], 0x0⟩,
  ⟨R_FER_RESTART, [], false, [⟨31, 31, .wo⟩, ⟨30, 0, .wo⟩], 0x0⟩,
  ⟨R_FER_LOAD, [], false, [], 0x0⟩,
  ⟨R_LNK_FEC_CW, [(0x100, 4)], false, [⟨31, 0, .rc⟩], 0x0⟩,
  ⟨R_LNK_FEC_UCW, [(0x100, 4)], false, [⟨31, 0, .rc⟩], 0x0⟩,
  ⟨R_LNK_RX_DROP, [(0x100, 4)], false, [⟨31, 0, .rc⟩], 0x0⟩,
  ⟨R_LNK_AUTH_FAIL, [(0x100, 4)], false, [⟨31, 0, .rc⟩], 0x0⟩,
  ⟨R_LNK_OLDAN_DROP, [(0x100, 4)], false, [⟨31, 0, .rc⟩], 0x0⟩,
  ⟨R_KEY_MEAS, [(0x20, 8), (0x8, 4)], true, [], 0x0⟩]

/-- Every register of the window. -/
def regRows : List RegRow :=
  regRows0 ++ regRows1 ++ regRows2 ++ regRows3 ++ regRows4 ++ regRows5 ++ regRows6 ++ regRows7 ++ regRows8

/-- Registers with a reset value other than zero: base, index strides and counts, value. -/
def resetWords : List (Nat × List (Nat × Nat) × Nat) := [
  (R_MEM_CTRL, [], 0x3),
  (R_MEM_CE_THRESH, [], 0x100),
  (R_MEM_SCRUB_CS, [], 0xD1B),
  (R_MEM_SCRUB_DR, [], 0xA70),
  (R_MEM_INJ_CTRL, [], 0x1010000),
  (R_MEM_RSV_BACKING, [], 0x10767800000),
  (R_MEM_RSV_SALVAGE_A, [], 0x10F67800000),
  (R_MEM_RSV_SALVAGE_B, [], 0x17767800000),
  (R_MEM_RSV_FERRY, [], 0x17F6F800000),
  (R_XLT_CTRL, [], 0x3),
  (R_SUB_CTRL, [], 0x3),
  (R_SUB_ADM_ALLOW, [], 0x40),
  (R_TTB_COUNT, [(0x1000, 16)], 0x1),
  (R_TTB_CYCLE, [(0x1000, 16)], 0x1),
  (R_TTB_SLOT, [(0x1000, 16), (0x4, 256)], 0x800000),
  (R_LNK_GLOBAL, [], 0x88B5C15C),
  (R_ROS_DEAD, [], 0x1F4),
  (R_ROS_PEER, [], 0xFFFF),
  (R_DEV_IDENT, [], 0x9040),
  (R_DEV_STEPPING, [], 0x4101),
  (R_DEV_CAP0, [], 0x30100C44),
  (R_DEV_CAP1, [], 0x4010),
  (R_HST_IRQ_MOD, [], 0x4),
  (R_PWR_CTRL, [], 0x1),
  (R_PWR_RACK, [], 0x2710),
  (R_PWR_SHIFT, [], 0x8000064),
  (R_PWR_DROOP, [], 0x10C006),
  (R_PWR_DIE, [(0x4, 2)], 0x578),
  (R_PWR_PART, [(0x10, 16)], 0x9C4),
  (R_PWR_BOOTH, [(0x10, 16)], 0x1010000),
  (R_PWR_RESERVE, [(0x10, 16)], 0x4000),
  (R_FLT_CTRL, [], 0x3)]

/-- Whether an offset is an element of an array with these strides and counts. -/
def inDims : List (Nat × Nat) → Nat → Bool
  | [], d => d == 0
  | [(st, c)], d => d % st == 0 && decide (d / st < c)
  | (st, c) :: t, d => decide (d / st < c) && inDims t (d % st)

/-- The register row an aligned offset belongs to. -/
def findReg (off : Nat) : Option RegRow :=
  regRows.find? (fun r => decide (r.base ≤ off) && inDims r.dims (off - r.base))

/-- The data-range length of partition `c` in MiB and the kind of its reserved region (R243, R266). -/
def dataMib (c : Nat) : Nat := if c = 0 ∨ c = 1 ∨ c = 14 then 30328 else if c = 15 then 30456 else 30840
def rsvKind (c : Nat) : Nat := if c = 0 then 1 else if c = 1 then 2 else if c = 14 then 3 else if c = 15 then 4 else 0

/-- The reset value of the register at an offset. MEM_PART is as R243 gives; HST_INST[0] reads VALID, Running and
PARTS 0xFFFF in the unshared mode of power-on (R449). Values that the configuration record or the identity flash supply
are zero until a start has read them. DESIGN CHOICE (log entry 6, unsafe). -/
def regReset (off : Nat) : Word :=
  if R_MEM_PART ≤ off ∧ off < R_MEM_PART + 64 ∧ off % 4 = 0 then
    BitVec.ofNat 64 (rsvKind ((off - R_MEM_PART) / 4) * 2 ^ 28 + dataMib ((off - R_MEM_PART) / 4))
  else if off = R_HST_INST then 0x900000000000FFFF
  else match resetWords.find? (fun r => decide (r.1 ≤ off) && inDims r.2.1 (off - r.1)) with
    | some r => BitVec.ofNat 64 r.2.2
    | none => 0

end Sys2Proof.Machine
end

