-- ==== Sys2Proof/Machine/Float.lean ====
section
/-! DEFINITION. Number formats, rounding and FP32/BF16/FP16 arithmetic, exact and rounded once (R106, R107, R177 to R182). -/

namespace Sys2Proof.Machine

/-- The exact value of a floating-point encoding (R178): NaN, an infinity, or (−1)^neg · m · 2^e. -/
inductive FpVal where
  | nan
  | inf (neg : Bool)
  | fin (neg : Bool) (m : Nat) (e : Int)
  deriving DecidableEq, Repr

/-- The five sticky flags of R182, bit 0 IV, 1 DZ, 2 OF, 3 UF, 4 NX. -/
abbrev FpFlags := BitVec 5

def flagIV : FpFlags := 1
def flagDZ : FpFlags := 2
def flagOF : FpFlags := 4
def flagUF : FpFlags := 8
def flagNX : FpFlags := 16

/-- Exponent width, mantissa width, bias and the magnitude bits of the largest finite value (R177). -/
structure FpFmt where
  ebits : Nat
  mbits : Nat
  bias : Nat
  maxMag : Nat
  hasInf : Bool
  deriving DecidableEq, Repr

def fp32 : FpFmt := ⟨8, 23, 127, 0x7F7FFFFF, true⟩
def fp16 : FpFmt := ⟨5, 10, 15, 0x7BFF, true⟩
def bf16 : FpFmt := ⟨8, 7, 127, 0x7F7F, true⟩
def e5m2 : FpFmt := ⟨5, 2, 15, 0x7B, true⟩
def e4m3 : FpFmt := ⟨4, 3, 7, 0x7E, false⟩
def e3m2 : FpFmt := ⟨3, 2, 3, 0x1F, false⟩
def e2m3 : FpFmt := ⟨2, 3, 1, 0x1F, false⟩
def e2m1 : FpFmt := ⟨2, 1, 1, 0x07, false⟩

/-- Total width of a format in bits. -/
def FpFmt.width (f : FpFmt) : Nat := 1 + f.ebits + f.mbits

/-- The exponent of the format's finest step, 1 − bias − mbits. -/
def FpFmt.qmin (f : FpFmt) : Int := 1 - (f.bias : Int) - f.mbits

/-- The encoding of +infinity where the format has one. -/
def FpFmt.infBits (f : FpFmt) : Nat := (2 ^ f.ebits - 1) * 2 ^ f.mbits

/-- The canonical quiet NaN (R107). -/
def FpFmt.nanBits (f : FpFmt) : Nat := f.infBits + 2 ^ (f.mbits - 1)

/-- The meaning of an encoding (R177, R178). E4M3's one NaN magnitude is 0x7F; the MXFP6 and MXFP4 formats have none. -/
def fpDecode (f : FpFmt) (x : Nat) : FpVal :=
  let neg := x.testBit (f.ebits + f.mbits)
  let mag := x % 2 ^ (f.ebits + f.mbits)
  if mag > f.maxMag then
    if f.hasInf && mag == f.infBits then .inf neg else .nan
  else
    let e := mag / 2 ^ f.mbits
    let m := mag % 2 ^ f.mbits
    if e = 0 then .fin neg m f.qmin
    else .fin neg (2 ^ f.mbits + m) (f.qmin + (e : Int) - 1)

/-- `m / 2^k` rounded to nearest, ties to even, and whether that changed the value (R180). -/
def rneShift (m k : Nat) : Nat × Bool :=
  let q := m / 2 ^ k
  let r := m % 2 ^ k
  let up := decide (2 * r > 2 ^ k) || (decide (2 * r = 2 ^ k) && q % 2 == 1)
  (if up then q + 1 else q, r != 0)

/-- `m · 2^e` rounded to the nearest integer, ties to even (R187's rint), with inexactness. -/
def rintMag (m : Nat) (e : Int) : Nat × Bool :=
  if 0 ≤ e then (m * 2 ^ e.toNat, false) else rneShift m (-e).toNat

/-- The outcome of rounding a nonzero magnitude into a format under R180: magnitude bits with the exponent range open
above, whether the value changed, and whether the exact value was tiny (R182). -/
def roundMag (f : FpFmt) (m : Nat) (e : Int) : Nat × Bool × Bool :=
  if m = 0 then (0, false, false) else
  let top : Int := (Nat.log2 m : Int) + e
  let q : Int := max (top - f.mbits) f.qmin
  let r := rintMag m (e - q)
  ((q - f.qmin).toNat * 2 ^ f.mbits + r.1, r.2, decide (top < 1 - (f.bias : Int)))

/-- The flags of one rounding (R182). -/
def roundFlags (ovf inexact tiny : Bool) : FpFlags :=
  (if ovf then flagOF else 0) ||| (if inexact || ovf then flagNX else 0) |||
  (if tiny && inexact then flagUF else 0)

/-- Round an exact value to an encoding under R107: overflow becomes an infinity, NaN the canonical quiet NaN.
DEDUCED (log entry 29, unsafe). -/
def fpRound (f : FpFmt) : FpVal → Nat × FpFlags
  | .nan => (f.nanBits, 0)
  | .inf neg => ((if neg then 2 ^ (f.ebits + f.mbits) else 0) + f.infBits, 0)
  | .fin neg m e =>
    let s := if neg then 2 ^ (f.ebits + f.mbits) else 0
    let r := roundMag f m e
    let ovf := decide (r.1 > f.maxMag)
    (s + (if ovf then f.infBits else r.1), roundFlags ovf r.2.1 r.2.2)

/-- Round a finite value to an element format, saturating to its largest finite magnitude (R131, R180). -/
def fpRoundSat (f : FpFmt) (neg : Bool) (m : Nat) (e : Int) : Nat × FpFlags :=
  let s := if neg then 2 ^ (f.ebits + f.mbits) else 0
  let r := roundMag f m e
  let ovf := decide (r.1 > f.maxMag)
  (s + (if ovf then f.maxMag else r.1), roundFlags ovf r.2.1 r.2.2)

def FpVal.isNan : FpVal → Bool
  | .nan => true
  | _ => false

def FpVal.isInf : FpVal → Bool
  | .inf _ => true
  | _ => false

def FpVal.isZero : FpVal → Bool
  | .fin _ 0 _ => true
  | _ => false

def FpVal.isFinite : FpVal → Bool
  | .fin _ _ _ => true
  | _ => false

def FpVal.sign : FpVal → Bool
  | .nan => false
  | .inf n => n
  | .fin n _ _ => n

/-- Negation: the sign bit only. -/
def FpVal.neg : FpVal → FpVal
  | .nan => .nan
  | .inf n => .inf (!n)
  | .fin n m e => .fin (!n) m e

def FpVal.abs : FpVal → FpVal
  | .nan => .nan
  | .inf _ => .inf false
  | .fin _ m e => .fin false m e

/-- Exact product; infinity times zero is NaN; the sign is the exclusive OR (R107). -/
def FpVal.mul : FpVal → FpVal → FpVal
  | .nan, _ => .nan
  | _, .nan => .nan
  | .inf a, .inf b => .inf (a != b)
  | .inf a, .fin b m _ => if m = 0 then .nan else .inf (a != b)
  | .fin a m _, .inf b => if m = 0 then .nan else .inf (a != b)
  | .fin a m e, .fin b n g => .fin (a != b) (m * n) (e + g)

/-- The signed magnitude of a finite value at exponent `q ≤ e`. -/
def signedAt (neg : Bool) (m : Nat) (e q : Int) : Int :=
  let x : Int := (m : Int) * 2 ^ (e - q).toNat
  if neg then -x else x

/-- Exact sum; opposite infinities are NaN; an exact zero sum of operands of opposite sign is +0 (R107). -/
def FpVal.add : FpVal → FpVal → FpVal
  | .nan, _ => .nan
  | _, .nan => .nan
  | .inf a, .inf b => if a = b then .inf a else .nan
  | .inf a, .fin _ _ _ => .inf a
  | .fin _ _ _, .inf b => .inf b
  | .fin a m e, .fin b n g =>
    let q := min e g
    let s := signedAt a m e q + signedAt b n g q
    if s = 0 then .fin (a && b) 0 q else .fin (decide (s < 0)) s.natAbs q

/-- Comparison of two values that are not NaN: the sign of x − y. -/
def FpVal.cmp : FpVal → FpVal → Ordering
  | .inf true, .inf true => .eq
  | .inf false, .inf false => .eq
  | .inf a, _ => if a then .lt else .gt
  | _, .inf b => if b then .gt else .lt
  | .nan, _ => .eq
  | _, .nan => .eq
  | .fin a m e, .fin b n g =>
    let q := min e g
    compare (signedAt a m e q) (signedAt b n g q)

/-- IEEE 754-2019 minimum: NaN if either is, −0 below +0 (R107). -/
def FpVal.minimum (x y : FpVal) : FpVal :=
  if x.isNan || y.isNan then .nan else
  match FpVal.cmp x y with
  | .lt => x
  | .gt => y
  | .eq => if x.sign then x else y

/-- IEEE 754-2019 maximum. -/
def FpVal.maximum (x y : FpVal) : FpVal :=
  if x.isNan || y.isNan then .nan else
  match FpVal.cmp x y with
  | .lt => y
  | .gt => x
  | .eq => if x.sign then y else x

/-- Flags of an operation: IV when a NaN comes from operands none of which is NaN (R182). -/
def ivFlag (operandNan : Bool) (r : FpVal) : FpFlags := if r.isNan && !operandNan then flagIV else 0

/-- Round the exact result `r` of operands among which a NaN stood or not. -/
def fpFinish (f : FpFmt) (operandNan : Bool) (r : FpVal) : Nat × FpFlags :=
  let x := fpRound f r
  (x.1, x.2 ||| ivFlag operandNan r)

def fpAdd (f : FpFmt) (x y : Nat) : Nat × FpFlags :=
  let a := fpDecode f x
  let b := fpDecode f y
  fpFinish f (a.isNan || b.isNan) (a.add b)

def fpSub (f : FpFmt) (x y : Nat) : Nat × FpFlags :=
  let a := fpDecode f x
  let b := fpDecode f y
  fpFinish f (a.isNan || b.isNan) (a.add b.neg)

def fpMul (f : FpFmt) (x y : Nat) : Nat × FpFlags :=
  let a := fpDecode f x
  let b := fpDecode f y
  fpFinish f (a.isNan || b.isNan) (a.mul b)

/-- x × y + z rounded once; with `negProduct`, −(x × y) + z (R124). -/
def fpFma (f : FpFmt) (negProduct : Bool) (x y z : Nat) : Nat × FpFlags :=
  let a := fpDecode f x
  let b := fpDecode f y
  let c := fpDecode f z
  let p := a.mul b
  let p := if negProduct then p.neg else p
  fpFinish f (a.isNan || b.isNan || c.isNan) (p.add c)

def fpMin (f : FpFmt) (x y : Nat) : Nat × FpFlags := fpRound f ((fpDecode f x).minimum (fpDecode f y))
def fpMax (f : FpFmt) (x y : Nat) : Nat × FpFlags := fpRound f ((fpDecode f x).maximum (fpDecode f y))

/-- x·y − u·v, or x·y + u·v, exact and rounded once (R125). -/
def fpTwoProducts (f : FpFmt) (minus : Bool) (x y u v : Nat) : Nat × FpFlags :=
  let a := fpDecode f x
  let b := fpDecode f y
  let c := fpDecode f u
  let d := fpDecode f v
  let q := c.mul d
  let q := if minus then q.neg else q
  fpFinish f (a.isNan || b.isNan || c.isNan || d.isNan) ((a.mul b).add q)

def fpEq (f : FpFmt) (x y : Nat) : Bool :=
  let a := fpDecode f x
  let b := fpDecode f y
  !a.isNan && !b.isNan && FpVal.cmp a b == .eq

def fpLt (f : FpFmt) (x y : Nat) : Bool :=
  let a := fpDecode f x
  let b := fpDecode f y
  !a.isNan && !b.isNan && FpVal.cmp a b == .lt

def fpLe (f : FpFmt) (x y : Nat) : Bool := fpEq f x y || fpLt f x y

/-- Widening or narrowing between formats, rounded under R107 (R130). -/
def fpConvert (src dst : FpFmt) (x : Nat) : Nat × FpFlags := fpRound dst (fpDecode src x)

/-- A finite value rounded to an integer, to nearest even or toward zero, with inexactness. -/
def toInteger (toZero neg : Bool) (m : Nat) (e : Int) : Int × Bool :=
  let r : Nat × Bool :=
    if toZero then
      if 0 ≤ e then (m * 2 ^ e.toNat, false) else (m / 2 ^ (-e).toNat, m % 2 ^ (-e).toNat != 0)
    else rintMag m e
  (if neg then -(r.1 : Int) else (r.1 : Int), r.2)

/-- Saturating conversion to INT32; NaN gives 0 (R117, R130). A value beyond the range raises IV, and, as the overflow of a rounding,
OF and NX too; an in-range inexact one raises NX (R180, R182). The rounding of VF2IZ, toward zero, is taken as a rounding under R180.
DESIGN CHOICE (log entry 114, unsafe). -/
def toInt32 (toZero : Bool) : FpVal → BitVec 32 × FpFlags
  | .nan => (0, flagIV)
  | .inf neg => (if neg then 0x80000000 else 0x7FFFFFFF, flagIV)
  | .fin neg m e =>
    let r := toInteger toZero neg m e
    if r.1 > 2147483647 then (0x7FFFFFFF, flagIV ||| flagOF ||| flagNX)
    else if r.1 < -2147483648 then (0x80000000, flagIV ||| flagOF ||| flagNX)
    else (BitVec.ofInt 32 r.1, if r.2 then flagNX else 0)

/-- FP32 of a signed integer (R130). -/
def ofInt32 (x : BitVec 32) : Nat × FpFlags :=
  fpRound fp32 (.fin (decide (x.toInt < 0)) x.toInt.natAbs 0)

/-- rne: the rounding of an exact value to FP32 (R180), value only. -/
def rne (v : FpVal) : Nat := (fpRound fp32 v).1

/-- FP32 operations without flags, as the algorithms of R196 to R202 use them. -/
def add32 (x y : Nat) : Nat := (fpAdd fp32 x y).1
def sub32 (x y : Nat) : Nat := (fpSub fp32 x y).1
def mul32 (x y : Nat) : Nat := (fpMul fp32 x y).1
def fma32 (x y z : Nat) : Nat := (fpFma fp32 false x y z).1
def neg32 (x : Nat) : Nat := x ^^^ 0x80000000

end Sys2Proof.Machine
end

