-- ==== Sys2Proof/Machine/Sfu.lean ====
section
/-! DEFINITION. The special-function algorithms, their tables and fixed cases (R134, R194 to R203). -/

namespace Sys2Proof.Machine

/-- The largest number below 2^n that meets `ok`, taking bits from the top (`ok` holds downwards). -/
def largestBelow (ok : Nat → Bool) : Nat → Nat → Nat
  | 0, acc => acc
  | n + 1, acc => largestBelow ok n (if ok (acc + 2 ^ n) then acc + 2 ^ n else acc)

/-- rne of a positive rational (R194: no entry falls on a tie). -/
def rneRatio (num den : Nat) : Nat :=
  rne (.fin false (2 * (num * 2 ^ 60 / den) + (if num * 2 ^ 60 % den = 0 then 0 else 1)) (-61))

/-- T[j] = 2^(j/64), j = 0 to 63 (R194): the 64th root is taken exactly, then rounded once. -/
def tabT (j : Nat) : Nat :=
  rne (.fin false (2 * largestBelow (fun m => decide (m ^ 64 ≤ 2 ^ (24 * 64 + j))) 25 0 +
    (if j = 0 then 0 else 1)) (-25))

/-- RC[j] = 64 / (64 + j), j = −16 to 32 (R194). -/
def tabRC (j : Int) : Nat := rneRatio 64 (64 + j).toNat

/-- Q[j] = 256 / (257 + 2j), j = 0 to 127 (R194). -/
def tabQ (j : Nat) : Nat := rneRatio 256 (257 + 2 * j)

/-- S[j] = 8 / √(65 + 2j), j = 0 to 95 (R194); never a binary fraction, so a sticky one is appended. -/
def tabS (j : Nat) : Nat :=
  rne (.fin false (2 * largestBelow (fun m => decide (m * m * (65 + 2 * j) ≤ 64 * 2 ^ 50)) 26 0 + 1) (-26))

/-- The entries of LG, log2(1 + j/64) for j = −16 to 32, rounded once (R194). -/
def tabLGEntries : List Nat :=
  [0xBED47FCC, 0xBEC544C0, 0xBEB6587B, 0xBEA7B7DE, 0xBE995FF7, 0xBE8B4E03, 0xBE7AFEC5] ++
  [0xBE5FE33D, 0xBE4544C0, 0xBE2B1EE1, 0xBE116D6E, 0xBDF058D7, 0xBDBEB025, 0xBD8DD995] ++
  [0xBD3B9CA6, 0xBCBA1F74, 0x00000000, 0x3CB73CB4, 0x3D35D69C, 0x3D8759C5, 0x3DB31FB8] ++
  [0x3DDE4212, 0x3E0462C4, 0x3E19574F, 0x3E2E00D2, 0x3E42615F, 0x3E567AF1, 0x3E6A4F72] ++
  [0x3E7DE0B6, 0x3E88983F, 0x3E92203D, 0x3E9B8926, 0x3EA4D3C2, 0x3EAE00D2, 0x3EB7110E] ++
  [0x3EC0052B, 0x3EC8DDD4, 0x3ED19BB0, 0x3EDA3F60, 0x3EE2C97D, 0x3EEB3A9F, 0x3EF39355] ++
  [0x3EFBD42B, 0x3F01FED4, 0x3F060828, 0x3F0A0650, 0x3F0DF989, 0x3F11E20F, 0x3F15C01A]

def tabLG (j : Int) : Nat := tabLGEntries.getD (j + 16).toNat 0

/-! The coefficients of R195, by name. -/
def coE1 : Nat := 0x3F317218
def coT3 : Nat := 0xBEAAAAAB
def coE2 : Nat := 0x3E75FDF0
def coT5 : Nat := 0x3E088889
def coE3 : Nat := 0x3D635847
def coT7 : Nat := 0xBD5D0DD1
def coG1 : Nat := 0x3FB8AA3B
def coT9 : Nat := 0x3CB327A4
def coG2 : Nat := 0xBF38AA3B
def coS3 : Nat := 0xBE2AAAAB
def coG3 : Nat := 0x3EF6384F
def coS5 : Nat := 0x3C088889
def coG4 : Nat := 0xBEB8AA3B
def coS7 : Nat := 0xB9500D01
def coL : Nat := 0x3FB8AA3B
def coS9 : Nat := 0x3638EF1D
def coLL : Nat := 0x4038AA3B
def coC2 : Nat := 0xBF000000
def coC4 : Nat := 0x3D2AAAAB
def coC6 : Nat := 0xBAB60B61
def coC8 : Nat := 0x37D00D01
def coC10 : Nat := 0xB493F27E
def one32 : Nat := 0x3F800000
def half32 : Nat := 0x3F000000

/-- π/2 to 600 fractional bits (R202 asks for at least 400 significant bits). -/
def piOver2 : Nat :=
  0x1921fb54442d18469898cc51701b839a252049c1114cf98e804177d4c76273644a29410f31c6809bbdf2a33679a748636605614dbe4be286e9fc26adadaa3848bc90b6aecc4bcfd8de89885

/-- A result and the flags its fixed cases raise; the algorithms themselves raise none (R183). -/
abbrev SfuResult := Nat × FpFlags

/-- A finite nonzero FP32 value as sign, mantissa and exponent. -/
def finParts (x : Nat) : Bool × Nat × Int :=
  match fpDecode fp32 x with
  | .fin n m e => (n, m, e)
  | _ => (false, 0, 0)

/-- EXP2 on operands its fixed cases do not cover (R196). -/
def exp2Core (x : Nat) : Nat :=
  let p := finParts x
  let n := (toInteger false p.1 p.2.1 (p.2.2 + 6)).1
  let j := (n % 64).toNat
  let q := (n - (n % 64)) / 64
  let f := rne ((fpDecode fp32 x).add (.fin (decide (n > 0)) n.natAbs (-6)))
  let h := fma32 f coE3 coE2
  let h := fma32 f h coE1
  let pp := mul32 f h
  let t := tabT j
  let y := fma32 t pp t
  match fpDecode fp32 y with
  | .fin s m e => rne (.fin s m (e + q))
  | v => rne v

/-- EXP2 (R134, R196). -/
def sfuExp2 (x : Nat) : SfuResult :=
  match fpDecode fp32 x with
  | .nan => (fp32.nanBits, 0)
  | .inf neg => (if neg then 0 else fp32.infBits, 0)
  | .fin neg m e =>
    if m = 0 then (one32, 0)
    else if FpVal.cmp (.fin neg m e) (.fin false 128 0) != .lt then (fp32.infBits, 0)
    else if FpVal.cmp (.fin neg m e) (.fin true 150 0) == .lt then (0, 0)
    else (exp2Core x, 0)

/-- Normalise a positive value m · 2^e to [1, 2): mantissa scaled by 2^(−k), and the exponent. -/
def normalise (m : Nat) (e : Int) : FpVal × Int :=
  (.fin false m (-(Nat.log2 m : Int)), (Nat.log2 m : Int) + e)

/-- LOG2 of a positive finite value (R197). -/
def log2Core (x : Nat) : Nat :=
  let p := finParts x
  let nm := normalise p.2.1 p.2.2
  let big := FpVal.cmp nm.1 (.fin false 3 (-1)) != .lt
  let m := if big then nm.1.mul (.fin false 1 (-1)) else nm.1
  let e : Int := if big then nm.2 + 1 else nm.2
  let d := m.add (.fin true 1 0)
  let j : Int := match d with
    | .fin s dm de => (toInteger false s dm (de + 6)).1
    | _ => 0
  let u := m.add (.fin true (64 + j).toNat (-6))
  let f := rne (u.mul (fpDecode fp32 (tabRC j)))
  let h := fma32 f coG4 coG3
  let h := fma32 f h coG2
  let h := fma32 f h coG1
  let pp := mul32 f h
  add32 (rne ((FpVal.fin (decide (e < 0)) e.natAbs 0).add (fpDecode fp32 (tabLG j)))) pp

/-- LOG2 (R134, R197). -/
def sfuLog2 (x : Nat) : SfuResult :=
  match fpDecode fp32 x with
  | .nan => (fp32.nanBits, 0)
  | .inf neg => if neg then (fp32.nanBits, flagIV) else (fp32.infBits, 0)
  | .fin neg m _ =>
    if m = 0 then (0x80000000 + fp32.infBits, flagDZ)
    else if neg then (fp32.nanBits, flagIV)
    else if x = one32 then (0, 0)
    else (log2Core x, 0)

/-- RCP of a nonzero finite value (R198). -/
def rcpCore (x : Nat) : Nat :=
  let p := finParts x
  let nm := normalise p.2.1 p.2.2
  let m := rne nm.1
  let j := match nm.1.add (.fin true 1 0) with
    | .fin s dm de => (toInteger true s dm (de + 7)).1.toNat
    | _ => 0
  let step (y : Nat) : Nat := fma32 y (fma32 (neg32 m) y one32) y
  match fpDecode fp32 (step (step (tabQ j))) with
  | .fin _ ym ye => rne (.fin p.1 ym (ye - nm.2))
  | v => rne v

/-- RCP (R134, R198). -/
def sfuRcp (x : Nat) : SfuResult :=
  match fpDecode fp32 x with
  | .nan => (fp32.nanBits, 0)
  | .inf neg => (if neg then 0x80000000 else 0, 0)
  | .fin neg m _ =>
    if m = 0 then ((if neg then 0x80000000 else 0) + fp32.infBits, flagDZ)
    else (rcpCore x, 0)

/-- RSQ of a positive finite value (R199). -/
def rsqCore (x : Nat) : Nat :=
  let p := finParts x
  let nm := normalise p.2.1 p.2.2
  let odd := nm.2 % 2 != 0
  let mv := if odd then nm.1.mul (.fin false 2 0) else nm.1
  let e : Int := if odd then nm.2 - 1 else nm.2
  let m := rne mv
  let j := match mv.add (.fin true 1 0) with
    | .fin s dm de => (toInteger true s dm (de + 5)).1.toNat
    | _ => 0
  let step (y : Nat) : Nat := fma32 (mul32 y half32) (fma32 (neg32 m) (mul32 y y) one32) y
  match fpDecode fp32 (step (step (step (tabS j)))) with
  | .fin s ym ye => rne (.fin s ym (ye - e / 2))
  | v => rne v

/-- RSQ (R134, R199). -/
def sfuRsq (x : Nat) : SfuResult :=
  match fpDecode fp32 x with
  | .nan => (fp32.nanBits, 0)
  | .inf neg => if neg then (fp32.nanBits, flagIV) else (0, 0)
  | .fin neg m _ =>
    if m = 0 then ((if neg then 0x80000000 else 0) + fp32.infBits, flagDZ)
    else if neg then (fp32.nanBits, flagIV)
    else (rsqCore x, 0)

/-- SIGM (R134, R200). -/
def sfuSigm (x : Nat) : SfuResult :=
  match fpDecode fp32 x with
  | .nan => (fp32.nanBits, 0)
  | .inf neg => (if neg then 0 else one32, 0)
  | .fin neg m _ =>
    if m = 0 then (half32, 0)
    else
      let z := mul32 x coL
      if neg then
        let g := (sfuExp2 z).1
        (mul32 g (sfuRcp (add32 one32 g)).1, 0)
      else ((sfuRcp (add32 one32 (sfuExp2 (neg32 z)).1)).1, 0)

/-- TANH (R134, R201). -/
def sfuTanh (x : Nat) : SfuResult :=
  match fpDecode fp32 x with
  | .nan => (fp32.nanBits, 0)
  | .inf neg => ((if neg then 0x80000000 else 0) + one32, 0)
  | .fin neg m e =>
    if m = 0 then (x, 0)
    else if FpVal.cmp (.fin false m e) (.fin false 1 (-2)) == .lt then
      let w := mul32 x x
      let h := fma32 w coT9 coT7
      let h := fma32 w h coT5
      let h := fma32 w h coT3
      (fma32 (mul32 x w) h x, 0)
    else
      let ax := x % 0x80000000
      let g := (sfuExp2 (neg32 (mul32 ax coLL))).1
      let v := mul32 (sub32 one32 g) (sfuRcp (add32 one32 g)).1
      (v % 0x80000000 + (if neg then 0x80000000 else 0), 0)

/-- The argument reduction of R202: k, the integer nearest to 2x/π, and r = rne(x − kπ/2). -/
def reducePiOver2 (x : Nat) : Int × Nat :=
  let p := finParts x
  let num := p.2.1 * 2 ^ (p.2.2 + 600).toNat
  let k := (2 * num + piOver2) / (2 * piOver2)
  let d : Int := (num : Int) - (k * piOver2 : Nat)
  let neg := if p.1 then decide (0 < d) else decide (d < 0)
  (if p.1 then -(k : Int) else k, if k = 0 then x else rne (.fin neg d.natAbs (-600)))

/-- The odd polynomial of R202. -/
def polySin (r : Nat) : Nat :=
  let w := mul32 r r
  let h := fma32 w coS9 coS7
  let h := fma32 w h coS5
  let h := fma32 w h coS3
  fma32 (mul32 r w) h r

/-- The even polynomial of R202. -/
def polyCos (r : Nat) : Nat :=
  let w := mul32 r r
  let h := fma32 w coC10 coC8
  let h := fma32 w h coC6
  let h := fma32 w h coC4
  let h := fma32 w h coC2
  fma32 w h one32

/-- SIN (R134, R202). -/
def sfuSin (x : Nat) : SfuResult :=
  match fpDecode fp32 x with
  | .nan => (fp32.nanBits, 0)
  | .inf _ => (fp32.nanBits, flagIV)
  | .fin _ m _ =>
    if m = 0 then (x, 0)
    else
      let kr := reducePiOver2 x
      let q := (kr.1 % 4).toNat
      (if q = 0 then polySin kr.2 else if q = 1 then polyCos kr.2
        else if q = 2 then neg32 (polySin kr.2) else neg32 (polyCos kr.2), 0)

/-- COS (R134, R202). -/
def sfuCos (x : Nat) : SfuResult :=
  match fpDecode fp32 x with
  | .nan => (fp32.nanBits, 0)
  | .inf _ => (fp32.nanBits, flagIV)
  | .fin _ m _ =>
    if m = 0 then (one32, 0)
    else
      let kr := reducePiOver2 x
      let q := (kr.1 % 4).toNat
      (if q = 0 then polyCos kr.2 else if q = 1 then neg32 (polySin kr.2)
        else if q = 2 then neg32 (polyCos kr.2) else polySin kr.2, 0)

end Sys2Proof.Machine
end

