-- ==== Sys2Proof/Machine/Acc.lean ====
section
/-! DEFINITION. Element formats of tiles, the long accumulator and its drain (R109, R110, R113 to R118, R177 to R190). -/

namespace Sys2Proof.Machine

/-- One accumulator element (R185). A zeroed element has `v = 0`, `u = true` and its records clear; its anchor is then
unused and held at 0. -/
structure AccElem where
  v : BitVec 192
  a : Int
  u : Bool
  nan : Bool
  pinf : Bool
  ninf : Bool
  deriving DecidableEq, Repr

/-- The zeroed element of R185. -/
def AccElem.zero : AccElem := ⟨0, 0, true, false, false, false⟩

/-! Formats by FMT code (R109). -/

/-- Bits per element. -/
def fmtBits (fmt : Nat) : Nat :=
  if fmt = 0 then 8 else if fmt = 1 then 4 else if fmt = 2 then 16 else if fmt = 3 then 16
  else if fmt = 4 then 8 else if fmt = 5 then 8 else if fmt = 6 then 6 else if fmt = 7 then 6
  else if fmt = 8 then 4 else if fmt = 9 then 8 else 32

/-- The MX formats, which are v2 (R109). -/
def fmtIsMx (fmt : Nat) : Bool := decide (4 ≤ fmt) && decide (fmt ≤ 9)
/-- The integer operand formats. -/
def fmtIsInt (fmt : Nat) : Bool := fmt == 0 || fmt == 1
/-- BF16 and FP16. -/
def fmtIsHalf (fmt : Nat) : Bool := fmt == 2 || fmt == 3
/-- The drain destinations. -/
def fmtIsDrain (fmt : Nat) : Bool := fmt == 2 || fmt == 3 || fmt == 10 || fmt == 11
/-- Whether COLS meets the rule R109 gives for the format. -/
def fmtColsOk (fmt cols : Nat) : Bool :=
  if fmtIsMx fmt then cols % 32 == 0 else if fmt = 1 then cols % 2 == 0 else true

/-- The floating-point format of a floating-point FMT code. -/
def fmtFp (fmt : Nat) : FpFmt :=
  if fmt = 2 then bf16 else if fmt = 3 then fp16 else if fmt = 4 then e4m3 else if fmt = 5 then e5m2
  else if fmt = 6 then e3m2 else if fmt = 7 then e2m3 else if fmt = 8 then e2m1 else fp32

/-- A two's-complement value of `w` bits. -/
def sintOf (x w : Nat) : Int := if x.testBit (w - 1) then (x : Int) - 2 ^ w else x

def finOfInt (i : Int) (e : Int) : FpVal := .fin (decide (i < 0)) i.natAbs e

/-- The exact value of one element, before any block scale (R178). -/
def elemVal (fmt x : Nat) : FpVal :=
  if fmt = 0 then finOfInt (sintOf x 8) 0
  else if fmt = 1 then finOfInt (sintOf x 4) 0
  else if fmt = 9 then finOfInt (sintOf x 8) (-6)
  else if fmt = 11 then finOfInt (sintOf x 32) 0
  else fpDecode (fmtFp fmt) x

/-- Element `j` of a packed row (R179). -/
def elemAt (fmt : Nat) (byteAt : Nat → Byte) (j : Nat) : Nat :=
  let w := fmtBits fmt
  if w = 4 then (byteAt (j / 2)).toNat / (if j % 2 = 0 then 1 else 16) % 16
  else if w = 6 then
    let g := j / 4
    let t := (byteAt (3 * g)).toNat + 256 * (byteAt (3 * g + 1)).toNat + 65536 * (byteAt (3 * g + 2)).toNat
    t / 2 ^ (6 * (j % 4)) % 64
  else leNat ((List.range (w / 8)).map (fun i => byteAt (w / 8 * j + i)))

/-- Pack a list of elements of `w` bits into bytes (R179): little-endian bit order serves 4, 6, 8, 16 and 32 bits. -/
def packElems (w : Nat) (xs : List Nat) : List Byte :=
  leBytes ((xs.length * w + 7) / 8) (xs.foldr (fun x acc => x % 2 ^ w + 2 ^ w * acc) 0)

/-! The accumulator (R185 to R189). -/

def AccElem.vmin : Int := -(2 ^ 191 : Nat)
def AccElem.vmax : Int := (2 ^ 191 : Nat) - 1

/-- rint of a signed dyadic (R187). -/
def rintSigned (i : Int) (e : Int) : Int :=
  let r := (rintMag i.natAbs e).1
  if i < 0 then -(r : Int) else r

/-- Re-anchoring (R187), with the record of R188 where A would pass 1,023. -/
def AccElem.reanchor (x : AccElem) (a : Int) : AccElem :=
  if a > 1023 then
    if x.v.toInt < 0 then { x with ninf := true } else { x with pinf := true }
  else { x with v := BitVec.ofInt 192 (rintSigned x.v.toInt (x.a - a)), a := a }

/-- Add the exact value (−1)^neg · m · 2^e, rounded to a multiple of 2^(A − 80) (R187); an add that would leave the
range of V re-anchors to A + 16 first (R188). -/
def AccElem.addVal (x : AccElem) (neg : Bool) (m : Nat) (e : Int) : AccElem :=
  let p (a : Int) : Int := rintSigned (if neg then -(m : Int) else m) (e + 80 - a)
  let s := x.v.toInt + p x.a
  if AccElem.vmin ≤ s ∧ s ≤ AccElem.vmax then { x with v := BitVec.ofInt 192 s }
  else if x.a + 16 > 1023 then
    if s < 0 then { x with ninf := true } else { x with pinf := true }
  else
    let y := x.reanchor (x.a + 16)
    { y with v := BitVec.ofInt 192 (y.v.toInt + p y.a) }

/-- One product enters the element: its record where it is not finite, nothing where the element stays unanchored,
otherwise an add (R187). -/
def AccElem.addProduct (x : AccElem) : FpVal → AccElem
  | .nan => { x with nan := true }
  | .inf neg => if neg then { x with ninf := true } else { x with pinf := true }
  | .fin neg m e => if x.u then x else x.addVal neg m e

/-- One group of products with combined scale `sc` (R187); `anchors` says whether it takes part in anchoring (R189). -/
def AccElem.addGroup (x : AccElem) (anchors : Bool) (sc : Int) (ps : List FpVal) : AccElem :=
  let y :=
    if anchors then
      if x.u then { x with a := sc, u := false }
      else if sc > x.a + 48 then x.reanchor sc else x
    else x
  ps.foldl AccElem.addProduct y

/-- The exact value an element drains as (R115, R190). -/
def AccElem.value (x : AccElem) : FpVal :=
  if x.nan || (x.pinf && x.ninf) then .nan
  else if x.pinf then .inf false
  else if x.ninf then .inf true
  else if x.u then .fin false 0 0
  else if x.v = 0 then .fin false 0 0
  else finOfInt x.v.toInt (x.a - 80)

/-- A drain of one element to a format, with its flags (R117, R182): IV where both infinities stand without a NaN
record, and for an INT32 conversion of a NaN or out of range. -/
def AccElem.drain (x : AccElem) (fmt : Nat) : Nat × FpFlags :=
  let iv : FpFlags := if x.pinf && x.ninf then flagIV else 0
  if fmt = 11 then
    let r := toInt32 false x.value
    (r.1.toNat, r.2 ||| iv)
  else
    let r := fpRound (fmtFp fmt) x.value
    (r.1, r.2 ||| iv)

/-! Products of two operand elements (R114, R186). -/

/-- E8M0 scale as a factor: NaN for 0xFF (R178). -/
def scaleVal (c : Nat) : FpVal := if c = 255 then .nan else .fin false 1 ((c : Int) - 127)

/-- The exponent e of R186 for a BF16 or FP16 element. -/
def halfExp (fmt x : Nat) : Int :=
  let f := fmtFp fmt
  let e := x / 2 ^ f.mbits % 2 ^ f.ebits
  if e = 0 then 1 - (f.bias : Int) else (e : Int) - f.bias

/-- The step count of R114; none where the formats may not be paired. -/
def mmaSteps (fa fb k : Nat) : Option Nat :=
  if fmtIsMx fa && fmtIsMx fb then some (if fa = 8 ∧ fb = 8 then k / 2 else k)
  else if fmtIsInt fa && fmtIsInt fb then some (if fa = 1 ∧ fb = 1 then k / 2 else k)
  else if fmtIsHalf fa && fmtIsHalf fb then some (2 * k)
  else none

/-- Whether a product is an infinity times a zero (IV under R182); the factors are operand values, scales included (R178). -/
def infTimesZero (x y : FpVal) : Bool := (x.isInf && y.isZero) || (x.isZero && y.isInf)

/-- Add the whole row pair A[m], B[n] of length `k` to one element (R113, R186), with the IV flag of R182. The operands
are read as encodings by column, scales as codes by block. -/
def AccElem.mmaRow (x : AccElem) (fa fb k : Nat) (aAt bAt : Nat → Nat) (saAt sbAt : Nat → Nat) :
    AccElem × FpFlags :=
  let group (lo n : Nat) (anchors : Bool) (sc : Int) (ca cb : FpVal) (acc : AccElem × FpFlags) : AccElem × FpFlags :=
    let vals := (List.range n).map (fun i => (elemVal fa (aAt (lo + i)), elemVal fb (bAt (lo + i))))
    let ps := vals.map (fun p => (p.1.mul ca).mul (p.2.mul cb))
    let iv := vals.any (fun p => infTimesZero (p.1.mul ca) (p.2.mul cb))
    (acc.1.addGroup anchors sc ps, acc.2 ||| (if iv then flagIV else 0))
  let unit : FpVal := .fin false 1 0
  if fmtIsMx fa then
    (List.range (k / 32)).foldl (fun acc g =>
      let ca := saAt g
      let cb := sbAt g
      group (32 * g) 32 (ca != 255 && cb != 255) ((ca : Int) - 127 + ((cb : Int) - 127)) (scaleVal ca) (scaleVal cb) acc)
      (x, 0)
  else if fmtIsInt fa then
    (List.range (ceilDiv k 32)).foldl (fun acc g =>
      group (32 * g) (min 32 (k - 32 * g)) true 0 unit unit acc) (x, 0)
  else
    (List.range k).foldl (fun acc i =>
      let va := elemVal fa (aAt i)
      let vb := elemVal fb (bAt i)
      group i 1 (va.mul vb).isFinite (halfExp fa (aAt i) + halfExp fb (bAt i)) unit unit acc) (x, 0)

end Sys2Proof.Machine
end

