-- ==== Sys2Proof/Machine/State.lean ====
section
/-! DEFINITION. The state of the part as plain data, its reset, and the reasons a step can stop. -/

namespace Sys2Proof.Machine

/-! ## Cores -/

/-- Where a flag or one line of an endpoint lies once resolved: a bench, device memory with its encryption domain,
another device's memory, or host memory (R148, R295). -/
inductive Place where
  | bench (core : CoreId) (addr : Nat)
  | dev (addr : Nat) (edom : Nat)
  | remote (landing : Landing) (addr : Nat) (edom : Nat)
  | host (addr : Nat)
  deriving DecidableEq, Repr

/-- What a core waits for at a wait point or at KEND (R82, R170, R231). -/
inductive WaitFor where
  | event (ticket : Lane) (threshold : Word) (dst : Fin 32) (scope : Nat)
  | flag (place : Place) (threshold : Word) (dst : Fin 32) (scope : Nat) (epoch : Nat)
  | groups (mask : Nat)
  | kernelEnd
  /-- SCMT, until its movement retires: what it then commits, the tree it frees and its status (R230). -/
  | scmt (move slot seq plane : Nat) (fresh : List Nat) (dst : Fin 32) (status : Word)
  deriving DecidableEq, Repr

/-- The engine state of a logical core (R528): idle, running, at a wait, stopped by an exception, halted for the
debugger. -/
inductive CorePhase where
  | idle
  | running
  | waiting (w : WaitFor)
  | ended
  | stopped
  | halted
  deriving DecidableEq, Repr

/-- A kernel placed in an engine queue (R351): manifest, kernel index, logical rank, whether by a hedge shadow, and the
text copied at dispatch (R84). -/
structure KernelSlot where
  manifest : Nat
  kindex : Nat
  rank : Nat
  shadow : Bool
  text : List Word
  deriving DecidableEq, Repr

/-- The instructions that wait in a movement-with-synchronisation unit queue, by what starting one does: movements and collectives that
the mover has no room for, and the releases with what stands behind them (R145, R169). -/
inductive SyncKind where
  | copy (second : Word)
  | fill (second : Word)
  | coll (func : Nat)
  | eadd
  | rel
  | fset
  deriving DecidableEq, Repr

/-- An entry of a movement-with-synchronisation unit queue: an instruction that was dispatched and has not started, its word offset,
and the scalar registers as program order gives them to it (R53). -/
structure SyncOp where
  kind : SyncKind
  op : CoreOp
  pc : BitVec 32
  regs : Vector Word 32
  deriving DecidableEq, Repr

/-- A logical core: the architectural state of R72 and the engine state that a kernel runs in. -/
structure CoreSt where
  s : Vector Word 32
  p : Vector Bool 8
  v : Vector (Vector Lane 256) 32
  d : Vector DescWord 8
  acc : SMap AccElem
  pc : BitVec 32
  bench : SMap (Option Byte)
  benchGen : Nat
  text : List Word
  phase : CorePhase
  kernel : Option KernelSlot
  engine : List KernelSlot
  /-- The kernel the core ended last: manifest, kernel index, rank, shadow (R67). -/
  last : Option (Nat × Nat × Nat × Bool)
  collIssued : Nat
  collIssuedTeam : Nat
  effects : Nat
  counters : SMap Word
  readBuffer : List (Landing × Nat × List Byte)
  tollHeld : Option Nat
  /-- The movement-with-synchronisation unit queue, oldest first (R53, R145, R169). -/
  sync : List SyncOp
  deriving DecidableEq, Repr

/-- A logical core before any kernel has run: zeros, as a kernel start leaves its registers (R73).
DESIGN CHOICE (log entry 7, unsafe). -/
def CoreSt.reset : CoreSt where
  s := Vector.replicate 32 0
  p := Vector.replicate 8 false
  v := Vector.replicate 32 (Vector.replicate 256 0)
  d := Vector.replicate 8 0
  acc := []
  pc := 0
  bench := []
  benchGen := 0
  text := []
  phase := .idle
  kernel := none
  engine := []
  last := none
  collIssued := 0
  collIssuedTeam := 0
  effects := 0
  counters := []
  readBuffer := []
  tollHeld := none
  sync := []

/-! ## Partitions -/

/-- The state of a partition (R22). -/
inductive PartState where
  | free
  | staging
  | active
  | leaving
  | resetting
  | stranded
  deriving DecidableEq, Repr

/-- One timetable slot: its owner, or open, and its length in units (R353). -/
structure TtSlot where
  owner : Option Nat
  units : Nat
  deriving DecidableEq, Repr

/-- A set of timetable settings (R372), in force or pending. -/
structure Timetable where
  enable : Bool
  anchor : Nat
  slots : List TtSlot
  deriving DecidableEq, Repr

/-- A line queued to patrol scrub by a corrected demand read (R254), and the engine's place (R255). -/
structure ScrubSt where
  next : Nat
  queued : List Nat
  deriving DecidableEq, Repr

/-- A salvage record that waits to be written: RECORD_SEQ, its address, and its pieces by offset (R526 to R529). -/
structure SalvageRec where
  seq : Nat
  addr : Nat
  pieces : List (Nat × List Byte)
  deriving DecidableEq, Repr

structure PartSt where
  state : PartState
  /-- Member of this slot's virtual device, its logical rank and role (store when true). -/
  slot : Option SlotId
  rank : Nat
  store : Bool
  /-- State to return to after a reset (R24), and whether the rank was re-hosted meanwhile. -/
  returnTo : PartState
  rehosted : Bool
  /-- Positions not working: repair map, retirement list and in-service retirements (R51, R61, R64). -/
  bad : BitVec 15
  pendingRetire : BitVec 15
  /-- Positions retired since the list in flash was last written (R64, R65). -/
  unlisted : BitVec 15
  /-- Folding: which logical core each position index has on it (R67). -/
  onPosition : SMap (Option Nat)
  /-- Corrected bench reads by position (R62). -/
  benchCorrected : SMap Nat
  /-- No further kernel runs until the next reset (R63). -/
  noKernels : Bool
  timetable : Timetable
  ttPending : Option Timetable
  ttPendingAt : Nat
  tollReserved : Int
  tollGeneral : Int
  tollBeat : Nat
  /-- Logical cores' tolls: granted and performed units (R508). -/
  tollGranted : SMap Nat
  tollPerformed : SMap Nat
  scrubCs : ScrubSt
  scrubDr : ScrubSt
  ceTotalCs : Nat
  ceTotalDr : Nat
  /-- Both channels re-initialised in the reset under way (R522). -/
  dramReady : Bool
  resetFaultSeq : Nat
  salvageSeq : Nat
  salvageHeld : List SalvageRec
  /-- Manifest records and engine states as they stood when the reset under way started (R527, R528). -/
  snapshot : List Byte
  droopUntil : Option Nat
  stretched : Bool
  /-- Rail-independent pace cap in force under R481, R473 and R478, in M steps/s; 0 where none applies. -/
  thermalCap : Nat
  deriving DecidableEq, Repr

def Timetable.reset : Timetable := ⟨false, 0, [⟨none, 1⟩]⟩

def PartSt.reset : PartSt where
  state := .free
  slot := none
  rank := 0
  store := false
  returnTo := .free
  rehosted := false
  bad := 0
  pendingRetire := 0
  unlisted := 0
  onPosition := []
  benchCorrected := []
  noKernels := false
  timetable := Timetable.reset
  ttPending := none
  ttPendingAt := 0
  tollReserved := 0x4000
  tollGeneral := 0x10000
  tollBeat := 0
  tollGranted := []
  tollPerformed := []
  scrubCs := ⟨0, []⟩
  scrubDr := ⟨0, []⟩
  ceTotalCs := 0
  ceTotalDr := 0
  dramReady := false
  resetFaultSeq := 0
  salvageSeq := 0
  salvageHeld := []
  snapshot := []
  droopUntil := none
  stretched := false
  thermalCap := 0

/-! ## Memory -/

/-- The key an LPDDR5X line was last written under: domain, MEM generation, domain generation; or never written whole
(R503, R504, R568). DEDUCED (log entry 14, safe). -/
inductive LineKey where
  | unwritten
  | dom (domain memGen domGen : Nat)
  | ferry
  deriving DecidableEq, Repr

/-- A key as numbers. -/
def LineKey.code : LineKey → List Nat
  | .unwritten => []
  | .dom d m g => [d, m, g]
  | .ferry => [0]

/-! ## Movement -/

/-- One piece of an endpoint's physical run list (R303): a place and a length in bytes. -/
structure Run where
  place : Place
  bytes : Nat
  deriving DecidableEq, Repr

/-- A stream of R155: logical core, rank, manifest, STREAM. -/
structure StreamId where
  core : CoreId
  rank : Nat
  manifest : Nat
  /-- Which issue of the manifest: a replay's streams are streams of their own. -/
  replay : Nat
  stream : Nat
  deriving DecidableEq, Repr

/-- What a movement still does after submission. -/
inductive MovePhase where
  | toll
  | remote
  | done
  deriving DecidableEq, Repr

/-- A movement in flight (R144 to R146). `rowsLeft` pairs each 64-byte row's source and destination not yet moved. -/
structure Movement where
  id : Nat
  core : CoreId
  manifest : Nat
  group : Nat
  context : BitVec 16
  epoch : Nat
  stream : StreamId
  last : Bool
  phase : MovePhase
  fill : Option Word
  /-- A flag update of FSET: eight bytes in place of rows (R168). -/
  word : Option Word
  rowsLeft : List (Place × Place)
  tollsLeft : List Nat
  readsOut : List (Landing × Nat × Nat × Place)
  writesOut : SMap Nat
  /-- Frames of its stream sent to a partition of another device before its first frame: landing, partition, count (R426). -/
  priors : List (Landing × Nat × Nat)
  endpoints : List Place
  blocks : List Nat
  /-- A mirrored block as source: its primary address and its mirror's storage word (R259). -/
  mirror : Option (Nat × Nat)
  /-- The matching movement of the other member of a hedge pair, with which this one retires (R368). -/
  after : Option Nat
  /-- The rows, tolls and toll that it leaves to that one, which it performs itself if the other member is dropped (R369). -/
  spared : Option (List (Place × Place) × List Nat × Nat)
  toll : Nat
  bytes : Nat
  submitted : Nat
  deriving DecidableEq, Repr

/-- One participant's submitted part of a collective (R161). -/
structure CollPart where
  index : Nat
  core : CoreId
  source : List Byte
  dest : List Run
  deriving DecidableEq, Repr

/-- A collective joined by local participants (R160, R161): the ordinal is that of the given TEAM in the kernel. -/
structure Coll where
  manifest : Nat
  rank : Nat
  lane : Nat
  kindex : Nat
  team : Bool
  ordinal : Nat
  func : Nat
  redop : Nat
  length : Nat
  /-- Its participants disagree (R162). -/
  mismatched : Bool
  /-- The sources of every participant, once all have submitted. -/
  sources : Option (List (List Byte))
  parts : List CollPart
  retired : List CoreId
  tolls : SMap (List Nat)
  groups : SMap Nat
  epoch : SMap Nat
  deriving DecidableEq, Repr

/-- What performing a held write does: it stores its data, writes a flag, or adds to an event (R279, R426). -/
inductive HeldKind where
  | data
  | flag
  | eventAdd
  deriving DecidableEq, Repr

/-- A last-off write held at a destination (R279): the write's source device or core, and the count it waits for.
DEDUCED (log entry 36, unsafe). -/
structure Held where
  id : Nat
  fromDevice : Option Landing
  stream : StreamId
  mstream : Lane
  prior : Nat
  place : Place
  data : List Byte
  kind : HeldKind
  move : Nat
  /-- The ordinal of a frame of another device in its stream (R426). -/
  ord : Nat
  deriving DecidableEq, Repr

/-- A cached run (R299): cluster or shared cache, context, virtual base, page bits, length, physical base, attributes. -/
structure CachedRun where
  cluster : Option Nat
  context : BitVec 16
  base : Nat
  pageBits : Nat
  pages : Nat
  entry0 : Word
  phys : Nat
  deriving DecidableEq, Repr

/-- A translation fence not yet complete (R305). -/
structure Fence where
  context : BitVec 16
  epoch : Nat
  seq : Lane
  deriving DecidableEq, Repr

/-! ## Sequence state -/

/-- Freed block storage that movements which resolved it still use (R222). -/
structure Freed where
  id : Nat
  slot : Nat
  cls : Nat
  storage : Word
  blockers : List Nat
  deriving DecidableEq, Repr

/-- The saved copy of a running manifest's step record (R240). -/
structure StepSave where
  bytes : List Byte
  readable : Bool
  deriving DecidableEq, Repr

/-! ## Jobs -/

/-- A bound record (R87). -/
structure BoundRec where
  b : Nat
  w : Nat
  collectives : Nat
  store : Nat
  die : Nat
  xdie : Nat
  lpddr : Nat
  remote : Nat
  serial : Nat
  hostKib : Nat
  deriving DecidableEq, Repr

/-- A kernel of a code object (R86, R87). -/
structure KernelRec where
  start : Nat
  words : Nat
  mask : Nat
  bound : Option BoundRec
  deriving DecidableEq, Repr

/-- The code object as admission read it (R85). -/
structure CodeObj where
  version : Nat
  bcount : Nat
  textOff : Nat
  objectId : Word
  base : Nat
  kernels : List KernelRec
  deriving DecidableEq, Repr

/-- The run record as admission read it (R234). -/
structure RunRec where
  stepLimit : Nat
  stops : List Lane
  stepVa : Nat
  ringVa : Nat
  ringLog2 : Nat
  stepPlaces : List Run
  ringPlaces : List Run
  /-- The context's epoch when its addresses were translated (R305). -/
  epoch : Nat
  deriving DecidableEq, Repr

/-- Where a manifest stands between fetch and retirement (R347). -/
inductive MPhase where
  | waitEvent
  | admissible
  | admitted
  | running
  | runEnd (count : Nat) (stop : Bool) (record : List Byte)
  | abandoned
  | stopping (status detail : Nat)
  | ending (status detail : Nat)
  | recorded
  deriving DecidableEq, Repr

/-- The progress of one member of a named rank on this device: rank, partition, whether it is a hedge shadow, the kernel
it runs or runs next, and the logical cores that have not ended it. -/
structure RankRun where
  rank : Nat
  part : Nat
  shadow : Bool
  dropped : Bool
  kindex : Nat
  inFlight : Bool
  left : Nat
  deriving DecidableEq, Repr

/-- A fetched manifest. -/
structure Manifest where
  id : Nat
  berth : BerthId
  queue : QueueId
  context : BitVec 16
  version : Nat
  promised : Bool
  replay : Bool
  running : Bool
  nodeliver : Bool
  vslot : SlotId
  vdev : BitVec 24
  code : Lane
  tag : Word
  deadline : Nat
  seed : Word
  waitEvent : Lane
  signalEvent : Lane
  waitValue : Word
  run : Lane
  rankBase : Nat
  rankCount : Nat
  chain : Nat
  energyTag : Nat
  bcount : Nat
  bindings : List Lane
  bindValues : List Word
  bound : List Lane
  hedges : List (Nat × Nat)
  phase : MPhase
  /-- When its wait condition came to hold, or its next run was due: its place among them all, and the beat (R358). -/
  readyAt : Nat
  readyBeat : Nat
  obj : Option CodeObj
  runRec : Option RunRec
  step : Option StepSave
  ranks : List RankRun
  iter : Nat
  tokens : Nat
  replays : Nat
  flags : FpFlags
  void : BitVec 8
  firstBeat : Nat
  lastBeat : Nat
  booked : Nat
  bookedParts : List Nat
  bookM : Nat
  bookMaxE : Nat
  /-- M as last recomputed (R365, R440). -/
  nowM : Nat
  floor : Nat
  excCode : Nat
  excRank : Nat
  excCore : Nat
  excPc : Nat
  faulted : Bool
  allowanceUsed : Bool
  /-- Resets its accesses to a reserved region have waited on: partition and count of resets (R247). -/
  waitedOn : List (Nat × Nat)
  heldLines : List Nat
  /-- Sequences whose blocks its kernels resolved (R434). -/
  seqs : List Nat
  /-- Effects outside a hedge pair already submitted: rank and core, kernel and ordinal, and the movement that performs it
  (R368). -/
  effectsDone : List (Nat × Nat × Nat)
  ignoreFault : Bool
  /-- STOP, LIMIT or DEADLINE of another copy, received once the run had ended here and not yet been delivered (R346). -/
  partner : Option Nat
  revoked : Bool
  /-- The first kernel of its first run has been dispatched (R321). -/
  started : Bool
  energy : Nat
  deriving DecidableEq, Repr

/-! ## Contexts and berths -/

/-- A queue of a resident context (R313). -/
structure QueueSt where
  valid : Bool
  ringBase : Nat
  ringLog2 : Nat
  format : Nat
  priority : Nat
  head : Nat
  tail : Nat
  cringBase : Nat
  cringLog2 : Nat
  cringProduced : Nat
  cringConsumed : Nat
  held : List Word
  /-- Manifests whose completion record waits for room in the completion ring, in order (R348). -/
  waiting : List Nat
  deriving DecidableEq, Repr

def QueueSt.empty : QueueSt := ⟨false, 0, 0, 0, 0, 0, 0, 0, 0, 0, 0, [], []⟩

/-- A berth (R315): the record it holds and its state, which BRT_BERTH shows. -/
inductive BerthState where
  | empty
  | loading
  | resident
  | unloading
  deriving DecidableEq, Repr

structure BerthSt where
  state : BerthState
  context : BitVec 16
  pasid : BitVec 20
  ptRoot : Word
  record : Nat
  revoked : BitVec 16
  frozen : BitVec 16
  epoch : Nat
  queues : Vector QueueSt 16
  deriving DecidableEq, Repr

def BerthSt.empty : BerthSt := ⟨.empty, 0, 0, 0, 0, 0, 0, 0, Vector.replicate 16 QueueSt.empty⟩

/-! ## Arbitration -/

/-- The settings of an arbiter instance that a commit puts in force (R375); of each slot, VALID and OWNER as written. -/
structure ArbSet where
  limit : Nat
  slots : SMap (Bool × Nat)
  prio : SMap Nat
  deriving DecidableEq, Repr

/-- An arbiter instance (R374 to R381, R388): settings in force, shadows, slot pointer, arbitration epochs begun after the
first, turns counted since power-on, wait counters, the expired counters each with the turn count at its expiry, dead and
forced counts, the requester granted the last turn, and REFUSED. -/
structure ArbSt where
  active : ArbSet
  shadow : ArbSet
  pointer : Nat
  epoch : Nat
  turns : Nat
  wait : SMap Nat
  expired : List (Nat × Nat)
  dead : Lane
  forced : Lane
  granted : Option Nat
  refused : Bool
  deriving DecidableEq, Repr

def ArbSet.reset : ArbSet := ⟨2, [], []⟩
def ArbSt.reset : ArbSt := ⟨ArbSet.reset, ArbSet.reset, 0, 0, 0, [], [], 0, 0, none, false⟩

/-! ## The fabric -/

/-- A frame sent and not yet acknowledged (R424). -/
structure TxFrame where
  seq : Lane
  frame : Frame
  sent : Bool
  sentAt : Nat
  retries : Nat
  move : Option Nat
  deriving DecidableEq, Repr

/-- A replay window (R399): the highest packet number accepted, and those accepted within 65,536 of it. -/
structure RxWin where
  high : Nat
  seen : List Nat
  deriving DecidableEq, Repr

/-- An association before the one in use (R400): its counter, its replay window, and the beat until which it is accepted; none
once its key is deleted. -/
structure OldAssoc where
  counter : Nat
  win : RxWin
  expires : Option Nat
  deriving DecidableEq, Repr

/-- The association with a peer (R400, R501, R502): its counter n, its replay window, and those before it, newest first. -/
structure Assoc where
  counter : Nat
  win : RxWin
  olds : List OldAssoc
  deriving DecidableEq, Repr

/-- A key association advance in progress (R400): hard, started automatically, its beat, the beat it completes by, the
peers that have not confirmed. -/
structure SaAdvance where
  hard : Bool
  auto : Bool
  start : Nat
  deadline : Nat
  peers : List Landing
  deriving DecidableEq, Repr

/-- What the device holds about another device (R413, R414, R424). -/
structure Peer where
  landing : Landing
  mac : BitVec 48
  port : Nat
  iface : Nat
  adjacent : Bool
  live : Bool
  lastHeard : Nat
  reference : Landing
  assoc : Option Assoc
  usedCounters : SMap Nat
  frozen : Bool
  txNext : Lane
  txUnacked : List TxFrame
  rxCum : Lane
  rxAhead : List Lane
  rxUnacked : Nat
  rxSince : Option Nat
  myLats : List (BitVec 24 × Nat)
  epochs : List (BitVec 24 × Lane)
  /-- Frames of each movement stream sent to each partition of the peer; and the ordinals of each stream performed here, by
  destination partition (R426). -/
  txOrds : List (Lane × Nat × Nat)
  mstreams : List (Lane × Nat × List Nat)
  /-- The ordinals of each stream that were squashed here, by destination partition (R281). -/
  refusals : List (Lane × Nat × List Nat)
  deriving DecidableEq, Repr

/-- A route-table entry (R395): port, interface and hops. -/
structure Route where
  port : Nat
  iface : Nat
  hops : Nat
  deriving DecidableEq, Repr

/-- One member of a virtual device in the roster (R27, R32). A rank without a host names no device (R24). -/
structure Member where
  rank : Nat
  host : Option (Landing × Nat)
  store : Bool
  state : PartState
  deriving DecidableEq, Repr

/-- A virtual device in the roster this device holds (R25, R417, R418). -/
structure VDev where
  number : BitVec 24
  slot : Option SlotId
  epoch : Lane
  members : List Member
  devicesAtCommit : List Landing
  severed : Bool
  lastCommit : Option CompRecord
  vdLat : Nat
  /-- As new keeper: devices whose answer to SYNC is outstanding (R415). -/
  syncOut : List Landing
  deriving DecidableEq, Repr

/-- A composition request at its keeper (R40, R427): waiting, or taken up with the votes still out; a JOIN first consults the
device of its partition; `failed` once the partition it names has faulted before the commit (R41). -/
structure CompChange where
  record : CompRecord
  requester : Landing
  arrived : Nat
  takenUp : Bool
  votesOut : List Landing
  consulting : Bool
  failed : Bool
  deriving DecidableEq, Repr

/-- A proposal at a member's device waiting for its ranks' kernel boundaries (R427, phases 3 and 4). -/
structure Proposal where
  record : CompRecord
  keeper : Landing
  voted : Bool
  deriving DecidableEq, Repr

/-- States of the two parties of a handoff (R430, R431). -/
inductive HoState where
  | offered
  | handed
  | copying
  | taking
  | disputed
  deriving DecidableEq, Repr

/-- A handoff as the holder or the taker keeps it. -/
structure Handoff where
  record : HandoffRecord
  state : HoState
  timer : Nat
  acked : Bool
  copied : Bool
  block : Nat
  slot : Nat
  deriving DecidableEq, Repr

/-- A handoff reported to this keeper (R432). -/
structure HoDispute where
  record : HandoffRecord
  acked : Bool
  since : Nat
  decided : Option Bool
  applied : List Landing
  reports : List Landing
  deriving DecidableEq, Repr

/-- A mailbox command whose reply comes later: request block, kind and tag (R552). -/
structure MailWait where
  block : Nat
  tag : Lane
  deriving DecidableEq, Repr

/-! ## Faults -/

/-- A fault entry by its fields (R516). -/
structure FaultEntry where
  beat : Nat
  seq : Nat
  source : Nat
  reason : Nat
  flags : Nat
  part : Option Nat
  rank : Option Nat
  core : Option Nat
  position : Option Nat
  tag : Word
  bq : Option (Nat × Nat)
  context : BitVec 16
  vdev : BitVec 24
  addr : Word
  objectId : Word
  pc : BitVec 32
  kindex : Nat
  deriving DecidableEq, Repr

/-! ## Keys, power, start -/

/-- The tenant state (R500, R511). -/
inductive TenantState where
  | none
  | installed
  | removing
  deriving DecidableEq, Repr

/-- An opened weight bundle's handle (R506). -/
structure Bundle where
  handle : Nat
  key : List Byte
  header : List Byte
  chunkLog2 : Nat
  payload : Nat
  deriving DecidableEq, Repr

/-- The key store (R488 to R506). -/
structure KeySt where
  tenant : TenantState
  rootFailed : Bool
  seed : List Byte
  startNonce : List Byte
  meas : List (List Byte)
  closed : Option (List Byte)
  debug : Bool
  fabric : Option (List Byte)
  memGen : Nat
  linkGen : Nat
  bindGen : Nat
  sealGen : Nat
  domGen : SMap Nat
  bundles : List Bundle
  noTenantSeen : Bool
  randoms : Nat
  removal : Nat
  removalWaitFrom : Nat
  removalLmax : Nat
  deriving DecidableEq, Repr

/-- What a start holds while its steps run (R539, R540, R543 to R545): by step number, how many consecutive previous starts
failed on its normal path; the POLICY bytes and PORTS in force; the slot of the most recent start that completed step 4; the
path of the step in progress; and whether steps 2 and 3 run again for the other slot. -/
structure StartSt where
  fails : List Nat
  policy : List Nat
  ports : Nat
  normalSlot : Nat
  path : Nat
  rerun : Bool
  deriving DecidableEq, Repr

/-- Loans and grants (R461 to R468). -/
structure PowerSt where
  pendingG : List (Nat × Nat)
  pendingF : List (Nat × Nat)
  lastGrant : Nat
  lent : List (Nat × Nat)
  borrowed : List Nat
  slackReports : List (BitVec 24 × Landing × Nat)
  railTarget : SMap Nat
  settling : SMap Bool
  thermalDie : SMap Bool
  hotDie : SMap Bool
  thermTrip : Bool
  deriving DecidableEq, Repr

/-- An instance command under way (R455): the instance's berths with the contexts they held, and the movements of its
manifests that were squashed. -/
structure InstCmd where
  inst : Nat
  squash : Bool
  remove : Bool
  berths : List BerthId
  contexts : List (BitVec 16)
  moves : List Nat
  deriving DecidableEq, Repr

/-- What is held for the host while the link is down, in order (R442): a write that publishes a structure with the vectors
it raises; a manifest's SIGNAL_EVENT, which follows its completion record (R347); a count returned to the ledger (R327).
DEDUCED (log entry 58, unsafe). -/
inductive HostHeld where
  | write (addr : Nat) (data : List Byte) (vectors : List Nat)
  | signal (m : Manifest) (status : Nat)
  | count (ticket : Lane)
  deriving DecidableEq, Repr

/-- What a port read of the registers at its last enable (R391, R407). -/
structure PortSt where
  mode : Nat
  gen : Nat
  etherType : BitVec 16
  udpPort : BitVec 16
  deriving DecidableEq, Repr

/-- The reset values of the fields a port reads (R407). -/
def PortSt.reset : PortSt := ⟨0, 0, 0x88B5, 0xC15C⟩

/-- IEEE 1588 (R401 to R403): consecutive offsets within 20 ns; by interface, 8p + i, the mean path delay measured in 1/256 ns and
the timestamp of the request last sent; measurements made; whether a roster has been joined; the servo's rate in parts per
million and the millionths of a beat it has gathered. -/
structure PtpSt where
  lockCount : Nat
  delays : SMap (Option Nat)
  sentAt : SMap (Option Int)
  round : Nat
  joined : Bool
  rate : Int
  drift : Int
  deriving DecidableEq, Repr

def PtpSt.reset : PtpSt := ⟨0, [], [], 0, false, 0, 0⟩

/-- The protection of a frame sent (R398, R502): AN, SCI, packet number, and the ciphertext with its ICV. -/
structure SecTag where
  an : Nat
  sci : Word
  pn : Nat
  bytes : List Byte
  deriving DecidableEq, Repr

/-- The envelope of a frame sent (R396 to R398): the source MAC address, VID and PCP of a tag, the encapsulation, and the
protection, which discovery frames do not have. -/
structure Wire where
  mac : BitVec 48
  tag : Option (Nat × Nat)
  carrier : Carrier
  sec : Option SecTag
  deriving DecidableEq, Repr

/-- What leaves the part: frames of its own and frames forwarded as they came on the links, IEEE 1588 messages with their domain,
MSI-X vectors, SMBus replies, pins (the model's own record). -/
inductive Out where
  | frame (port iface : Nat) (w : Wire) (f : Frame)
  | forward (port iface : Nat) (f : Frame)
  | ptp (port iface domain : Nat) (body : PtpBody)
  | neighbourAdvert (port iface : Nat)
  | msix (vector : Nat)
  | smbus (data : List Byte)
  | thermTrip
  | debugHalt (core : Nat)
  deriving DecidableEq, Repr

/-- A broadcast of another type seen in the last 2 ms (R412): source, SEQ and beat. -/
structure SeenBroadcast where
  src : Landing
  seq : Lane
  beat : Nat
  deriving DecidableEq, Repr

/-- A discovery frame seen in the last 2 ms (R412): source, type, number, MAC and beat. -/
structure SeenFrame where
  type : Nat
  number : Nat
  mac : Nat
  beat : Nat
  deriving DecidableEq, Repr

/-- Discovery (R409 to R411). -/
structure DiscoverySt where
  candidate : Landing
  claims : Nat
  lastClaim : Nat
  trainedAt : Option Nat
  seen : List SeenFrame
  broadcasts : List SeenBroadcast
  deriving DecidableEq, Repr

/-- How far the consequences of an undefined misuse go: the misusing context, the partitions concerned until they are reset, or the
device (R17). -/
inductive Reach where
  | context (c : BitVec 16)
  | partition (p : PartId)
  | device
  deriving DecidableEq, Repr

/-- The whole part. -/
structure State where
  /-- The commands waiting, first in, first out. -/
  pending : List Instr
  powered : Bool
  supplyBroken : Bool
  /-- The beat counter (R6). -/
  beat : Nat
  /-- The register window by byte offset, the registers that do not hold their reset value: fields in force, and the
  shadows of RWS fields (R13, R447). -/
  regs : SMap (Option Word)
  shadow : SMap (Option Word)
  /-- What the last read of an RC register or the last SMBus read returned. -/
  busRead : Word
  cores : Vector CoreSt 192
  parts : Vector PartSt 16
  /-- Cluster stores and LPDDR5X by device physical address (R242), as plaintext; the symbol errors present in a line's
  codeword by line address (R250); and the key an LPDDR5X line is written under (R503). -/
  mem : SMap Byte
  lineErrors : SMap (List (Nat × Byte))
  lineKeys : SMap LineKey
  /-- Host memory, as the device's coherent requests see it (R443). -/
  host : SMap Byte
  hostUp : Bool
  /-- The bandwidth in GB/s each direction that the host link last trained at; 0 before (R438, R440). -/
  linkBw : Nat
  hostDownAt : Nat
  hostHeld : List HostHeld
  /-- The boot and identity flash (R537). -/
  flash : SMap Byte
  /-- The uncorrectable lines listed, and whether each has been written whole since (R258). -/
  ueList : Vector (Option (Nat × Bool)) 16
  moves : List Movement
  nextMove : Nat
  colls : List Coll
  held : List Held
  nextHeld : Nat
  cache : List CachedRun
  fences : List Fence
  /-- Block map: ways of the resident table by set, map pages on other devices, bins, freed storage, lost sequences. -/
  resident : SMap (List (Word × Word))
  remotePages : SMap Byte
  /-- Mirrored map pages: page word to mirror word, each landing number and address (R434). -/
  pageMirrors : SMap (Option Nat)
  bins : SMap (List Word)
  freed : List Freed
  nextFreed : Nat
  lost : Vector (Option (SlotId × BitVec 20)) 64
  lostAll : BitVec 16
  mapLost : Bool
  manifests : List Manifest
  nextManifest : Nat
  admitOrder : Nat
  berths : Vector BerthSt 48
  arbs : SMap ArbSt
  peers : List Peer
  routes : SMap (Option Route)
  vdevs : List VDev
  comps : List CompChange
  proposals : List Proposal
  composeWaits : List (Lane × MailWait)
  handoffsHeld : List Handoff
  handoffsTaken : List Handoff
  hoDisputes : List HoDispute
  hoOutcomes : List (Lane × Landing × Nat)
  nextHid : Lane
  discovery : DiscoverySt
  ports : Vector PortSt 4
  ptp : PtpSt
  saPending : Option SaAdvance
  faults : List FaultEntry
  /-- The last 32 entries written, and the summary of the previous start as it was read at this one (R546). -/
  lastFaults : List FaultEntry
  startSummary : List Byte
  faultSeq : Nat
  faultMirrored : Nat
  faultConsumed : Nat
  key : KeySt
  power : PowerSt
  instCmds : List InstCmd
  vfCount : Nat
  /-- The berth of the BRT request being served (R316, R317). -/
  brtServed : Option BerthId
  irqLast : SMap (Option Nat)
  irqDeferred : List Nat
  start : StartSt
  ferryDown : Bool
  /-- Corrected bench reads a position may report before it becomes pending, from the configuration record (R62). -/
  ceLimit : Nat
  tracing : Bool
  trace : List (BitVec 16 × Nat)
  alerts : BitVec 16
  out : List Out
  /-- The model's own counter: free values are taken at its successive values. -/
  free : Nat
  /-- The model's own mark: the step met a misuse whose behaviour the specification calls undefined, of this reach. -/
  misused : Option Reach
  deriving DecidableEq, Repr

def KeySt.reset : KeySt where
  tenant := .none
  rootFailed := false
  seed := []
  startNonce := []
  meas := List.replicate 8 (List.replicate 32 0)
  closed := none
  debug := false
  fabric := none
  memGen := 0
  linkGen := 0
  bindGen := 0
  sealGen := 0
  domGen := []
  bundles := []
  noTenantSeen := false
  randoms := 0
  removal := 0
  removalWaitFrom := 0
  removalLmax := 0

def StartSt.reset : StartSt := ⟨[], [], 0, 0, 0, false⟩

def PowerSt.reset : PowerSt := ⟨[], [], 0, [], [], [], [], [], [], [], false⟩

def DiscoverySt.reset : DiscoverySt := ⟨0, 0, 0, none, [], []⟩

/-- The part before PWRGD is first asserted: nothing holds but the flash, whose contents the specification leaves to
manufacture and which the model takes as blank; every register at its reset value (R13, R560).
DESIGN CHOICE (log entry 5, unsafe). -/
def State.reset : State where
  pending := []
  powered := false
  supplyBroken := false
  beat := 0
  regs := []
  shadow := []
  busRead := 0
  cores := Vector.replicate 192 CoreSt.reset
  parts := Vector.replicate 16 PartSt.reset
  mem := []
  lineErrors := []
  lineKeys := []
  host := []
  hostUp := false
  linkBw := 0
  hostDownAt := 0
  hostHeld := []
  flash := []
  ueList := Vector.replicate 16 none
  moves := []
  nextMove := 0
  colls := []
  held := []
  nextHeld := 0
  cache := []
  fences := []
  resident := []
  remotePages := []
  pageMirrors := []
  bins := []
  freed := []
  nextFreed := 0
  lost := Vector.replicate 64 none
  lostAll := 0
  mapLost := false
  manifests := []
  nextManifest := 0
  admitOrder := 0
  berths := Vector.replicate 48 BerthSt.empty
  arbs := []
  peers := []
  routes := []
  vdevs := []
  comps := []
  proposals := []
  composeWaits := []
  handoffsHeld := []
  handoffsTaken := []
  hoDisputes := []
  hoOutcomes := []
  nextHid := 0
  discovery := DiscoverySt.reset
  ports := Vector.replicate 4 PortSt.reset
  ptp := PtpSt.reset
  saPending := none
  faults := []
  lastFaults := []
  startSummary := []
  faultSeq := 0
  faultMirrored := 0
  faultConsumed := 0
  key := KeySt.reset
  power := PowerSt.reset
  instCmds := []
  vfCount := 0
  brtServed := none
  irqLast := []
  irqDeferred := []
  start := StartSt.reset
  ferryDown := false
  ceLimit := 64
  tracing := false
  trace := []
  alerts := 0
  out := []
  free := 0
  misused := none

/-- Why the part stops with a fault. Both are raised where the specification says the behaviour is undefined or has
device reach and names no effect; stopping there is safe. -/
inductive Fault where
  /-- Raised by every command but POWER_DOWN, and a further SUPPLY_FAULT, after SUPPLY_FAULT, which puts the part outside
  R19; safe: it states nothing further. -/
  | outsideLimits
  /-- Raised where a rule of the specification calls a misuse undefined and names no effect for it, with the reach the rule names
  (R17); safe. -/
  | undefinedMisuse (reach : Reach)
  deriving DecidableEq, Repr

/-- Why the model refuses a command. -/
inductive Refusal where
  /-- Raised by the arms of the dispatch whose meaning is not written; safe: it states nothing. -/
  | notModelled (mnemonic : String)
  deriving DecidableEq, Repr

end Sys2Proof.Machine
end

