-- ==== Sys2Proof/Machine/Ops.lean ====
section
/-! DEFINITION. The named operations every meaning is built from: cores, partitions, registers, host memory, what leaves
the part, and the fault queue. -/

namespace Sys2Proof.Machine

/-- What a step answers. -/
abbrev Answer := Host.Outcome State Fault Refusal

/-- What no command but those of the supply changes: the queue, PWRGD, the supply, and the beat counter, which passing time
advances and one message of IEEE 1588 may step (R6, R402, R560); with the model's own mark of a misuse, which no next state gains. `t` with those of `s`. -/
def State.framed (s t : State) : State :=
  { t with
    pending := s.pending, powered := s.powered, supplyBroken := s.supplyBroken, beat := s.beat, misused := s.misused }

/-- A command's effect on a part that operates within R19: nothing happens while PWRGD is deasserted (R560), and after a
supply fault the behaviour has device reach, so the model stops (R19, R560). DESIGN CHOICE (log entry 2, safe). -/
def whenOn (f : State → State) (s : State) : Answer :=
  if s.supplyBroken then .fault .outsideLimits
  else if s.powered then .next (s.framed (f s)) else .next s

/-- As `whenOn`, for a command whose effect can meet a misuse that the specification calls undefined and gives no effect:
the model then stops. -/
def whenChecked (f : State → State) (s : State) : Answer :=
  if s.supplyBroken then .fault .outsideLimits
  else if s.powered then
    let t := f s
    match t.misused with
    | some r => .fault (.undefinedMisuse r)
    | none => .next (s.framed t)
  else .next s

/-- Mark a misuse whose behaviour is undefined, with its reach (R17). DEDUCED (log entry 3, safe). -/
def State.misuse (s : State) (r : Reach) : State := { s with misused := some r }

/-! ## Cores and partitions -/

def State.core (s : State) (c : CoreId) : CoreSt := s.cores[c]
def State.setCore (s : State) (c : CoreId) (x : CoreSt) : State := { s with cores := s.cores.set c x }
def State.updCore (s : State) (c : CoreId) (f : CoreSt → CoreSt) : State := s.setCore c (f (s.core c))

/-- Change every core. -/
def State.mapCores (s : State) (f : CoreId → CoreSt → CoreSt) : State :=
  { s with cores := Vector.ofFn (fun c => f c s.cores[c]) }

def State.part (s : State) (c : PartId) : PartSt := s.parts[c]
def State.setPart (s : State) (c : PartId) (x : PartSt) : State := { s with parts := s.parts.set c x }
def State.updPart (s : State) (c : PartId) (f : PartSt → PartSt) : State := s.setPart c (f (s.part c))

/-- The partition a logical core belongs to, and its number within it (R49). -/
def corePart (c : CoreId) : PartId := ⟨c.val / 12, by omega⟩
def coreNum (c : CoreId) : Nat := c.val % 12
/-- The device-wide number of logical core `n` of partition `c` (R49). -/
def coreIdOf (c : PartId) (n : Fin 12) : CoreId := ⟨12 * c.val + n.val, by omega⟩
/-- The twelve logical cores of a partition. -/
def partCores (c : PartId) : List CoreId := (List.finRange 12).map (coreIdOf c)
def allCores : List CoreId := List.finRange 192
def allParts : List PartId := List.finRange 16
def allBerths : List BerthId := List.finRange 48
def allQueues : List QueueId := List.finRange 16
/-- A partition number from a natural number. -/
def partOf (n : Nat) : PartId := ⟨n % 16, by omega⟩
def slotOf (n : Nat) : SlotId := ⟨n % 16, by omega⟩

def State.berth (s : State) (b : BerthId) : BerthSt := s.berths[b]
def State.setBerth (s : State) (b : BerthId) (x : BerthSt) : State := { s with berths := s.berths.set b x }
def State.updBerth (s : State) (b : BerthId) (f : BerthSt → BerthSt) : State := s.setBerth b (f (s.berth b))
def BerthSt.queue (x : BerthSt) (q : QueueId) : QueueSt := x.queues[q]
def BerthSt.setQueue (x : BerthSt) (q : QueueId) (y : QueueSt) : BerthSt := { x with queues := x.queues.set q y }

/-! ## Registers -/

/-- The register at a byte offset of the window, as its block holds it. -/
def State.reg (s : State) (off : Nat) : Word := (mapGet none s.regs off).getD (regReset off)
def State.setReg (s : State) (off : Nat) (v : Word) : State :=
  { s with regs := mapPut none s.regs off (if v = regReset off then none else some v) }
/-- A field of a register. -/
def State.regField (s : State) (off hi lo : Nat) : Nat := wbits (s.reg off) hi lo
def State.setRegField (s : State) (off hi lo v : Nat) : State := s.setReg off (setWBits (s.reg off) hi lo v)
def State.regBit (s : State) (off i : Nat) : Bool := (s.reg off).getLsbD i
/-- The shadow of an RWS register (R13). -/
def State.shad (s : State) (off : Nat) : Word := (mapGet none s.shadow off).getD (regReset off)
def State.setShad (s : State) (off : Nat) (v : Word) : State :=
  { s with shadow := mapPut none s.shadow off (if v = regReset off then none else some v) }
/-- Add one to a 32-bit counter that holds at 0xFFFF_FFFF. -/
def State.countReg (s : State) (off : Nat) : State :=
  s.setReg off (BitVec.ofNat 64 (satAdd (s.reg off).toNat 0xFFFFFFFF))
/-- What port p read at its last enable (R391, R407). -/
def State.port (s : State) (p : Nat) : PortSt := s.ports[p % 4]'(Nat.mod_lt _ (by decide))
def State.setPort (s : State) (p : Nat) (x : PortSt) : State := { s with ports := s.ports.set (p % 4) x (Nat.mod_lt _ (by decide)) }

/-! ## Strings (R491) -/

/-- The bytes of an ASCII label. -/
def label (t : String) : List Byte := t.toList.map (fun c => BitVec.ofNat 8 c.toNat)

/-- Exactly `n` bytes of a string that a primitive gives. -/
def fitBytes (n : Nat) (l : List Byte) : List Byte := (List.range n).map (fun i => l.getD i 0)

def hash (n : Nat) (l : List Byte) : List Byte := fitBytes n (Config.shake256 l n)

/-- TENANT_EPOCH (R500, R514). -/
def State.tenantEpoch (s : State) : Nat := s.regField R_KEY_TENANT 63 32

/-- Read and clear an RC register (R13). -/
def State.readClear (s : State) (off : Nat) : State :=
  { s.setReg off 0 with busRead := s.reg off }

/-- This device's landing number (R408). -/
def State.landing (s : State) : Landing := BitVec.ofNat 16 (s.regField R_ROS_STATUS 15 0)

/-- The Ferryman defers the work of class 3, which composition changes and flash writes are (R42, R549, R550). -/
def State.deferred3 (s : State) : Bool := s.regBit R_FER_STATUS 21

/-- The next free value's index. DESIGN CHOICE (log entry 85, safe). -/
def State.tick (s : State) : State := { s with free := s.free + 1 }

/-- What leaves the part. -/
def State.emit (s : State) (o : Out) : State := { s with out := s.out ++ [o] }

/-! ## Interrupts and host memory (R285, R442, R445, R446) -/

/-- The messages of a vector: the physical function's, and in mediated mode the vector of the virtual function that an
assigned berth belongs to, which the model numbers 64 + i (R446). -/
def State.vectorOuts (s : State) (v : Nat) : List Out :=
  let r := s.reg (R_HST_BERTH + 4 * (v - 16))
  if s.regField R_DEV_MODE 1 0 = 1 ∧ 16 ≤ v ∧ r.getLsbD 6 then [.msix v, .msix (64 + wbits r 5 0)] else [.msix v]

/-- Raise an MSI-X vector: deferred while within HST_IRQ_MOD.INTERVAL of its previous raise (R446).
DEDUCED (log entry 61, safe). -/
def State.raiseVector (s : State) (v : Nat) : State :=
  let gap := 1000 * s.regField R_HST_IRQ_MOD 15 0
  match mapGet none s.irqLast v with
  | some t =>
    if gap ≠ 0 ∧ s.beat < t + gap then
      if s.irqDeferred.contains v then s else { s with irqDeferred := s.irqDeferred ++ [v] }
    else { s with irqLast := mapPut none s.irqLast v (some s.beat), out := s.out ++ s.vectorOuts v }
  | none => { s with irqLast := mapPut none s.irqLast v (some s.beat), out := s.out ++ s.vectorOuts v }

def State.hostRead (s : State) (a n : Nat) : List Byte := mapRead 0 s.host a n
def State.hostNat (s : State) (a n : Nat) : Nat := leNat (s.hostRead a n)
def State.hostPut (s : State) (a : Nat) (bs : List Byte) : State := { s with host := mapWrite 0 s.host a bs }
def State.hostPutNat (s : State) (a n x : Nat) : State := s.hostPut a (leBytes n x)

/-- The host's own stores arrive (they are coherent with every device access, R443). DEDUCED (log entry 90, unsafe). -/
def State.hostStores (s : State) (w : HostStores) : State :=
  { s with host := w.foldl (fun m p => mapPut 0 m p.1 p.2) s.host }

/-- A write that publishes a structure to the host, with the vectors it raises after it: held in order while the link is
down (R285, R442). -/
def State.publish (s : State) (a : Nat) (bs : List Byte) (vectors : List Nat) : State :=
  if s.hostUp then vectors.foldl State.raiseVector (s.hostPut a bs)
  else { s with hostHeld := s.hostHeld ++ [.write a bs vectors] }

/-! ## Manifests -/

def State.manifest? (s : State) (id : Nat) : Option Manifest := s.manifests.find? (fun m => m.id == id)
def State.updManifest (s : State) (id : Nat) (f : Manifest → Manifest) : State :=
  { s with manifests := s.manifests.map (fun m => if m.id = id then f m else m) }

/-! ## The fault queue (R516 to R519) -/

/-- A fault entry with nothing applying but its source and reason. -/
def FaultEntry.bare (source reason : Nat) : FaultEntry where
  beat := 0
  seq := 0
  source := source
  reason := reason
  flags := 0
  part := none
  rank := none
  core := none
  position := none
  tag := 0
  bq := none
  context := 0
  vdev := 0
  addr := 0
  objectId := 0
  pc := 0
  kindex := 0

/-- The 64 bytes of an entry (R516). -/
def FaultEntry.encode (e : FaultEntry) : List Byte :=
  leBytes 8 e.beat ++ leBytes 8 e.seq ++ leBytes 1 e.source ++ leBytes 1 e.reason ++ leBytes 1 e.flags ++
  leBytes 1 (e.part.getD 0xFF) ++ leBytes 2 (e.rank.getD 0xFFFF) ++ leBytes 1 (e.core.getD 0xFF) ++
  leBytes 1 (e.position.getD 0xFF) ++ leBytes 8 e.tag.toNat ++
  leBytes 2 (match e.bq with | some (b, q) => 256 * b + q | none => 0xFFFF) ++ leBytes 2 e.context.toNat ++
  leBytes 4 e.vdev.toNat ++ leBytes 8 e.addr.toNat ++ leBytes 8 e.objectId.toNat ++ leBytes 4 e.pc.toNat ++
  leBytes 1 e.kindex ++ leBytes 3 0

/-- The mirror ring's base and size in entries, where FLT_RING enables it (R536). -/
def State.fltRing (s : State) : Option (Nat × Nat) :=
  let n := s.regField R_FLT_RING 3 0
  if 10 ≤ n ∧ n ≤ 15 then some (s.regField R_FLT_RING 51 12 * 4096, 2 ^ n) else none

/-- Show the occupancy as last counted in FLT_STATUS.QUEUED (R518). -/
def State.showQueued (s : State) : State := s.setRegField R_FLT_STATUS 10 0 s.faults.length

/-- The device reads CONSUMED: entries it has passed leave the hub queue (R518). -/
def State.readConsumed (s : State) : State :=
  match s.fltRing with
  | none => s.showQueued
  | some (base, _) =>
    if s.hostUp then
      let c := min (s.hostNat (base + 8) 8) s.faultMirrored
      State.showQueued { s with faults := s.faults.drop (c - s.faultConsumed), faultConsumed := max c s.faultConsumed }
    else s.showQueued

/-- Mirror one queued entry to the host ring, with PRODUCED and vector 0 after it (R518). -/
def State.mirrorOne (s : State) (e : FaultEntry) : State :=
  match s.fltRing with
  | none => s
  | some (base, size) =>
    let s := s.readConsumed
    let s1 := s.publish (base + 0x40 + 64 * (s.faultMirrored % size)) e.encode []
    let s2 := { s1 with faultMirrored := s.faultMirrored + 1 }
    let s3 := s2.publish base (leBytes 8 s2.faultMirrored) [0]
    s3.setReg R_FLT_PRODUCED (BitVec.ofNat 64 s2.faultMirrored)

/-- Write a fault entry: queued and mirrored, or coalesced in the source's overflow count where the queue is full
(R518, R519). -/
def State.addFault (s : State) (e : FaultEntry) : State :=
  let s := if s.faults.length ≥ 1024 then s.readConsumed else s
  if s.faults.length ≥ 1024 then
    let k := e.source % 16
    let first := (s.reg (R_FLT_OVF_COUNT + 4 * k)).toNat = 0
    let s := s.countReg (R_FLT_OVF_COUNT + 4 * k)
    let s := if first then s.setReg (R_FLT_OVF_FIRST + 8 * k) (BitVec.ofNat 64 s.beat) else s
    let s := s.setReg (R_FLT_OVF_LAST + 8 * k) (BitVec.ofNat 64 s.beat)
    s.setRegField R_FLT_STATUS 31 31 1
  else
    let e := { e with beat := s.beat, seq := s.faultSeq + 1 }
    let s := State.showQueued { s with
      faults := s.faults ++ [e], faultSeq := s.faultSeq + 1, lastFaults := (s.lastFaults ++ [e]).drop (s.lastFaults.length + 1 - 32) }
    s.mirrorOne e

/-- A fault entry of the MEM source for a line (R517). -/
def memFault (reason : Nat) (part : Option Nat) (line : Nat) : FaultEntry :=
  { FaultEntry.bare 4 reason with part := part, addr := BitVec.ofNat 64 line }

/-- The fields of an entry that name a manifest (R516). -/
def FaultEntry.ofManifest (e : FaultEntry) (m : Manifest) : FaultEntry :=
  { e with tag := m.tag, bq := some (m.berth.val, m.queue.val), context := m.context, vdev := m.vdev }

/-- The block with nothing waiting: one beat of the reference passes while it is powered (R6), and the counter gains or loses a
beat as the servo's rate adds up (R402). DESIGN CHOICE (log entry 9, unsafe). -/
def idle (s : State) : State :=
  let d := s.ptp.drift + s.ptp.rate
  if !s.powered then s
  else if 1000000 ≤ d then { s with beat := s.beat + 2, ptp := { s.ptp with drift := d - 1000000 } }
  else if d ≤ -1000000 then { s with ptp := { s.ptp with drift := d + 1000000 } }
  else { s with beat := s.beat + 1, ptp := { s.ptp with drift := d } }

end Sys2Proof.Machine
end

