-- ==== Sys2Proof/Machine/ArbOps.lean ====
section
/-! DEFINITION. Arbiter instances as other operations meet them: whose they are, and requests given up by a reset, a stranding, a
freeze or a withdrawal (R374, R378, R381, R386). -/

namespace Sys2Proof.Machine

/-- The partition whose own instance this is, which grants nothing once it is stranded (R386). -/
def arbOwner (inst : Nat) : Option PartId :=
  if inst < 0x100 then some (partOf (inst / 16))
  else if inst < 0x110 then some (partOf (inst - 0x100))
  else if 0x120 ≤ inst ∧ inst < 0x140 then some (partOf ((inst - 0x120) / 2))
  else if 0x160 ≤ inst ∧ inst < 0x170 then some (partOf (inst - 0x160))
  else if 0x170 ≤ inst ∧ inst < 0x180 then some (partOf (inst - 0x170)) else none

/-- The requester that a partition is at an instance not its own: at the gateways of the other clusters of its die, at the bridge
out of its die, and at link egress (R374). -/
def partRequester (p : PartId) (inst : Nat) : Option Nat :=
  if 0x100 ≤ inst ∧ inst < 0x110 then
    let c := inst - 0x100
    if c / 8 = p.val / 8 ∧ c ≠ p.val then some (if p.val < c then p.val % 8 else p.val % 8 - 1) else none
  else if inst = 0x110 + p.val / 8 then some (p.val % 8)
  else if 0x140 ≤ inst ∧ inst < 0x160 then some p.val
  else none

def State.arb (s : State) (inst : Nat) : ArbSt := mapGet ArbSt.reset s.arbs inst
def State.setArb (s : State) (inst : Nat) (a : ArbSt) : State := { s with arbs := mapPut ArbSt.reset s.arbs inst a }
def State.updArb (s : State) (inst : Nat) (f : ArbSt → ArbSt) : State := s.setArb inst (f (s.arb inst))

/-- A requester's counter is cleared. -/
def ArbSt.clearWait (a : ArbSt) (r : Nat) : ArbSt :=
  { a with wait := mapPut 0 a.wait r 0, expired := a.expired.filter (fun e => e.1 != r) }

/-- A turn granted and given up before its data phase passes dead. -/
def ArbSt.die (a : ArbSt) : ArbSt := { a with granted := none, dead := BitVec.ofNat 32 (satAdd a.dead.toNat 0xFFFFFFFF) }

/-- A requester's request is removed: its counter is cleared, and a turn it was granted passes dead (R378, R381). -/
def ArbSt.withdraw (a : ArbSt) (r : Nat) : ArbSt := if a.granted = some r then (a.clearWait r).die else a.clearWait r

/-- What a reset leaves of an instance of its own partition: the committed settings, and no counter, pointer or turn (R386). -/
def ArbSt.restart (a : ArbSt) : ArbSt :=
  let b := if a.granted.isSome then a.die else a
  { b with wait := [], expired := [], pointer := 0 }

/-- Every instance changed in the same way. -/
def State.mapArbs (s : State) (f : Nat → ArbSt → ArbSt) : State :=
  { s with arbs := s.arbs.filterMap (fun e => if f e.1 e.2 = ArbSt.reset then none else some (e.1, f e.1 e.2)) }

/-- A partition's requests in every instance but its own are withdrawn (R386). DEDUCED (log entry 110, unsafe). -/
def State.arbLeave (s : State) (p : PartId) : State :=
  s.mapArbs (fun i a => match partRequester p i with
    | some r => a.withdraw r
    | none => a)

/-- A partition reset: the partition's requests are withdrawn in every instance, and its own instances start afresh (R386). -/
def State.arbReset (s : State) (p : PartId) : State :=
  (s.arbLeave p).mapArbs (fun i a => if arbOwner i = some p then a.restart else a)

end Sys2Proof.Machine
end

