-- ==== Sys2Proof/Machine/Mem.lean ====
section
/-! DEFINITION. Cluster stores and LPDDR5X: the physical address map, the protection code, encryption domains, corrected
and uncorrectable lines, partial writes and error injection (R242 to R261, R503, R504, R568). -/

namespace Sys2Proof.Machine

/-! ## Physical address map (R242 to R245) -/

/-- What a device physical address reaches. -/
inductive AddrKind where
  | store (c : Nat)
  | window
  | data (c : Nat)
  | reserved (c : Nat)
  | ferry
  | unpopulated
  deriving DecidableEq, Repr

def dramBase : Nat := 0x010000000000
def dramStride : Nat := 0x800000000
def windowBase : Nat := 0x001000000000
/-- The bytes of a window that hold protected lines (R243). -/
def protectedBytes : Nat := 0x787800000
def storeBytes : Nat := 0x40000000

def addrKind (a : Nat) : AddrKind :=
  if a < 16 * storeBytes then .store (a / storeBytes)
  else if windowBase ≤ a ∧ a < windowBase + 0x2000000 then .window
  else if dramBase ≤ a ∧ a < dramBase + 16 * dramStride then
    let c := (a - dramBase) / dramStride
    let r := (a - dramBase) % dramStride
    if r < dataMib c * 0x100000 then .data c
    else if r < protectedBytes then (if c = 15 then .ferry else .reserved c)
    else .unpopulated
  else .unpopulated

/-- The partition whose structures an address lies in. -/
def addrPart (a : Nat) : Option PartId :=
  match addrKind a with
  | .store c => some (partOf c)
  | .data c => some (partOf c)
  | .reserved c => some (partOf c)
  | .ferry => some 15
  | _ => none

/-- The offset of an address within its partition's cluster store or data range (R149, R221). -/
def addrOffset (a : Nat) : Nat :=
  match addrKind a with
  | .store c => a - c * storeBytes
  | .data c => a - dramBase - c * dramStride
  | _ => 0

def lineOf (a : Nat) : Nat := a / 64 * 64

/-- The block-map backing and the salvage halves (R245). -/
def backingBase : Nat := 0x010767800000
/-- The salvage half that serves partition `c`: half A in partition 1 serves 8 to 15, half B in 14 serves 0 to 7. -/
def salvageHalfPart (c : Nat) : PartId := if c < 8 then 14 else 1
def salvageBase (c : Nat) : Nat := (if c < 8 then 0x017767800000 else 0x010F67800000) + c % 8 * 0x4000000

/-! ## The code RS(68,64) (R250 to R252) -/

/-- Multiplication by α in GF(2^8) with x^8 + x^4 + x^3 + x^2 + 1. -/
def gfDouble (x : Nat) : Nat := if x < 128 then 2 * x else (2 * x) ^^^ 0x11D

def gfMulAux : Nat → Nat → Nat → Nat
  | 0, _, _ => 0
  | n + 1, x, y => (if y % 2 = 1 then x else 0) ^^^ gfMulAux n (gfDouble x) (y / 2)

/-- The product in GF(2^8). -/
def gfMul (x y : Nat) : Nat := gfMulAux 8 x y

/-- α^n. -/
def gfAlpha : Nat → Nat
  | 0 => 1
  | n + 1 => gfDouble (gfAlpha n)

def gfPow (x : Nat) : Nat → Nat
  | 0 => 1
  | n + 1 => gfMul x (gfPow x n)

/-- The inverse of a nonzero element. -/
def gfInv (x : Nat) : Nat :=
  let x2 := gfMul x x
  let x4 := gfMul x2 x2
  let x8 := gfMul x4 x4
  let x16 := gfMul x8 x8
  let x32 := gfMul x16 x16
  let x64 := gfMul x32 x32
  gfMul (gfMul (gfMul x2 x4) (gfMul x8 x16)) (gfMul (gfMul x32 x64) (gfMul x64 x64))

/-- The field element of symbol `i`, α^(67 − i). -/
def symbolLocator (i : Nat) : Nat := gfAlpha (67 - i)

/-- Syndrome `j` of an error pattern: Σ e_i · α^(j(67 − i)). -/
def syndrome (e : List (Nat × Byte)) (j : Nat) : Nat :=
  e.foldl (fun acc p => acc ^^^ gfMul p.2.toNat (gfPow (symbolLocator p.1) j)) 0

/-- A pattern of one symbol with the given syndromes. -/
def singleFix (s0 s1 s2 s3 : Nat) : Option (List (Nat × Nat)) :=
  (List.range 68).findSome? (fun i =>
    let x := symbolLocator i
    if s0 ≠ 0 ∧ gfMul s0 x = s1 ∧ gfMul s1 x = s2 ∧ gfMul s2 x = s3 then some [(i, s0)] else none)

/-- A pattern of two symbols with the given syndromes: its locators x and y have s2 = (x + y) s1 + xy s0 and
s3 = (x + y) s2 + xy s1, so they are the roots of a quadratic, where the syndromes are not those of one symbol. -/
def doubleFix (s0 s1 s2 s3 : Nat) : Option (List (Nat × Nat)) :=
  let det := gfMul s1 s1 ^^^ gfMul s0 s2
  let a := gfMul (gfMul s0 s3 ^^^ gfMul s1 s2) (gfInv det)
  let m := gfMul (gfMul s1 s3 ^^^ gfMul s2 s2) (gfInv det)
  match if det = 0 then [] else (List.range 68).filter (fun i => gfMul (symbolLocator i) (symbolLocator i ^^^ a) = m) with
  | [i, j] =>
    let v := gfMul (s1 ^^^ gfMul s0 (symbolLocator j)) (gfInv (symbolLocator i ^^^ symbolLocator j))
    some [(i, v), (j, s0 ^^^ v)]
  | _ => none

/-- What the decoder makes of an error pattern: clean, corrected, uncorrectable; for the first two, the pattern left in
the delivered word. -/
inductive Decoded where
  | clean (left : List (Nat × Nat))
  | corrected (left : List (Nat × Nat))
  | uncorrectable
  deriving DecidableEq, Repr

/-- Two patterns combined symbol by symbol. -/
def patternXor (a b : List (Nat × Nat)) : List (Nat × Nat) :=
  let at_ (l : List (Nat × Nat)) (i : Nat) : Nat := l.foldl (fun acc p => if p.1 = i then acc ^^^ p.2 else acc) 0
  ((List.range 68).map (fun i => (i, at_ a i ^^^ at_ b i))).filter (fun p => p.2 ≠ 0)

/-- Bounded-distance decoding of an error pattern (R251, R252). DEDUCED (log entry 13, unsafe). -/
def rsDecode (e : List (Nat × Byte)) : Decoded :=
  if e.isEmpty then .clean []
  else if e.length ≤ 2 then .corrected []
  else
    let s0 := syndrome e 0
    let s1 := syndrome e 1
    let s2 := syndrome e 2
    let s3 := syndrome e 3
    let en := e.map (fun p => (p.1, p.2.toNat))
    if s0 = 0 ∧ s1 = 0 ∧ s2 = 0 ∧ s3 = 0 then .clean en
    else match singleFix s0 s1 s2 s3 with
      | some f => .corrected (patternXor en f)
      | none => match doubleFix s0 s1 s2 s3 with
        | some f => .corrected (patternXor en f)
        | none => .uncorrectable

/-! ## Faults and lists of the memory (R254, R258, R503) -/

/-- The NO_TENANT entry of the first access of a start to LPDDR5X with no DOM key (R503). -/
def State.noTenant (s : State) : State :=
  if s.key.noTenantSeen then s
  else State.addFault { s with key := { s.key with noTenantSeen := true } } (FaultEntry.bare 0x0A 1)

/-- Count a corrected read: the register, the total, the CE_RATE entry; a master's read is queued for write-back
(R254). -/
def State.countCe (s : State) (c : Nat) (dram : Bool) (line : Nat) (master : Bool) : State :=
  let p := partOf c
  let s := s.countReg ((if dram then R_MEM_CE_DR else R_MEM_CE_CS) + 4 * p.val)
  let x := s.part p
  let total := (if dram then x.ceTotalDr else x.ceTotalCs) + 1
  let queue := master && s.regBit R_MEM_CTRL 1
  let add (q : ScrubSt) : ScrubSt := if queue && !q.queued.contains line then { q with queued := q.queued ++ [line] } else q
  let s := s.setPart p (if dram then { x with ceTotalDr := total, scrubDr := add x.scrubDr }
    else { x with ceTotalCs := total, scrubCs := add x.scrubCs })
  let thresh := s.regField R_MEM_CE_THRESH 15 0
  if thresh ≠ 0 ∧ total % thresh = 0 then s.addFault (memFault 4 (some p.val) line) else s

/-- Whether a line is in the uncorrectable list. -/
def State.ueIndex (s : State) (line : Nat) : Option (Fin 16) :=
  (List.finRange 16).find? (fun i => match s.ueList[i] with | some (l, _) => l == line | none => false)

/-- Enter a line in the lowest free entry of the uncorrectable list (R258). -/
def State.listUe (s : State) (line : Nat) : State :=
  match s.ueIndex line with
  | some _ => s
  | none =>
    match (List.finRange 16).find? (fun i => s.ueList[i] == none) with
    | some i => { s with ueList := s.ueList.set i (some (line, false)) }
    | none => s

/-- A listed line is written whole (R258). -/
def State.markRewritten (s : State) (line : Nat) : State :=
  match s.ueIndex line with
  | some i =>
    match s.ueList[i] with
    | some (l, _) => { s with ueList := s.ueList.set i (some (l, true)) }
    | none => s
  | none => s

/-! ## Reading a line -/

/-- What a read of a 64-byte line delivers. -/
inductive LineOut where
  | ok (data : List Byte)
  | ue
  deriving DecidableEq, Repr

/-- The key an LPDDR5X line of domain `d` is under now (R503, R504). DEDUCED (log entry 14, safe). -/
def State.domKey (s : State) (d : Nat) : LineKey := .dom d s.key.memGen (mapGet 0 s.key.domGen d)

def zeroLine : List Byte := List.replicate 64 0

/-- The entries of the resident table that one line of the block map window shows (R249). -/
def State.windowLine (s : State) (line : Nat) : List Byte :=
  let o := line - windowBase
  let ways := mapGet [] s.resident (o / 256)
  let first := o % 256 / 16
  (List.range 4).flatMap (fun i =>
    let e := ways.getD (first + i) (0, 0)
    leBytes 8 e.1.toNat ++ leBytes 8 e.2.toNat)

/-- A read of a line of the resident table: an uncorrectable one has its fault entry, and its entries are reloaded from their map pages,
which hold the same (R217, R241). DEDUCED (log entry 13, unsafe). -/
def State.tableRead (s : State) (line : Nat) : State :=
  if (mapGet [] s.lineErrors line).length ≤ 2 then s
  else State.addFault { s with lineErrors := mapPut [] s.lineErrors line [] } { FaultEntry.bare 5 2 with addr := BitVec.ofNat 64 line }

/-- Apply the pattern a miscorrection leaves: to the bytes of a store; on LPDDR5X, under a key, the ciphertext changes, and the 16-byte
cipher blocks it touches read with free bits, the same at every read of the codeword (R252). -/
def residue (key : Option LineKey) (left : List (Nat × Nat)) (data : List Byte) : List Byte :=
  if left.isEmpty then data
  else (List.range 64).map (fun i => match key with
    | some k => if left.any (fun p => p.1 < 64 && p.1 / 16 == i / 16) then Config.garbledByte k.code data left i else data.getD i 0
    | none => match left.find? (fun p => p.1 == i) with
      | some p => data.getD i 0 ^^^ BitVec.ofNat 8 p.2
      | none => data.getD i 0)

/-- The plaintext of a line under key `k` as key `d` decrypts it (R503, R504). -/
def decrypted (k d : LineKey) (line : Nat) (data : List Byte) : List Byte :=
  if k = d then data else (List.range 64).map (fun i => Config.otherKeyByte k.code d.code data (line + i))

/-- The resets a partition has had (R524, R535). -/
def State.resetCount (s : State) (c : Nat) : Nat := s.regField (R_FLT_RESET_STATUS + 4 * c) 31 16

/-- Whether an LPDDR5X line not written whole is uncorrectable (R257, R568). -/
def State.rawUe (s : State) (c line : Nat) : Bool := Config.dramUncorrectable s.key.startNonce (s.resetCount c) line

/-- Read one line of a cluster store or LPDDR5X under domain `d`, decoding it and counting a correction; `master` is
false for the patrol scrub. Listing an uncorrectable line is the caller's (R258, R259). DESIGN CHOICE (log entry 11, unsafe).
DEDUCED (log entry 16, safe). -/
def State.readLine (s : State) (line d : Nat) (master : Bool) : State × LineOut :=
  let coded (c : Nat) (key : Option LineKey) (data : List Byte) : State × LineOut :=
    match rsDecode (mapGet [] s.lineErrors line) with
    | .clean left => (s, .ok (residue key left data))
    | .corrected left => (s.countCe c key.isSome line master, .ok (residue key left data))
    | .uncorrectable => (s, .ue)
  let stored := mapRead 0 s.mem line 64
  match addrKind line with
  | .store c => coded c none stored
  | .window => (s.tableRead line, .ok (s.windowLine line))
  | .data c =>
    if s.key.tenant = .none then (s.noTenant, .ok zeroLine)
    else match mapGet .unwritten s.lineKeys line with
      | .unwritten =>
        let free := (List.range 64).map (fun i => Config.dramByte s.free (line + i))
        if s.rawUe c line then (s, .ue)
        else if Config.choice s.free then (State.tick (s.countCe c true line master), .ok free)
        else (s.tick, .ok free)
      | k => coded c (some (s.domKey d)) (decrypted k (s.domKey d) line stored)
  | .reserved c =>
    if s.key.tenant = .none then (s.noTenant, .ok zeroLine)
    else match mapGet .unwritten s.lineKeys line with
      | .unwritten => coded c (some (s.domKey 0)) (decrypted (if s.key.memGen = 0 then s.domKey 0 else .unwritten) (s.domKey 0) line zeroLine)
      | k => coded c (some (s.domKey 0)) (decrypted k (s.domKey 0) line stored)
  | _ => (s, .ok zeroLine)

/-! ## Writing -/

/-- The pattern of an armed injection at this line (R261). -/
def State.injection (s : State) (line : Nat) : Option (List (Nat × Byte)) :=
  let r := (s.reg R_MEM_INJ_CTRL).toNat
  let count := bits r 26 24
  let pattern := bits r 23 16
  let first := bits r 6 0
  if bitAt r 31 ∧ s.regField R_MEM_INJ_ADDR 47 6 * 64 = line ∧ 1 ≤ count ∧ count ≤ 4 ∧ pattern ≠ 0 ∧ first ≤ 67 then
    some ((List.range count).map (fun i => ((first + i) % 68, BitVec.ofNat 8 pattern)))
  else none

/-- An armed injection at this line fires: the pattern is in its codeword, and ARM clears (R261). -/
def State.inject (s : State) (line : Nat) : State :=
  match s.injection line with
  | some e => State.setRegField { s with lineErrors := mapPut [] s.lineErrors line e } R_MEM_INJ_CTRL 31 31 0
  | none => s

/-- Store the encoded line: data, errors injected, key, and the list mark where the write is of the whole line (R250, R258, R261). -/
def State.putLine (s : State) (line : Nat) (data : List Byte) (key : LineKey) (whole : Bool) : State :=
  let s1 : State := { s with
    mem := mapWrite 0 s.mem line data
    lineKeys := mapPut .unwritten s.lineKeys line key
    lineErrors := mapPut [] s.lineErrors line [] }
  if whole then (s1.inject line).markRewritten line else s1.inject line

/-- Encode a line and store it under domain `d`: written whole, or by read-modify-write, which leaves what an LPDDR5X line not yet
written whole reads as open as before (R253, R503, R568). -/
def State.encodeLine (s : State) (line d : Nat) (data : List Byte) (whole : Bool) : State :=
  match addrKind line with
  | .store _ => s.putLine line data .unwritten whole
  | .data _ =>
    if s.key.tenant = .none then s.noTenant
    else s.putLine line data
      (if !whole && mapGet .unwritten s.lineKeys line == .unwritten then .unwritten else s.domKey d) whole
  | .reserved _ => if s.key.tenant = .none then s.noTenant else s.putLine line data (s.domKey 0) whole
  | _ => s

/-- Write a whole line under domain `d` (R253, R503). -/
def State.writeLine (s : State) (line d : Nat) (data : List Byte) : State := s.encodeLine line d data true

/-- `data` with `bs` laid over it from byte `i`. -/
def overlay (data : List Byte) (i : Nat) (bs : List Byte) : List Byte := data.take i ++ bs ++ data.drop (i + bs.length)

/-- Write part of a line by read-modify-write: the uncorrectable line, where the read is, in place of the write
(R253). -/
def State.writePart (s : State) (a d : Nat) (bs : List Byte) : State × Option Nat :=
  let line := lineOf a
  match s.readLine line d true with
  | (s1, .ok data) => (s1.encodeLine line d (overlay data (a - line) bs) false, none)
  | (s1, .ue) => (s1, some line)

/-- Write bytes that lie within one line. -/
def State.writeWithin (s : State) (a d : Nat) (bs : List Byte) : State × Option Nat :=
  if bs.length = 64 then (s.writeLine a d bs, none) else s.writePart a d bs

/-- The pieces `[a, a + n)` falls into by lines: address and length. -/
def linePieces : Nat → Nat → Nat → List (Nat × Nat)
  | 0, _, _ => []
  | fuel + 1, a, n =>
    if n = 0 then [] else
    let k := min n (64 - a % 64)
    (a, k) :: linePieces fuel (a + k) (n - k)

/-- Read `n` bytes from `a`: the bytes, or the first uncorrectable line met. -/
def State.readBytes (s : State) (a n d : Nat) : State × (List Byte ⊕ Nat) :=
  (linePieces (n / 64 + 2) a n).foldl (fun acc p =>
    match acc.2 with
    | .inr _ => acc
    | .inl got =>
      match acc.1.readLine (lineOf p.1) d true with
      | (s1, .ok data) => (s1, .inl (got ++ (data.drop (p.1 % 64)).take p.2))
      | (s1, .ue) => (s1, .inr (lineOf p.1))) (s, .inl [])

/-- Write bytes from `a`, line by line, stopping at an uncorrectable read-modify-write. -/
def State.writeBytes (s : State) (a d : Nat) (bs : List Byte) : State × Option Nat :=
  (linePieces (bs.length / 64 + 2) a bs.length).foldl (fun acc p =>
    match acc.2 with
    | some _ => acc
    | none => acc.1.writeWithin p.1 d ((bs.drop (p.1 - a)).take p.2)) (s, none)

/-- A range whose contents are not preserved: as if nothing had written it (R524). -/
def State.forgetRange (s : State) (lo hi : Nat) : State :=
  { s with mem := mapClear s.mem lo hi, lineErrors := mapClear s.lineErrors lo hi, lineKeys := mapClear s.lineKeys lo hi }

/-- Write every line of a range whole with zeros, data and check symbols alike (R250, R258, R261, R522, R568). -/
def State.zeroRange (s : State) (lo hi : Nat) : State :=
  let line := s.regField R_MEM_INJ_ADDR 47 6 * 64
  let s1 := s.forgetRange lo hi
  let s2 := if lo ≤ line ∧ line < hi then s1.inject line else s1
  ((s2.ueList.toList.filterMap (fun e => e.map (·.1))).filter (fun l => decide (lo ≤ l) && decide (l < hi))).foldl
    State.markRewritten s2

end Sys2Proof.Machine
end

