-- ==== Sys2Proof/Machine/Positions.lean ====
section
/-! DEFINITION. Core positions: working and active positions, which logical cores each carries, folding, the core map word
(R48 to R51, R66 to R71). -/

namespace Sys2Proof.Machine

/-- Working positions of a partition as a mask (R51). -/
def PartSt.working (p : PartSt) : Nat := 0x7FFF - p.bad.toNat % 0x8000

/-- The working positions of row `r`, by position index in ascending order. -/
def rowWorking (w r : Nat) : List Nat := ((List.range 5).map (fun p => 5 * r + p)).filter (fun i => bitAt w i)

/-- The active positions of row `r`: the lowest-numbered working ones, up to four. -/
def rowActive (w r : Nat) : List Nat := (rowWorking w r).take 4

/-- All active positions in ascending index. -/
def activePositions (w : Nat) : List Nat := (List.range 3).flatMap (rowActive w)

/-- The logical cores placed on their own row's positions, as pairs of core and position (R51). -/
def placedCores (w : Nat) : List (Nat × Nat) :=
  (List.range 3).flatMap (fun r => ((List.range 4).map (fun j => 4 * r + j)).zip (rowActive w r))

/-- The logical cores left unplaced, in ascending number (R66). -/
def foldedCores (w : Nat) : List Nat := (List.range 12).filter (fun n => !(placedCores w).any (fun p => p.1 == n))

/-- Every logical core with the position that carries it (R51, R66); none where no position is active (R70). -/
def coreCarriers (w : Nat) : List (Nat × Nat) :=
  let act := activePositions w
  let folded := foldedCores w
  placedCores w ++ ((List.range folded.length).zip folded).filterMap (fun p =>
    match act[p.1 % act.length]? with
    | some pos => some (p.2, pos)
    | none => none)

/-- The position that carries logical core `n`. -/
def carrierOf (w n : Nat) : Option Nat := ((coreCarriers w).find? (fun p => p.1 == n)).map (·.2)

/-- The logical cores a position carries, ascending. -/
def carriedBy (w pos : Nat) : List Nat := (List.range 12).filter (fun n => carrierOf w n == some pos)

def activeCount (w : Nat) : Nat := (activePositions w).length

/-- The fold factor k, the least whole number not below 12 / a; 0 where a = 0 (R66, R71). -/
def foldFactor (w : Nat) : Nat := let a := activeCount w; if a = 0 then 0 else ceilDiv 12 a

/-- The core map word of R71. -/
def coreMapWord (w pending : Nat) : Nat :=
  let a := activeCount w
  (if a < 12 then 2 ^ 63 else 0) + pending % 0x8000 * 2 ^ 48 + (12 - a) * 2 ^ 40 + foldFactor w * 2 ^ 36 + a * 2 ^ 32 +
  ((activePositions w).foldl (fun acc i => acc + 2 ^ i) 0) * 2 ^ 16 + w % 0x8000

/-- Publish the whole core map word of a partition (R64, R71). -/
def State.publishCoreMap (s : State) (c : PartId) : State :=
  let p := s.part c
  s.setReg (R_DEV_CORE_MAP + 8 * c.val) (BitVec.ofNat 64 (coreMapWord p.working p.pendingRetire.toNat))

/-- Update the PENDING field alone, when a position becomes pending (R71). -/
def State.publishPending (s : State) (c : PartId) : State :=
  s.setRegField (R_DEV_CORE_MAP + 8 * c.val) 62 48 (s.part c).pendingRetire.toNat

/-- The first byte of the fold slots a partition withholds (R68). -/
def foldSlotBase (c w : Nat) : Nat := c * 0x40000000 + 0x40000000 - (12 - activeCount w) * 0x100000

/-- Whether an address lies in a fold slot. -/
def State.inFoldSlot (s : State) (a : Nat) : Bool :=
  decide (a < 16 * 0x40000000) &&
  decide (foldSlotBase (a / 0x40000000) (s.part (partOf (a / 0x40000000))).working ≤ a)

/-- Which logical core is on the position that carries core `n`: the one a switch left there, else the lowest the
position carries (R67). -/
def PartSt.onCarrier (p : PartSt) (n : Nat) : Option Nat :=
  match carrierOf p.working n with
  | none => none
  | some pos =>
    match mapGet none p.onPosition pos with
    | some m => some m
    | none => (carriedBy p.working pos).head?

/-- Whether logical core `n` is on its position, so that it can dispatch. -/
def PartSt.onPos (p : PartSt) (n : Nat) : Bool := p.onCarrier n == some n

end Sys2Proof.Machine
end

