-- ==== Sys2Proof/Machine/Translate.lean ====
section
/-! DEFINITION. Address translation: table entries, walks, the run caches, envelopes and run lists (R290 to R304). -/

namespace Sys2Proof.Machine

/-! ## Table entries (R292 to R297) -/

/-- A leaf at a level maps a page of 2^this bytes. -/
def levelBits (level : Nat) : Nat := 40 - 8 * level

def entryMclass (w0 : Nat) : Nat := bits w0 10 8
def entryEdom (w0 : Nat) : Nat := bits w0 23 16
def entryAddr (w1 : Nat) : Nat := bits w1 51 12 * 4096
def entryLeaf (w0 : Nat) : Bool := bitAt w0 1
def entryRunLen (w0 : Nat) : Nat := bits w0 29 24
def entryRunOfs (w0 : Nat) : Nat := bits w0 35 30
def entryR (w0 : Nat) : Bool := bitAt w0 4
def entryW (w0 : Nat) : Bool := bitAt w0 5
def entryX (w0 : Nat) : Bool := bitAt w0 6
def entryLanding (w0 : Nat) : Nat := bits w0 63 48

/-- The entries that R296 treats as having no valid translation. -/
def entryMalformed (level w0 w1 : Nat) : Bool :=
  let leaf := entryLeaf w0
  let size := bits w0 3 2
  let mclass := entryMclass w0
  let landing := entryLanding w0
  bits w0 47 36 != 0 || bits w0 15 11 != 0 || bitAt w0 7 || bits w1 63 52 != 0 || bits w1 11 0 != 0 ||
  (leaf != (size != 0)) || (leaf && (level == 0 || level + size != 4)) || (!leaf && level == 3) ||
  (leaf && entryAddr w1 % 2 ^ levelBits level != 0) ||
  decide (mclass > 3) || (!leaf && mclass == 2) ||
  (if mclass = 2 then landing == 0 || landing == 0xFFFF else landing != 0) ||
  ((mclass == 0 || mclass == 3) && entryEdom w0 != 0) ||
  decide (entryRunOfs w0 > entryRunLen w0)

/-- What a walk finds: a leaf at a level, no valid translation below a level, an uncorrectable table line, or a table in host
memory while the link is down, which is read once it is up (R442, R443). -/
inductive WalkOut where
  | leaf (w0 w1 level : Nat)
  | bad (level : Nat)
  | ue (line : Nat)
  | down
  deriving DecidableEq, Repr

/-- Read the 16 bytes of a table entry. A table outside a cluster store, an LPDDR5X data range and host memory, or in a fold
slot, is undefined (R293). -/
def State.readEntry (s : State) (cls a edom : Nat) : State × (List Byte ⊕ Nat) :=
  if cls = 3 then (s, .inl (s.hostRead a 16))
  else match addrKind a with
    | .store _ => if s.inFoldSlot (a + 15) then (s.misuse .device, .inl (List.replicate 16 0)) else s.readBytes a 16 edom
    | .data _ => s.readBytes a 16 edom
    | _ => (s.misuse .device, .inl (List.replicate 16 0))

/-- Walk from the table of a level (R292). -/
def State.walk : Nat → State → Nat → Nat → Nat → Nat → Nat → State × WalkOut
  | 0, s, level, _, _, _, _ => (s, .bad level)
  | fuel + 1, s, level, cls, table, edom, va =>
    let a := table + 16 * (va / 2 ^ levelBits level % 256)
    if cls = 3 ∧ !s.hostUp then (s, .down) else
    match s.readEntry cls a edom with
    | (s1, .inr line) => (s1, .ue line)
    | (s1, .inl bs) =>
      let w0 := leNat (bs.take 8)
      let w1 := leNat (bs.drop 8)
      if !bitAt w0 0 || entryMalformed level w0 w1 then (s1, .bad level)
      else if entryLeaf w0 then (s1, .leaf w0 w1 level)
      else State.walk fuel s1 (level + 1) (entryMclass w0) (entryAddr w1) (entryEdom w0) va

/-! ## The run caches (R297, R299, R300) -/

/-- The run a leaf stands for: virtual base, page bits, pages, word 0 and physical base; one page where HINT_EN is 0. -/
def leafRun (hints : Bool) (va w0 w1 level : Nat) : Nat × Nat × Nat × Nat × Nat :=
  let pb := levelBits level
  let base := va / 2 ^ pb * 2 ^ pb
  if hints then
    let back := entryRunOfs w0 * 2 ^ pb
    (base - back, pb, entryRunLen w0 + 1, w0, entryAddr w1 - back)
  else (base, pb, 1, w0, entryAddr w1)

def CachedRun.covers (r : CachedRun) (cluster : Option Nat) (context : BitVec 16) (va : Nat) : Bool :=
  r.cluster == cluster && r.context == context && decide (r.base ≤ va) && decide (va < r.base + r.pages * 2 ^ r.pageBits)

/-- The set of its cache that a run belongs to: the selection is open, over 64 sets of a cluster's cache and 1,024 of the shared
one (R299). -/
def CachedRun.set (r : CachedRun) : Nat :=
  Config.cacheSet r.context.toNat r.base r.pageBits % (if r.cluster = none then 1024 else 64)

/-- Put a run in its cache as the run used last: its set keeps the seven others of its eight ways that were used last (R299). -/
def State.cachePut (s : State) (r : CachedRun) : State :=
  let others := s.cache.filter (fun x => !(x.cluster == r.cluster && x.context == r.context && x.base == r.base && x.pageBits == r.pageBits))
  let near (x : CachedRun) : Bool := x.cluster == r.cluster && x.set == r.set
  { s with cache := r :: (others.filter near).take 7 ++ others.filter (fun x => !near x) }

/-- What a page's resolution gives: its run, no valid translation below a level, an uncorrectable table line, or a wait for
the host link. -/
inductive PageOut where
  | run (r : CachedRun)
  | bad (level : Nat)
  | ue (line : Nat)
  | down
  deriving DecidableEq, Repr

/-- Resolve one virtual address for a context: the cluster's run cache, the shared cache, or a walk (R299, R301). A run
present is used or not, since which translations hit is open (R299, R300). DESIGN CHOICE (log entry 18, safe). -/
def State.resolvePage (s : State) (cluster : Option Nat) (context : BitVec 16) (root : Word) (va : Nat) :
    State × PageOut :=
  let fill (s : State) (r : CachedRun) : State :=
    match cluster with
    | some c => s.cachePut { r with cluster := some c }
    | none => s
  let mine := if cluster = none then none else s.cache.find? (fun r => r.covers cluster context va)
  match mine, Config.cacheHit s.free with
  | some r, true => (State.tick ((s.countReg R_XLT_RC_HIT).cachePut r), .run r)
  | _, _ =>
    let s := if cluster = none then s else State.tick (s.countReg R_XLT_RC_MISS)
    let shared := if s.regBit R_XLT_CTRL 0 then s.cache.find? (fun r => r.covers none context va) else none
    match shared, Config.cacheHit s.free with
    | some r, true => (fill (State.tick ((s.countReg R_XLT_SC_HIT).cachePut r)) r, .run r)
    | _, _ =>
      let s := if s.regBit R_XLT_CTRL 0 then State.tick (s.countReg R_XLT_SC_MISS) else s
      let s := s.countReg R_XLT_WALKS
      match State.walk 4 s 0 (wbits root 1 0) (wbits root 51 12 * 4096) 0 va with
      | (s1, .ue line) => (s1, .ue line)
      | (s1, .down) => (s1, .down)
      | (s1, .bad level) => (s1, .bad level)
      | (s1, .leaf w0 w1 level) =>
        let (base, pb, pages, e0, phys) := leafRun (s1.regBit R_XLT_CTRL 1) va w0 w1 level
        let r : CachedRun := ⟨none, context, base, pb, pages, BitVec.ofNat 64 e0, phys⟩
        let s2 := if s1.regBit R_XLT_CTRL 0 then s1.cachePut r else s1
        (fill s2 r, .run r)

/-! ## Envelopes and run lists (R302, R303) -/

/-- A piece of a translated envelope: its offset from the envelope's start, its length, its place and attributes. -/
structure Piece where
  off : Nat
  bytes : Nat
  place : Place
  cls : Nat
  r : Bool
  w : Bool
  x : Bool
  deriving DecidableEq, Repr

/-- The place `k` bytes further. -/
def Place.plus : Place → Nat → Place
  | .bench c a, k => .bench c (a + k)
  | .dev a d, k => .dev (a + k) d
  | .remote l a d, k => .remote l (a + k) d
  | .host a, k => .host (a + k)

/-- How far from `phys` a piece may reach before it leaves its partition's store or data range (R303). -/
def regionLeft (phys : Nat) : Nat :=
  match addrKind phys with
  | .store _ => storeBytes - phys % storeBytes
  | .data c => dataMib c * 0x100000 - addrOffset phys
  | .reserved _ => protectedBytes - (phys - dramBase) % dramStride
  | .ferry => protectedBytes - (phys - dramBase) % dramStride
  | .window => windowBase + 0x2000000 - phys
  | .unpopulated => 0x10000

/-- An address that lies in memory outside the range its class names: a misuse with context reach (R295). -/
def outsideClass (cls phys : Nat) : Bool :=
  match addrKind phys with
  | .store _ => cls == 1
  | .data _ => cls == 0
  | .reserved _ => cls == 0
  | _ => false

/-- The place a physical address of a class names (R295). -/
def classPlace (w0 phys : Nat) : Place :=
  let c := entryMclass w0
  if c = 2 then .remote (BitVec.ofNat 16 (entryLanding w0)) phys (entryEdom w0)
  else if c = 3 then .host phys
  else .dev phys (entryEdom w0)

/-- What the translation of an envelope gives: pieces, whether some page has no valid translation, an uncorrectable
table line met, and whether the walk waits for the host link. -/
structure Xlated where
  pieces : List Piece
  missing : Bool
  ue : Option Nat
  down : Bool
  deriving DecidableEq, Repr

/-- Translate `[va, hi)` of an envelope that began at `start`. -/
def State.xlate : Nat → State → Option Nat → BitVec 16 → Word → Nat → Nat → Nat → State × Xlated
  | 0, s, _, _, _, _, _, _ => (s, ⟨[], false, none, false⟩)
  | fuel + 1, s, cluster, context, root, start, va, hi =>
    if hi ≤ va then (s, ⟨[], false, none, false⟩) else
    match s.resolvePage cluster context root va with
    | (s1, .ue line) =>
      match State.xlate fuel s1 cluster context root start ((va / 65536 + 1) * 65536) hi with
      | (s2, x) => (s2, { x with ue := some line })
    | (s1, .down) => (s1, ⟨[], false, none, true⟩)
    | (s1, .bad level) =>
      let size := 2 ^ levelBits level
      match State.xlate fuel s1 cluster context root start ((va / size + 1) * size) hi with
      | (s2, x) => (s2, { x with missing := true })
    | (s1, .run r) =>
      let w0 := r.entry0.toNat
      let phys := r.phys + (va - r.base)
      let left := r.base + r.pages * 2 ^ r.pageBits - va
      let left := if entryMclass w0 ≤ 1 then min left (regionLeft phys) else left
      let n := min left (hi - va)
      let p : Piece := ⟨va - start, n, classPlace w0 phys, entryMclass w0, entryR w0, entryW w0, entryX w0⟩
      let s1 := if outsideClass (entryMclass w0) phys then s1.misuse (.context context) else s1
      match State.xlate fuel s1 cluster context root start (va + n) hi with
      | (s2, x) => (s2, { x with pieces := p :: x.pieces })

/-- Translate the envelope `[lo, hi)`. The smallest page is 64 KiB. -/
def State.translate (s : State) (cluster : Option Nat) (context : BitVec 16) (root : Word) (lo hi : Nat) :
    State × Xlated :=
  State.xlate ((hi - lo) / 0x8000 + 4) s cluster context root lo lo hi

/-- Whether a piece continues the one before it in one run (R303). -/
def Piece.follows (p q : Piece) : Bool :=
  q.off == p.off + p.bytes && q.cls == p.cls && q.place == p.place.plus p.bytes &&
  (match p.place, q.place with
   | .dev a _, .dev b _ => addrKind a == addrKind b
   | _, _ => true)

/-- How many runs the pieces merge into (R303). -/
def countRuns : List Piece → Nat
  | [] => 0
  | [_] => 1
  | p :: q :: t => (if p.follows q then 0 else 1) + countRuns (q :: t)

/-- The place of byte `k` of a translated envelope. -/
def placeAt (ps : List Piece) (k : Nat) : Option Place :=
  match ps.find? (fun p => decide (p.off ≤ k) && decide (k < p.off + p.bytes)) with
  | some p => some (p.place.plus (k - p.off))
  | none => none

/-! ## Ranks (R149, R304) -/

/-- The virtual device of a number as this device's roster holds it. -/
def State.vdev? (s : State) (n : BitVec 24) : Option VDev := s.vdevs.find? (fun v => v.number == n)

/-- A member by its logical rank. -/
def VDev.member? (v : VDev) (rank : Nat) : Option Member := v.members.find? (fun m => m.rank == rank)

/-- Whether a physical address may carry a RANK offset for a run of class `cls`. -/
def rankClassOk (cls phys : Nat) : Bool :=
  match addrKind phys with
  | .store _ => cls == 0
  | .data _ => cls == 1
  | _ => false

/-- The place on partition `part` of a device that a RANK piece names, or none where its range passes the end of that
partition's data range (R149, R150). -/
def rankPlace (me landing : Landing) (part : Nat) (p : Piece) : Option Place :=
  match p.place with
  | .dev a d =>
    let off := addrOffset a
    let target := if p.cls = 0 then part * storeBytes + off else dramBase + part * dramStride + off
    if p.cls = 1 ∧ off + p.bytes > dataMib part * 0x100000 then none
    else if landing = me then some (.dev target d)
    else some (.remote landing target d)
  | _ => none

end Sys2Proof.Machine
end

