-- ==== Sys2Proof/Machine/Transport.lean ====
section
/-! DEFINITION. Frames: payload layouts, peers and their associations, sending in a transport stream (R398, R421 to R428,
R431). -/

namespace Sys2Proof.Machine

/-! ## Payload layouts -/

/-- The data extension of WRITE, READ, RDATA and ATOMIC (R426). -/
def dataExtBytes (e : DataExt) : List Byte :=
  leBytes 8 (e.addr.toNat + e.edom.toNat * 2 ^ 48 + e.op.toNat * 2 ^ 56) ++ leBytes 4 e.move.toNat ++
  leBytes 4 e.mstream.toNat ++ leBytes 4 e.ord.toNat ++ leBytes 4 e.prior.toNat ++ leBytes 4 e.len.toNat ++ leBytes 4 0

/-- A composition record (R428). -/
def compBytes (r : CompRecord) : List Byte :=
  [r.op, r.role] ++ leBytes 2 r.landing.toNat ++ [r.part, 0] ++ leBytes 2 r.rank.toNat ++ leBytes 4 r.vdev.toNat ++
  leBytes 4 r.tag.toNat ++ leBytes 4 r.epoch.toNat ++ [r.result, 0, 0, 0] ++ leBytes 4 r.vdLat.toNat ++ leBytes 4 0

/-- A handoff record, without and with its pairs (R431). -/
def handoffHeadBytes (r : HandoffRecord) : List Byte :=
  leBytes 4 r.hid.toNat ++ leBytes 2 r.holder.toNat ++ leBytes 2 r.taker.toNat ++ leBytes 8 r.key.toNat ++
  leBytes 2 r.count.toNat ++ [r.kind, r.info] ++ leBytes 4 r.epoch.toNat ++ leBytes 4 r.vdev.toNat ++ leBytes 4 0

def fabricAddrBytes (a : FabricAddr) : List Byte := leBytes 8 (a.landing.toNat * 2 ^ 48 + a.addr.toNat)

def handoffBytes (r : HandoffRecord) : List Byte :=
  handoffHeadBytes r ++ r.pairs.flatMap (fun p => fabricAddrBytes p.1 ++ fabricAddrBytes p.2)

/-! Frame types (R422). -/

def tyCount : Nat := 0x01
def tyClaim : Nat := 0x02
def tyDefend : Nat := 0x03
def tyHello : Nat := 0x04
def tyWrite : Nat := 0x10
def tyRead : Nat := 0x11
def tyRdata : Nat := 0x12
def tyAtomic : Nat := 0x13
def tyWack : Nat := 0x14
def tySack : Nat := 0x15
def tyRequest : Nat := 0x20
def tyPropose : Nat := 0x21
def tyVote : Nat := 0x22
def tyCommit : Nat := 0x23
def tyAbort : Nat := 0x24
def tyReply : Nat := 0x25
def tySync : Nat := 0x26
def tyOffer : Nat := 0x30
def tyTake : Nat := 0x31
def tyAck : Nat := 0x32
def tyDone : Nat := 0x33
def tyRefuse : Nat := 0x34
def tyReport : Nat := 0x35
def tyDecide : Nat := 0x36
def tyGrant : Nat := 0x40
def tyPartner : Nat := 0x41

/-- Broadcast landing number. -/
def broadcast : Landing := 0xFFFF

/-! ## Peers -/

def State.peer? (s : State) (l : Landing) : Option Peer := s.peers.find? (fun p => p.landing == l)
def State.updPeer (s : State) (l : Landing) (f : Peer → Peer) : State :=
  { s with peers := s.peers.map (fun p => if p.landing = l then f p else p) }

/-- A peer as first heard of. -/
def Peer.fresh (l : Landing) (mac : BitVec 48) (port iface : Nat) : Peer where
  landing := l
  mac := mac
  port := port
  iface := iface
  adjacent := false
  live := false
  lastHeard := 0
  reference := 0
  assoc := none
  usedCounters := []
  frozen := false
  txNext := 0
  txUnacked := []
  rxCum := 0
  rxAhead := []
  rxUnacked := 0
  rxSince := none
  myLats := []
  epochs := []
  txOrds := []
  mstreams := []
  refusals := []

/-- The association number in use (R400). -/
def Assoc.an (a : Assoc) : Nat := a.counter % 4

/-- Whether an interface is up. -/
def State.ifUp (s : State) (port iface : Nat) : Bool := s.regBit (R_LNK_PORT_STATUS + 0x100 * port) (8 + iface)

/-- LNK_PEER_DELAY along a route of `hops` hops whose first hop has a measured path delay in 1/256 ns (R403). -/
def peerDelay (pathDelay hops far : Nat) : Nat :=
  ceilDiv (pathDelay + 20 * 256 * hops + (if 1 < hops then far else 0)) 256 + 60 * (hops - 1)

/-- LNK_PEER_DELAY of a landing number: zero until there is a route whose first hop has been measured (R403). -/
def State.delayTo (s : State) (l : Landing) : Nat := match mapGet none s.routes l.toNat with
  | none => 0
  | some r => match mapGet none s.ptp.delays (8 * r.port + r.iface) with
    | none => 0
    | some d => peerDelay d r.hops (Config.farDelay s.ptp.round l.toNat)

/-- The valid route toward a landing number: a route of the table whose interface is up (R395). -/
def State.egress? (s : State) (l : Landing) : Option (Nat × Nat) :=
  match mapGet none s.routes l.toNat with
  | some r => if s.ifUp r.port r.iface then some (r.port, r.iface) else none
  | none => none

/-- States of discovery in ROS_DISC.STATE (R437). -/
def discNotStarted : Nat := 0
def discCounting : Nat := 1
def discClaiming : Nat := 2
def discSettled : Nat := 3
def discDuplicate : Nat := 4
def State.discState (s : State) : Nat := s.regField R_ROS_DISC 18 16

/-! ## Interfaces (R393, R396, R397) -/

/-- M, LNK_MAC_BASE. -/
def State.macBase (s : State) : Nat := s.regField R_LNK_MAC_BASE 47 0

/-- The MAC address of an interface. -/
def State.macOf (s : State) (p i : Nat) : BitVec 48 := BitVec.ofNat 48 (s.macBase + 8 * p + i)

/-- The IPv6 address of an interface. -/
def State.ip6 (s : State) (p i : Nat) : BitVec 128 :=
  (s.reg (R_LNK_IP6_hi + 0x80 * p + 0x10 * i)) ++ (s.reg (R_LNK_IP6_lo + 0x80 * p + 0x10 * i))

/-! Counters (R407). -/

def ctrFecCw : Nat := 0
def ctrFecUcw : Nat := 1
def ctrRxDrop : Nat := 2
def ctrAuthFail : Nat := 3
def ctrOldAn : Nat := 4
def State.countLink (s : State) (p counter : Nat) : State := s.countReg (R_LNK_FEC_CW + 0x100 * p + 4 * counter)

/-- Corrected codewords are counted (R393). -/
def State.countCorrected (s : State) (a : Arrival) : State :=
  let off := R_LNK_FEC_CW + 0x100 * a.port.val + 4 * ctrFecCw
  s.setReg off (BitVec.ofNat 64 (min 0xFFFFFFFF ((s.reg off).toNat + a.corrected.toNat)))

/-- Whether an interface takes a frame as one of the protocol (R397). -/
def State.takes (s : State) (a : Arrival) : Bool :=
  let p := a.port.val
  let i := a.iface.val
  (a.mac == s.macOf p i || a.mac == BitVec.allOnes 48) && (match a.carrier with
    | .raw t => t == (s.port p).etherType
    | .udp d q => d == s.ip6 p i && q == (s.port p).udpPort
    | .other => false)

/-- Whether a frame carries an IEEE 1588 message (R397). -/
def isPtp (a : Arrival) : Bool := match a.carrier with
  | .raw t => t == 0x88F7
  | .udp _ q => q == 319 || q == 320
  | .other => false

/-- A frame without an uncorrectable codeword arrives, `ok` where the interface takes it; one it does not take is discarded and
counted (R393, R397). -/
def State.receive (s : State) (a : Arrival) (ok : Bool) : State × Bool :=
  if !s.ifUp a.port.val a.iface.val then (s, false)
  else if ok then (s.countCorrected a, true) else ((s.countCorrected a).countLink a.port.val ctrRxDrop, false)

/-! ## Sending -/

/-- The highest packet number, in bits [31:0], sent under the association in use (R502). -/
def Peer.pnUsed (p : Peer) : Nat := match p.assoc with
  | some a => mapGet 0 p.usedCounters a.counter
  | none => 0

/-- Whether a frame can be protected now: the association has packet numbers left. -/
def Peer.canTx (p : Peer) : Bool := p.assoc.isSome && decide (p.pnUsed < 0xFFFFFFFF)

/-- One more packet number is used under the association with a peer. -/
def Peer.countTx (p : Peer) : Peer :=
  match p.assoc with
  | some a => { p with usedCounters := mapPut 0 p.usedCounters a.counter (mapGet 0 p.usedCounters a.counter + 1) }
  | none => p

/-- Whether the device sends frames of every type: with no landing number, or once it has met a duplicate, it sends discovery
frames alone (R408, R411). -/
def State.sendsAll (s : State) : Bool := s.landing != 0 && s.discState != discDuplicate

/-- The bytes of a frame: header and payload (R421). -/
def frameBytes (f : Frame) : List Byte :=
  [1, f.type, f.hops, f.flags] ++ leBytes 2 f.dst.toNat ++ leBytes 2 f.src.toNat ++ leBytes 4 f.seq.toNat ++
  leBytes 2 f.payload.length ++ [0, 0] ++ f.payload

/-- The key and salt of the channel from one landing number to another under counter n (R501). -/
def State.channelKey (s : State) (src dst : Landing) (n : Nat) : List Byte :=
  let a := min src.toNat dst.toNat
  let b := max src.toNat dst.toNat
  hash 44 (s.key.fabric.getD [] ++ leBytes 4 s.tenantEpoch ++ label "sak" ++ leBytes 2 a ++ leBytes 2 b ++ leBytes 4 n ++
    [if src.toNat < dst.toNat then 0 else 1])

/-- The protection of the frame to a peer that takes the packet number used last under its association (R398, R501, R502). -/
def State.protect (s : State) (l : Landing) (f : Frame) : Option SecTag :=
  match s.peer? l with
  | none => none
  | some p => p.assoc.map (fun a =>
      let k := s.channelKey s.landing l a.counter
      let pn := (s.reg R_KEY_START_COUNT).toNat * 2 ^ 32 + p.pnUsed
      ⟨a.an, Config.channelSci s.landing.toNat l.toNat, pn,
        Config.gcmXpnSeal (k.take 32) (k.drop 32) s.landing.toNat pn (frameBytes f)⟩)

/-- The envelope of a frame on an interface (R396, R397). -/
def State.wire (s : State) (p i : Nat) (sec : Option SecTag) : Wire :=
  let c := s.reg (R_LNK_IF_CTRL + 0x100 * p + 4 * i)
  { mac := s.macOf p i
    tag := if c.getLsbD 16 then some (wbits c 31 20, wbits c 19 17) else none
    carrier := if c.getLsbD 0 then .udp (s.ip6 p i) (s.port p).udpPort else .raw (s.port p).etherType
    sec := sec }

/-- Put a frame on an interface. -/
def State.sendOn (s : State) (p i : Nat) (sec : Option SecTag) (f : Frame) : State := s.emit (.frame p i (s.wire p i sec) f)

/-- Put a protected frame on the interface its route names; without a valid route it is lost (R395). -/
def State.transmit (s : State) (l : Landing) (f : Frame) : State :=
  match s.egress? l with
  | some e => if s.sendsAll then s.sendOn e.1 e.2 (s.protect l f) f else s
  | none => s

/-- Send an unprotected broadcast on every interface that is up but one (R412). -/
def State.flood (s : State) (f : Frame) (skip : Option Nat) : State :=
  ((List.range 32).filter (fun k => s.ifUp (k / 8) (k % 8) && skip != some k)).foldl
    (fun s k => s.sendOn (k / 8) (k % 8) none f) s

/-- Send a protected frame of an unsequenced type. Without an association nothing is sent (R398). -/
def State.sendUnseq (s : State) (dst : Landing) (ty : Nat) (payload : List Byte) : State :=
  match s.peer? dst with
  | some p =>
    if !p.canTx then s
    else State.transmit (s.updPeer dst Peer.countTx) dst ⟨BitVec.ofNat 8 ty, 0, 0, dst, s.landing, 0, payload⟩
  | none => s

/-- Send a frame of a sequenced type in the stream to a device, for movement `move` where there is one. Frames beyond
4,096 unacknowledged, and frames without a packet number, wait (R424, R502). -/
def State.sendSeq (s : State) (dst : Landing) (ty flags : Nat) (payload : List Byte) (move : Option Nat) : State :=
  match s.peer? dst with
  | some p =>
    if p.assoc.isNone then s
    else
      let f : Frame := ⟨BitVec.ofNat 8 ty, 0, BitVec.ofNat 8 flags, dst, s.landing, p.txNext, payload⟩
      let room := decide ((p.txUnacked.filter (·.sent)).length < 4096) && p.canTx
      let t : TxFrame := ⟨p.txNext, f, room, s.beat, 0, move⟩
      let s1 := s.updPeer dst (fun p =>
        { (if room then p.countTx else p) with txNext := p.txNext + 1, txUnacked := p.txUnacked ++ [t] })
      if room then s1.transmit dst f else s1
  | none => s

/-- Send to every device of a list but this one. -/
def State.sendAll (s : State) (ds : List Landing) (ty : Nat) (payload : List Byte) : State :=
  ds.foldl (fun s d => if d = s.landing then s else s.sendSeq d ty 0 payload none) s

/-- The devices that carry members of a virtual device (R417). -/
def VDev.devices (v : VDev) : List Landing := (v.members.filterMap (fun m => m.host.map (·.1))).eraseDups

/-- Acknowledge bytes of a movement of another device. -/
def State.sendWack (s : State) (l : Landing) (move bytes : Nat) : State :=
  s.sendSeq l tyWack 0 (leBytes 4 move ++ leBytes 4 bytes) none

/-! ## Frames with a data extension (R426) -/

def addrPartNat (a : Nat) : Nat := match addrPart a with
  | some p => p.val
  | none => 0

/-- Frames of a stream sent so far to a partition of a peer. -/
def Peer.txOrd (p : Peer) (ms : Lane) (part : Nat) : Nat :=
  match p.txOrds.find? (fun x => x.1 == ms && x.2.1 == part) with
  | some x => x.2.2
  | none => 0

/-- One more frame of a stream to a partition. -/
def Peer.countOrd (p : Peer) (ms : Lane) (part : Nat) : Peer :=
  { p with txOrds := (ms, part, p.txOrd ms part + 1) :: p.txOrds.filter (fun x => !(x.1 == ms && x.2.1 == part)) }

def State.txOrd (s : State) (l : Landing) (ms : Lane) (part : Nat) : Nat :=
  match s.peer? l with
  | some p => p.txOrd ms part
  | none => 0

/-- Send a frame with a data extension in a stream; `prior` is given for a last-off write, `owner` for a movement's. -/
def State.sendData (s : State) (l : Landing) (ty : Nat) (ms : Lane) (move addr edom op len : Nat) (prior : Option Nat)
    (payload : List Byte) (owner : Option Nat) : State :=
  let part := addrPartNat addr
  let ext : DataExt := ⟨BitVec.ofNat 48 addr, BitVec.ofNat 8 edom, BitVec.ofNat 6 op, BitVec.ofNat 32 move, ms,
    BitVec.ofNat 32 (s.txOrd l ms part), BitVec.ofNat 32 (prior.getD 0), BitVec.ofNat 32 len⟩
  let s1 := s.sendSeq l ty (if prior.isSome then 1 else 0) (dataExtBytes ext ++ payload) owner
  s1.updPeer l (fun p => p.countOrd ms part)

/-- The most lines of data one WRITE carries, in either encapsulation (R421, R422). -/
def writeLines : Nat := 62

/-! ## Streams of other devices (R279, R281, R426) -/

/-- The ordinals listed for a stream and a destination partition. -/
def ordsOf (l : List (Lane × Nat × List Nat)) (ms : Lane) (part : Nat) : List Nat :=
  match l.find? (fun x => x.1 == ms && x.2.1 == part) with
  | some x => x.2.2
  | none => []
def ordPut (l : List (Lane × Nat × List Nat)) (ms : Lane) (part ord : Nat) : List (Lane × Nat × List Nat) :=
  (ms, part, ord :: ordsOf l ms part) :: l.filter (fun x => !(x.1 == ms && x.2.1 == part))

/-- Record a frame's ordinal as performed, or as squashed. -/
def Peer.perform (p : Peer) (ms : Lane) (part ord : Nat) : Peer := { p with mstreams := ordPut p.mstreams ms part ord }
def Peer.refuse (p : Peer) (ms : Lane) (part ord : Nat) : Peer := { p with refusals := ordPut p.refusals ms part ord }

/-- Whether every frame of a stream below an ordinal has been performed; whether one of them was squashed. -/
def Peer.performedBelow (p : Peer) (ms : Lane) (part prior : Nat) : Bool :=
  (List.range prior).all (fun i => (ordsOf p.mstreams ms part).contains i)
def Peer.refusedBelow (p : Peer) (ms : Lane) (part prior : Nat) : Bool := (ordsOf p.refusals ms part).any (fun i => decide (i < prior))

/-- Discard held writes of other devices: each is answered with WACK of zero bytes, so that its movement is squashed there, and its
ordinal counts as squashed (R281, R289, R525). -/
def State.discardHeld (s : State) (gone : Held → Bool) (part : Held → Nat) : State :=
  let lost := s.held.filter (fun h => h.fromDevice.isSome && gone h)
  lost.foldl (fun s h => match h.fromDevice with
    | some l => State.sendWack (s.updPeer l (fun p => p.refuse h.mstream (part h) h.ord)) l h.move 0
    | none => s) { s with held := s.held.filter (fun h => !(h.fromDevice.isSome && gone h)) }

end Sys2Proof.Machine
end

