-- ==== Sys2Proof/Machine/BlockMap.lean ====
section
/-! DEFINITION. The block map: keys, classes, rings, the resident table, map pages, allocation, freeing, lost sequences
(R207 to R222, R434, R435). -/

namespace Sys2Proof.Machine

/-! ## Keys and entries (R207, R209, R214) -/

/-- A block's name within a slot. -/
structure BlockName where
  slot : Nat
  seq : Nat
  plane : Nat
  block : Nat
  deriving DecidableEq, Repr

/-- The parts of a block key (R209). -/
def keySeq (k : Nat) : Nat := bits k 61 42
def keyPlane (k : Nat) : Nat := bits k 41 34
def keyBlock (k : Nat) : Nat := bits k 33 10
def keyLine (k : Nat) : Nat := bits k 9 0

/-- The first tree block and the first reserved block number (R207). -/
def treeBlock0 : Nat := 0xFFFFF0
def reservedBlock0 : Nat := 0xFFFFF4

/-- Whether a key names a block: bits [63:62] zero and BLOCK not reserved (R209, R220). SEQ 0, which R207 reserves, is taken like any
other sequence. DESIGN CHOICE (log entry 107, unsafe). -/
def keyOk (k : Nat) : Bool := decide (k < 2 ^ 62) && decide (keyBlock k < reservedBlock0)

def blockName (slot k : Nat) : BlockName := ⟨slot, keySeq k, keyPlane k, keyBlock k⟩

/-- An entry other than Free, by its fields (R214). -/
structure BlockEntry where
  cls : Nat
  state : Nat
  loc : Nat
  gen : Nat
  mirrored : Bool
  landing : Nat
  addr : Nat
  deriving DecidableEq, Repr

def stFree : Nat := 0
def stProvisional : Nat := 1
def stCommitted : Nat := 2
def stInTransit : Nat := 3

def BlockEntry.free : BlockEntry := ⟨0, 0, 0, 0, false, 0, 0⟩

def BlockName.word (n : BlockName) : Nat := n.slot * 2 ^ 60 + n.seq * 2 ^ 40 + n.plane * 2 ^ 32 + n.block * 2 ^ 8

/-- The two words of an entry; a Free entry is all zeros. -/
def BlockEntry.words (e : BlockEntry) (n : BlockName) : Word × Word :=
  if e.state = 0 then (0, 0) else
  (BitVec.ofNat 64 (n.word + e.cls * 16 + e.state * 4 + e.loc),
   BitVec.ofNat 64 (e.gen * 2 ^ 56 + (if e.mirrored then 2 ^ 55 else 0) + e.landing * 2 ^ 38 + e.addr / 1024))

def entryOfWords (w0 w1 : Nat) : BlockEntry :=
  ⟨bits w0 7 4, bits w0 3 2, bits w0 1 0, bits w1 63 56, bitAt w1 55, bits w1 53 38, bits w1 37 0 * 1024⟩

/-- The storage word of an entry in a ring's form: landing number, or 0 for this device, and address (R212). -/
def BlockEntry.storage (e : BlockEntry) : Word := BitVec.ofNat 64 (e.landing * 2 ^ 48 + e.addr)

def storageLanding (w : Word) : Nat := wbits w 63 48
def storageAddr (w : Word) : Nat := wbits w 47 0

/-- LOC of a storage word (R214). -/
def storageLoc (w : Word) : Nat :=
  if storageLanding w ≠ 0 then 2
  else match addrKind (storageAddr w) with
    | .store _ => 0
    | _ => 1

/-! ## Classes and rings (R210 to R213) -/

structure ClassRec where
  bsize : Nat
  valid : Bool
  mirror : Bool
  pin : Bool
  mirrorRank : Nat
  ringLog2 : Nat
  ringBase : Nat
  deriving DecidableEq, Repr

def ClassRec.ofBytes (b : List Byte) : ClassRec :=
  let f := (b.getD 1 0).toNat
  ⟨(b.getD 0 0).toNat % 8, bitAt f 0, bitAt f 1, bitAt f 2, leNat ((b.drop 2).take 2) % 2 ^ 14, (b.getD 4 0).toNat,
    leNat ((b.drop 8).take 8)⟩

/-- Usable for an allocation (R224). -/
def ClassRec.usable (c : ClassRec) : Bool := c.valid && c.bsize != 7
def ClassRec.blockBytes (c : ClassRec) : Nat := 2 ^ (10 + c.bsize)
def ClassRec.rowBytes (c : ClassRec) : Nat := c.blockBytes / 16

def slotRegion (slot : Nat) : Nat := backingBase + slot * 0x2000000

/-- The class record as the block-map hardware holds it. -/
def State.classRec (s : State) (slot cls : Nat) : ClassRec :=
  ClassRec.ofBytes (mapRead 0 s.mem (slotRegion slot + 32 * cls) 32)

/-- The map-page ring record of a slot. -/
def State.pageRing (s : State) (slot : Nat) : Nat × Nat :=
  let b := mapRead 0 s.mem (slotRegion slot + 0x200) 32
  ((b.getD 4 0).toNat, leNat ((b.drop 8).take 8))

/-- Whether a ring holds an allocation entry. -/
def State.ringHas (s : State) (base : Nat) : Bool := decide (s.hostNat (base + 8) 8 < s.hostNat base 8)

/-- Take one allocation entry from a ring (R212). DEDUCED (log entry 83, unsafe). -/
def State.ringTake (s : State) (log2 base : Nat) : State × Word :=
  let take := s.hostNat (base + 8) 8
  let e := s.hostNat (base + 0x40 + 8 * (take % 2 ^ log2)) 8
  (s.publish (base + 8) (leBytes 8 (take + 1)) [], BitVec.ofNat 64 e)

/-! ## Map pages (R218) -/

/-- The fault entry of an uncorrectable line in a map page or bucket (R241). -/
def State.mapUe (s : State) (line : Nat) : State :=
  s.addFault { FaultEntry.bare 5 3 with addr := BitVec.ofNat 64 line }

/-- A page, or a place in one, by its fabric address. -/
def pageWord (landing addr : Nat) : Nat := landing * 2 ^ 48 + addr

/-- Entry `i` of a page as it stands in memory; of a page of another device, as this device's writes have left it. -/
def State.pageRaw (s : State) (w i : Nat) : List Byte := mapRead 0 (if w / 2 ^ 48 = 0 then s.mem else s.remotePages) (w + 16 * i) 16

/-- Sixteen bytes of a map page: on this device, or on another as this device's writes have left it (log entry 17). -/
def State.pageRead (s : State) (landing addr : Nat) : State × (List Byte ⊕ Nat) :=
  if landing = 0 then s.readBytes addr 16 0 else (s, .inl (mapRead 0 s.remotePages (pageWord landing addr) 16))

/-- Whether a page lay in the backing and was lost with partition 0 (R247). -/
def State.pageLost (s : State) (w : Nat) : Bool := s.mapLost && decide (w / 2 ^ 48 = 0) && addrKind w == .reserved 0

/-- Sixteen bytes of a page at an offset, from its mirror where the page is lost or its own line is uncorrectable, which has its fault
entry all the same (R241, R247, R434). -/
def State.pageReadMirrored (s : State) (w off : Nat) : State × (List Byte ⊕ Nat) :=
  match if s.pageLost w then (s, .inr (lineOf (w + off))) else s.pageRead (w / 2 ^ 48) (w % 2 ^ 48 + off) with
  | (s1, .inr line) =>
    match mapGet none s1.pageMirrors w with
    | some m => State.pageRead (if s.pageLost w then s1 else s1.mapUe line) (m / 2 ^ 48) (m % 2 ^ 48 + off)
    | none => (s1, .inr line)
  | r => r

/-- The stream of the block map's own frames: no logical core has its number. DESIGN CHOICE (log entry 112, unsafe). -/
def mapStream : Lane := 0xFFF0F000

/-- Lines of a map page on another device go to their home in WRITE frames (R217, R267, R426). -/
def State.pageSend (s : State) (w : Nat) : Nat → State
  | lines =>
    (List.range (ceilDiv lines writeLines)).foldl (fun s i =>
      let a := w + 64 * writeLines * i
      let n := min writeLines (lines - writeLines * i)
      s.sendData (BitVec.ofNat 16 (w / 2 ^ 48)) tyWrite mapStream 0xFFFFFFFF (a % 2 ^ 48) 0 0 0 none (mapRead 0 s.remotePages a (64 * n)) none) s

/-- Write within one line of a map page: the line, where it is uncorrectable, in place of the write (R253). -/
def State.pageWrite (s : State) (landing addr : Nat) (bs : List Byte) : State × Option Nat :=
  if landing = 0 then s.writeBytes addr 0 bs
  else
    let s1 : State := { s with remotePages := mapWrite 0 s.remotePages (pageWord landing addr) bs }
    (s1.pageSend (pageWord landing (lineOf addr)) 1, none)

/-- Write within one line of a page and of its mirror: whether a copy that stands took it. An uncorrectable line has its fault entry
(R217, R241, R434). -/
def State.pagePut (s : State) (w off : Nat) (bs : List Byte) : State × Bool :=
  match s.pageWrite (w / 2 ^ 48) (w % 2 ^ 48 + off) bs with
  | (s1, bad) =>
    let s2 := match bad with
      | some line => s1.mapUe line
      | none => s1
    match mapGet none s2.pageMirrors w with
    | some m =>
      let r := s2.pageWrite (m / 2 ^ 48) (m % 2 ^ 48 + off) bs
      (r.1, bad.isNone || r.2.isNone)
    | none => (s2, bad.isNone)

def bucketAddr (slot i : Nat) : Nat := slotRegion slot + 0x800000 + 16 * (i % 524288)

/-- The first bucket of a span's probe (R218). -/
def bucketHash (seq plane span : Nat) : Nat := (0x9E3B * seq + 0x61 * plane + span) % 524288

/-- Word 0 of a valid bucket for a span. -/
def bucketWord (seq plane span : Nat) : Nat := 2 ^ 63 + seq * 2 ^ 43 + plane * 2 ^ 35 + span * 2 ^ 19

/-- What a probe finds: the page's word, or none with the first free bucket, or an uncorrectable line. -/
inductive Probe where
  | page (w : Nat)
  | absent (bucket : Option Nat)
  | ue (line : Nat)
  deriving DecidableEq, Repr

def State.probe : Nat → State → Nat → Nat → Nat → Option Nat → State × Probe
  | 0, s, _, _, _, free => (s, .absent free)
  | fuel + 1, s, slot, i, want, free =>
    match s.readBytes (bucketAddr slot i) 16 0 with
    | (s1, .inr line) => (s1, .ue line)
    | (s1, .inl bs) =>
      let w0 := leNat (bs.take 8)
      let w1 := leNat (bs.drop 8)
      if w0 = want then (s1, .page (bits w1 63 48 * 2 ^ 48 + bits w1 47 12 * 4096))
      else State.probe fuel s1 slot (i + 1) want (if free = none ∧ !bitAt w0 63 then some i else free)

/-- The mirrored page of a name's span, as the pages' own entries show it. DESIGN CHOICE (log entry 102, unsafe). -/
def State.mirroredPage (s : State) (n : BlockName) : Option Nat :=
  (s.pageMirrors.find? (fun p => p.2.isSome && (List.range 256).any (fun i =>
    let w0 := leNat ((s.pageRaw (if s.pageLost p.1 then p.2.getD 0 else p.1) i).take 8)
    bits w0 3 2 != 0 && w0 / 2 ^ 16 == n.word / 2 ^ 16))).map (·.1)

/-- The page of a name's span. An uncorrectable bucket has its fault entry; past it, and past an index lost with partition 0, only a
mirrored page is found (R218, R241, R247). -/
def State.findPage (s : State) (n : BlockName) : State × Probe :=
  let span := n.block / 256
  if s.mapLost then
    match s.mirroredPage n with
    | some w => (s, .page w)
    | none => (s, .absent none)
  else match State.probe 16 s n.slot (bucketHash n.seq n.plane span) (bucketWord n.seq n.plane span) none with
    | (s1, .ue line) =>
      match s1.mirroredPage n with
      | some w => (s1.mapUe line, .page w)
      | none => (s1.mapUe line, .ue line)
    | r => r

/-! ## The resident table (R217) -/

def residentSet (n : BlockName) : Nat := (n.block + 0x9E37 * n.seq + 0x3B * n.plane + 0x15A2F * n.slot) % 131072

/-- Whether the words of a resident entry hold this name. -/
def sameName (n : BlockName) (e : Word × Word) : Bool := e.1.toNat / 256 == n.word / 256

/-- Whether an entry is of a pinned class. -/
def State.isPinned (s : State) (e : Word × Word) : Bool := (s.classRec (wbits e.1 63 60) (wbits e.1 7 4)).pin

/-- Place an entry first in its set, evicting the least recently used unpinned entry of a full set. A set whose sixteen
entries are all pinned keeps them. -/
def State.residentPut (s : State) (n : BlockName) (e : Word × Word) : State :=
  let k := residentSet n
  let others := (mapGet [] s.resident k).filter (fun x => !sameName n x)
  if others.length < 16 then { s with resident := mapPut [] s.resident k (e :: others) }
  else
    match others.reverse.find? (fun x => !s.isPinned x) with
    | some victim => { s with resident := mapPut [] s.resident k (e :: others.filter (fun x => x != victim)) }
    | none => s

/-- The lines of a set of the resident table, as the window shows it (R249). -/
def residentLines (k : Nat) : List Nat := (List.range 4).map (fun i => windowBase + 256 * k + 64 * i)

/-- Write an entry into its set; an injection armed at a line of the set fires (R261). -/
def State.residentStore (s : State) (n : BlockName) (e : Word × Word) : State :=
  (residentLines (residentSet n)).foldl State.inject (s.residentPut n e)

def State.residentDrop (s : State) (n : BlockName) : State :=
  let k := residentSet n
  { s with resident := mapPut [] s.resident k ((mapGet [] s.resident k).filter (fun x => !sameName n x)) }

/-- How many pinned entries the device holds, and how many one set holds. -/
def State.pinnedCount (s : State) : Nat :=
  s.resident.foldl (fun acc p => acc + (p.2.filter (fun e => s.isPinned e)).length) 0
def State.pinnedInSet (s : State) (n : BlockName) : Nat :=
  ((mapGet [] s.resident (residentSet n)).filter (fun e => s.isPinned e)).length

/-- Whether the resident table holds an entry of a name. -/
def State.isResident (s : State) (n : BlockName) : Bool := (mapGet [] s.resident (residentSet n)).any (sameName n)

/-- What a lookup gives: the entry as it stands, Free where none exists, or an uncorrectable line of the map. -/
inductive Lookup where
  | entry (e : BlockEntry)
  | ue
  deriving DecidableEq, Repr

/-- Look an entry up: the resident table, else its map page (R217 to R219, R241). DEDUCED (log entry 17, unsafe). -/
def State.lookup (s : State) (n : BlockName) : State × Lookup :=
  let s := (residentLines (residentSet n)).foldl State.tableRead s
  match (mapGet [] s.resident (residentSet n)).find? (sameName n) with
  | some e => (s.residentPut n e, .entry (entryOfWords e.1.toNat e.2.toNat))
  | none =>
    match s.findPage n with
    | (s1, .ue _) => (s1, .ue)
    | (s1, .absent _) => (s1, .entry .free)
    | (s1, .page w) =>
      match s1.pageReadMirrored w (16 * (n.block % 256)) with
      | (s2, .inr line) => (s2.mapUe line, .ue)
      | (s2, .inl bs) =>
        let w0 := leNat (bs.take 8)
        let w1 := leNat (bs.drop 8)
        if bits w0 3 2 = 0 then (s2, .entry .free)
        else (s2.residentStore n (BitVec.ofNat 64 w0, BitVec.ofNat 64 w1), .entry (entryOfWords w0 w1))

/-- Change an entry: in the resident table, and through to its map page and the page's mirror (R217, R434). The answer is whether the
map holds the change: a line of the map that is uncorrectable, without a mirror, does not (R241). -/
def State.changeEntry (s : State) (n : BlockName) (e : BlockEntry) : State × Bool :=
  let ws := e.words n
  let s := if e.state = 0 then s.residentDrop n else s.residentStore n ws
  match s.findPage n with
  | (s1, .page w) => s1.pagePut w (16 * (n.block % 256)) (leBytes 8 ws.1.toNat ++ leBytes 8 ws.2.toNat)
  | (s1, .absent _) => (s1, true)
  | (s1, .ue _) => (s1, false)

def State.putEntry (s : State) (n : BlockName) (e : BlockEntry) : State := (s.changeEntry n e).1

/-! ## Mirrors (R221) -/

/-- The slot's virtual device. -/
def State.slotVdev (s : State) (slot : Nat) : Option VDev :=
  s.vdevs.find? (fun v => match v.slot with | some x => x.val == slot | none => false)

/-- The mirror of a storage word: the same offset, in the same kind of memory, of the partition carrying a rank. -/
def State.mirrorOf (s : State) (slot rank : Nat) (w : Word) : Option Word :=
  match s.slotVdev slot with
  | none => none
  | some v =>
    match v.member? rank with
    | some ⟨_, some (l, p), _, _⟩ =>
      let a := storageAddr w
      let target := match addrKind a with
        | .store _ => p * storeBytes + addrOffset a
        | _ => dramBase + p * dramStride + addrOffset a
      some (BitVec.ofNat 64 ((if l = s.landing then 0 else l.toNat) * 2 ^ 48 + target))
    | _ => none

/-! ## Allocation and freeing (R217, R218, R222, R224) -/

/-- A class's bin. -/
def binKey (slot cls : Nat) : Nat := 16 * slot + cls

/-- Take storage for a class: from the bin, most recently freed first, then from the ring. -/
def State.takeBlock (s : State) (slot cls : Nat) (c : ClassRec) : Option (State × Word) :=
  match mapGet [] s.bins (binKey slot cls) with
  | w :: rest => some ({ s with bins := mapPut [] s.bins (binKey slot cls) rest }, w)
  | [] => if s.ringHas c.ringBase then some (s.ringTake c.ringLog2 c.ringBase) else none

/-- Zero a map page. -/
def State.zeroPage (s : State) (w : Nat) : State :=
  if w / 2 ^ 48 = 0 then (s.writeBytes (w % 2 ^ 48) 0 (List.replicate 4096 0)).1
  else State.pageSend { s with remotePages := mapClear s.remotePages w (w + 4096) } w 64

/-- Make sure the span has a map page: take one from the map-page ring, zero it and fill the first free bucket. None
where no page or bucket is available. -/
def State.ensurePage (s : State) (n : BlockName) (c : ClassRec) : Option State :=
  match s.findPage n with
  | (s1, .page _) => some s1
  | (_, .ue _) => none
  | (_, .absent none) => none
  | (s1, .absent (some i)) =>
    let (log2, base) := s1.pageRing n.slot
    if base = 0 ∨ !s1.ringHas base then none
    else
      let (s2, w) := s1.ringTake log2 base
      let page := w.toNat / 4096 * 4096
      let s3 := s2.zeroPage page
      let bs := leBytes 8 (bucketWord n.seq n.plane (n.block / 256)) ++ leBytes 8 page
      let s4 := (s3.writeBytes (bucketAddr n.slot i) 0 bs).1
      match (if c.mirror then s4.mirrorOf n.slot c.mirrorRank (BitVec.ofNat 64 page) else none) with
      | some m => some { s4.zeroPage m.toNat with pageMirrors := mapPut none s4.pageMirrors page (some m.toNat) }
      | none => some s4

/-- Status codes of R225. -/
def sbOk : Nat := 0
def sbExists : Nat := 1
def sbNoBlock : Nat := 2
def sbNoMap : Nat := 3
def sbFull : Nat := 4
def sbState : Nat := 5
def sbClass : Nat := 6
/-- Not a status of R225: the operation met an uncorrectable line of the map, and the jobs concerned end (R241). -/
def sbUe : Nat := 256

/-- A block operation's status where its change of an entry stands, else the map's own fault (R241). -/
def changed (r : State × Bool) (code : Nat) : State × Nat := (r.1, if r.2 then code else sbUe)

/-- Allocate storage for a Free entry and make it Provisional: the status. The order in which FULL, NO_BLOCK and NO_MAP
are found is the model's. -/
def State.allocate (s : State) (n : BlockName) (cls : Nat) : State × Nat :=
  let c := s.classRec n.slot cls
  if !c.usable then (s, sbClass)
  else if s.mapLost then (s, sbNoMap)
  else if c.pin && (decide (s.pinnedCount ≥ 1572864) || decide (s.pinnedInSet n ≥ 16)) then (s, sbFull)
  else if (mapGet [] s.bins (binKey n.slot cls)).isEmpty && !s.ringHas c.ringBase then (s, sbNoBlock)
  else match s.ensurePage n c with
    | none => (s, sbNoMap)
    | some s1 =>
      match s1.takeBlock n.slot cls c with
      | none => (s1, sbNoBlock)
      | some (s2, w) =>
        let mirrored := c.mirror && (s2.mirrorOf n.slot c.mirrorRank w).isSome
        let e : BlockEntry := ⟨cls, stProvisional, storageLoc w, 0, mirrored, storageLanding w, storageAddr w⟩
        changed (s2.changeEntry n e) sbOk

/-- SBNEW on one entry (R223, R224). -/
def State.sbnewOne (s : State) (n : BlockName) (cls : Nat) : State × Nat :=
  if !(s.classRec n.slot cls).usable then (s, sbClass) else
  match s.lookup n with
  | (s1, .ue) => (s1, sbUe)
  | (s1, .entry e) =>
    if e.state = stFree then s1.allocate n cls
    else if e.state = stInTransit then (s1, sbState)
    else if e.cls = cls then (s1, sbOk) else (s1, sbExists)

/-- SBCMT on one entry. -/
def State.sbcmtOne (s : State) (n : BlockName) : State × Nat :=
  match s.lookup n with
  | (s1, .ue) => (s1, sbUe)
  | (s1, .entry e) =>
    if e.state = stProvisional then changed (s1.changeEntry n { e with state := stCommitted }) sbOk
    else if e.state = stFree then (s1, sbState) else (s1, sbOk)

/-- Storage leaves an entry: it waits for the movements and collectives that resolved it (R222). -/
def State.releaseStorage (s : State) (slot : Nat) (e : BlockEntry) : State :=
  let blockers := (s.moves.filter (fun m => m.blocks.contains e.storage.toNat)).map (·.id)
  { s with freed := s.freed ++ [⟨s.nextFreed, slot, e.cls, e.storage, blockers⟩], nextFreed := s.nextFreed + 1 }

/-- SBFREE on one entry. -/
def State.sbfreeOne (s : State) (n : BlockName) : State × Nat :=
  match s.lookup n with
  | (s1, .ue) => (s1, sbUe)
  | (s1, .entry e) =>
    if e.state = stFree then (s1, sbOk)
    else if e.state = stInTransit then (s1, sbState)
    else
      let r := s1.changeEntry n .free
      changed (State.releaseStorage r.1 n.slot e, r.2) sbOk

/-- Run a block operation on every block of a list; the second is whether the map held each change (R241). -/
def sbEach (op : State → BlockName → State × Nat) (ns : List BlockName) (s : State) : State × Bool :=
  ns.foldl (fun acc n =>
    let r := op acc.1 n
    (r.1, acc.2 && r.2 != sbUe)) (s, true)

/-- Commit every Provisional block of a list. -/
def commitAll (ns : List BlockName) (s : State) : State × Bool := sbEach State.sbcmtOne ns s

/-- Free tree blocks 0 to 3 that are not Free. -/
def freeTree (n : BlockName) (s : State) : State × Bool :=
  sbEach State.sbfreeOne ((List.range 4).map (fun i => { n with block := treeBlock0 + i })) s

/-- Whether allocations of a class, for the Free ones of a list of blocks, have to read a ring in host memory while the link is down:
that of the class, where its bin holds too few blocks, or that of map pages, where a span has no page (R212, R218, R442). -/
def State.allocWaits (s : State) (ns : List BlockName) (slot cls : Nat) : Bool :=
  let fresh := ns.filter (fun n => match s.lookup n with
    | (_, .entry e) => e.state == stFree
    | _ => false)
  !s.hostUp && (s.classRec slot cls).usable && !s.mapLost && !fresh.isEmpty &&
  (decide ((mapGet [] s.bins (binKey slot cls)).length < fresh.length) ||
    fresh.any (fun n => match s.findPage n with
      | (_, .absent _) => true
      | _ => false))

/-- Run an operation over `n` consecutive blocks: the first status that is not OK and how many succeeded (R223, R225). -/
def sbRange (op : State → BlockName → State × Nat) : Nat → State → BlockName → Nat → Nat → State × Nat × Nat
  | 0, s, _, code, good => (s, code, good)
  | k + 1, s, n, code, good =>
    match op s n with
    | (s1, c) =>
      sbRange op k s1 { n with block := n.block + 1 } (if code = sbOk ∨ c = sbUe then c else code)
        (if c = sbOk then good + 1 else good)

/-- The status word of R225. -/
def sbStatus (code good : Nat) : Word := BitVec.ofNat 64 (good * 2 ^ 32 + code)

/-- Freed storage goes to the bin, else to the return ring, else is dropped with RET_FULL (R222). -/
def State.binStorage (s : State) (slot cls : Nat) (w : Word) : State :=
  let b := mapGet [] s.bins (binKey slot cls)
  if b.length < 64 then { s with bins := mapPut [] s.bins (binKey slot cls) (w :: b) }
  else
    let c := s.classRec slot cls
    let fill := s.hostNat (c.ringBase + 0x10) 8
    let taken := s.hostNat (c.ringBase + 0x18) 8
    if fill - taken < 2 ^ c.ringLog2 then
      let s1 := s.publish (c.ringBase + 0x40 + 8 * 2 ^ c.ringLog2 + 8 * (fill % 2 ^ c.ringLog2)) (leBytes 8 w.toNat) []
      s1.publish (c.ringBase + 0x10) (leBytes 8 (fill + 1)) []
    else s.addFault { FaultEntry.bare 5 1 with addr := w }

/-! ## Lost sequences (R434, R435) -/

/-- Whether a sequence of a slot is lost, or every one of the slot is. -/
def State.seqLost (s : State) (slot seq : Nat) : Bool :=
  s.lostAll.getLsbD slot ||
  s.lost.toList.any (fun x => match x with
    | some (v, q) => v.val == slot && q.toNat == seq
    | none => false)

/-- Enter a sequence in ROS_LOST; a full table sets LOST_ALL (R435). -/
def State.loseSeq (s : State) (slot : SlotId) (seq : BitVec 20) : State :=
  if s.lost.toList.any (fun x => x == some (slot, seq)) then s
  else match (List.finRange 64).find? (fun i => s.lost[i] == none) with
    | some i => { s with lost := s.lost.set i (some (slot, seq)) }
    | none => { s with lostAll := s.lostAll ||| (1 <<< slot.val) }

/-- Every name and entry other than Free in the block map, from the map pages through the valid buckets of each slot. -/
def State.mapEntries (s : State) : List (BlockName × BlockEntry) :=
  let lo := backingBase
  let keys := (s.mem.filter (fun p => decide (lo ≤ p.1) && decide (p.1 < lo + 16 * 0x2000000) &&
    decide ((p.1 - lo) % 0x2000000 ≥ 0x800000) && decide ((p.1 - lo) % 0x2000000 < 0x1000000))).map (fun p => p.1 / 16 * 16)
  keys.eraseDups.flatMap (fun a =>
    let slot := (a - lo) / 0x2000000
    let w0 := leNat (mapRead 0 s.mem a 8)
    let page := leNat (mapRead 0 s.mem (a + 8) 8)
    if !bitAt w0 63 then [] else
    (List.range 256).filterMap (fun i =>
      let b := s.pageRaw page i
      let e0 := leNat (b.take 8)
      if bits e0 3 2 = 0 then none
      else some (⟨slot, bits e0 59 40, bits e0 39 32, bits e0 31 8⟩, entryOfWords e0 (leNat (b.drop 8)))))

/-- Whether a slot has an entry in a state other than Free (R213, R418). -/
def State.slotHasEntries (s : State) (slot : Nat) : Bool :=
  s.mapEntries.any (fun p => p.1.slot == slot)

end Sys2Proof.Machine
end

