-- ==== Sys2Proof/Machine/HandoffOps.lean ====
section
/-! DEFINITION. What the two ends of a handoff do to the block map, and the answers of mailbox commands (R216, R222, R429 to
R431, R552, R554). -/

namespace Sys2Proof.Machine

/-- Output fields, then RESULT, then DONE, are written into a block, and vector 1 is raised (R552, R554). -/
def State.mailReply (s : State) (block result : Nat) (outputs : List (Nat × List Byte)) : State :=
  let s1 := outputs.foldl (fun s o => s.publish (block + o.1) o.2 []) s
  let s2 := s1.publish (block + 8) (leBytes 2 result) []
  s2.publish (block + 0x0A) (leBytes 1 1) [1]

def hoTaken : Nat := 0
def hoRefused : Nat := 0x20
def hoReturned : Nat := 0x21
def hoBusy : Nat := 0x22

/-- A handoff of a map page (KIND). -/
def Handoff.isPage (h : Handoff) : Bool := h.record.kind == 1

/-- The entries a handoff names. -/
def handoffNames (slot : Nat) (r : HandoffRecord) : List BlockName :=
  (List.range r.count.toNat).map (fun i =>
    let n := blockName slot r.key.toNat
    { n with block := n.block + i })

/-- Whether lookups of some blocks of a key's sequence and plane, given by their first and last, wait for a map page of their span that
is being handed over (R218, R220, R430). -/
def State.spanWaits (s : State) (slot key : Nat) (blocks : List (Nat × Nat)) : Bool :=
  s.handoffsHeld.any (fun h =>
    let k := h.record.key.toNat
    h.isPage && h.slot == slot && keySeq k == keySeq key && keyPlane k == keyPlane key &&
    blocks.any (fun r => decide (r.1 / 256 ≤ keyBlock k / 256) && decide (keyBlock k / 256 ≤ r.2 / 256)))

/-- A place of the fabric as a storage word of this device's block map. -/
def State.fabricWord (s : State) (a : FabricAddr) : Word :=
  BitVec.ofNat 64 ((if a.landing = s.landing then 0 else a.landing.toNat) * 2 ^ 48 + a.addr.toNat)

/-- Each party keeps the outcome of its last 256 handoffs: 0 NEW, 1 OLD. -/
def State.keepOutcome (s : State) (r : HandoffRecord) (outcome : Nat) : State :=
  { s with hoOutcomes := (s.hoOutcomes ++ [(r.hid, r.holder, outcome)]).drop (s.hoOutcomes.length + 1 - 256) }
def State.hoOutcome? (s : State) (hid : Lane) (holder : Landing) : Option Nat :=
  (s.hoOutcomes.find? (fun o => o.1 == hid && o.2.1 == holder)).map (·.2.2)

/-- Entries in transit go back to Committed at their old location (R430). -/
def State.returnEntries (s : State) (slot : Nat) (r : HandoffRecord) : State :=
  if r.kind = 1 then s
  else (handoffNames slot r).foldl (fun s n => match s.lookup n with
    | (s1, .entry e) => if e.state = stInTransit then s1.putEntry n { e with state := stCommitted } else s1
    | (s1, .ue) => s1) s

/-- A handoff ends with the entries where they were. -/
def State.endHandoffOld (s : State) (h : Handoff) (result : Nat) : State :=
  let s1 : State := { s with handoffsHeld := s.handoffsHeld.filter (fun x => x != h) }
  let s2 := (s1.returnEntries h.slot h.record).keepOutcome h.record 1
  let s3 := if result = hoRefused then s2.countReg R_ROS_HO_REFUSED else s2
  s3.mailReply h.block result [(0x30, leBytes 4 h.record.hid.toNat)]

/-- One entry takes its new location: its generation advances and its old storage goes to the bin (R216, R222, R430). -/
def State.takeEntry (slot : Nat) (s : State) (x : BlockName × FabricAddr × Option FabricAddr) : State :=
  match s.lookup x.1 with
  | (s1, .ue) => s1
  | (s1, .entry e) =>
    if e.state ≠ stInTransit then s1
    else
      let w := s1.fabricWord x.2.1
      let second := match x.2.2 with
        | some m => m.landing != 0 || m.addr != 0
        | none => false
      let e1 : BlockEntry := { e with
        state := stCommitted
        gen := (e.gen + 1) % 256
        mirrored := (s1.classRec slot e.cls).mirror && second
        loc := storageLoc w
        landing := storageLanding w
        addr := storageAddr w }
      State.releaseStorage (s1.putEntry x.1 e1) slot e

/-- The bytes of a page as this device's writes leave them, kept for its new place on another device. -/
def State.keepPage (s : State) (old new : Nat) : State :=
  if new / 2 ^ 48 = 0 then s
  else { s with remotePages := mapWrite 0 s.remotePages new ((List.range 256).flatMap (s.pageRaw old)) }

/-- A map page takes its new location in the map index. -/
def State.takePage (s : State) (slot : Nat) (r : HandoffRecord) : State :=
  let n := blockName slot r.key.toNat
  match s.findPage n, r.pairs.head? with
  | (s1, .page w), some p =>
    let page := (s1.fabricWord p.2).toNat
    let lo := bucketAddr slot 0
    let want := bucketWord n.seq n.plane (n.block / 256)
    match ((s1.mem.filter (fun c => decide (lo ≤ c.1) && decide (c.1 < lo + 0x800000))).map (fun c => c.1 / 16 * 16)).find?
        (fun a => leNat (mapRead 0 s1.mem a 8) == want) with
    | some a =>
      let s2 := (s1.writeBytes (a + 8) 0 (leBytes 8 page)).1
      let mirror := match r.mirrors.head? with
        | some m => if m.landing = 0 ∧ m.addr = 0 then none else some (s2.fabricWord m).toNat
        | none => none
      let s3 := s2.keepPage w page
      let s4 := match mirror with
        | some x => s3.keepPage w x
        | none => s3
      { s4 with pageMirrors := mapPut none (mapPut none s4.pageMirrors w none) page mirror }
    | none => s1
  | (s1, _), _ => s1

/-- Whether some movement that resolved an entry under its old generation has not retired (R216). -/
def State.takeBlocked (s : State) (h : Handoff) : Bool :=
  h.record.pairs.any (fun p => s.moves.any (fun m => m.blocks.contains (s.fabricWord p.1).toNat))

/-- The TAKE completes at the new location. -/
def State.endHandoffNew (s : State) (h : Handoff) : State :=
  let s1 : State := { s with handoffsHeld := s.handoffsHeld.filter (fun x => x != h) }
  let s2 := if h.isPage then s1.takePage h.slot h.record
    else ((handoffNames h.slot h.record).zip (h.record.pairs.map (·.2) |>.zip
      ((List.range h.record.pairs.length).map (fun i => h.record.mirrors[i]?)))).foldl (State.takeEntry h.slot) s1
  State.mailReply (State.countReg (s2.keepOutcome h.record 0) R_ROS_HO_TAKEN) h.block hoTaken [(0x30, leBytes 4 h.record.hid.toNat)]

/-- TAKEs that are due complete once the movements that resolved their entries have retired. -/
def State.finishTakes (s : State) : State :=
  (s.handoffsHeld.filter (fun h => h.copied && !s.takeBlocked h)).foldl (fun s h => s.endHandoffNew h) s

/-- A partition that is reset or lost while blocks are copied to it: the taker refuses (R431). -/
def State.refuseCopies (s : State) (p : PartId) : State :=
  let hit (h : Handoff) : Bool := h.state == .copying && (h.record.pairs.any (fun x => addrPart x.2.addr.toNat == some p))
  let s1 := (s.handoffsTaken.filter hit).foldl (fun s h =>
    State.keepOutcome (s.sendSeq h.record.holder tyRefuse 0 (handoffHeadBytes h.record) none) h.record 1) s
  let s2 : State := { s1 with handoffsTaken := s1.handoffsTaken.filter (fun h => !hit h) }
  (s2.handoffsHeld.filter (fun h => hit h && h.record.taker == s.landing)).foldl (fun s h => s.endHandoffOld h hoRefused) s2

end Sys2Proof.Machine
end

