-- ==== Sys2Proof/Machine/Jobs.lean ====
section
/-! DEFINITION. Kernels on cores, the ends of manifests, exceptions, freezes, abandonment, pool failure, partition reset
and stranding (R22 to R24, R62, R63, R73, R82, R92 to R95, R157, R247, R364 to R369, R434, R507 to R509, R516 to R534). -/

namespace Sys2Proof.Machine

/-! ## Partitions and slots (R22 to R24, R418) -/

/-- The partition of this device a place lies in. -/
def Place.part? : Place → Option PartId
  | .bench c _ => some (corePart c)
  | .dev a _ => addrPart a
  | _ => none

/-- Release a slot whose last member has gone: its entries become Free without returning storage, its lost sequences
clear, and the device, contributing no more, drops the roster (R418). -/
def State.releaseSlot (s : State) (v : SlotId) : State :=
  if s.parts.toList.any (fun p => p.slot == some v) then s
  else
    let region := slotRegion v.val
    let s1 := s.zeroRange (region + 0x800000) (region + 0x1000000)
    let s2 := { s1 with
      resident := s1.resident.filterMap (fun p =>
        let l := p.2.filter (fun e => wbits e.1 63 60 != v.val)
        if l.isEmpty then none else some (p.1, l))
      lost := s1.lost.map (fun x => match x with
        | some (w, q) => if w = v then none else some (w, q)
        | none => none)
      lostAll := s1.lostAll &&& ~~~((1 : BitVec 16) <<< v.val)
      vdevs := s1.vdevs.filter (fun d => d.slot != some v) }
    s2

/-- A partition becomes Free and gives up its membership (R24, R32). -/
def State.freePart (s : State) (p : PartId) : State :=
  match (s.part p).slot with
  | some v => State.releaseSlot (s.updPart p (fun x => { x with state := .free, slot := none, rank := 0, store := false })) v
  | none => s.updPart p (fun x => { x with state := .free, rank := 0, store := false })

/-- Whether any kernel runs or is queued on a partition's cores. -/
def State.partBusy (s : State) (p : PartId) : Bool :=
  (partCores p).any (fun c =>
    let x := s.core c
    !x.engine.isEmpty || (match x.phase with
      | .running => true
      | .waiting _ => true
      | .halted => true
      | .ended => false
      | .idle => false
      | .stopped => false))

/-- Whether a movement in flight has an endpoint in a partition. -/
def State.partMoves (s : State) (p : PartId) : Bool :=
  s.moves.any (fun m => m.endpoints.any (fun e => e.part? == some p) || corePart m.core == p)

/-! Composition operations (R428) and their votes (R427). -/

def opJoin : Nat := 1
def opActivate : Nat := 2
def opRehost : Nat := 3
def opLeave : Nat := 4
def opDissolve : Nat := 5

/-! Results of a composition record (R428). -/

def coOk : Nat := 0
def coLimit : Nat := 1
def coNotFree : Nat := 2
def coRankUsed : Nat := 3
def coRankBusy : Nat := 4
def coStateHeld : Nat := 5
def coRole : Nat := 6
def coNotStaging : Nat := 7
def coAborted : Nat := 8

/-- The partitions of this device whose kernel boundary a change waits for (R34, R35, R427). -/
def State.affectedParts (s : State) (r : CompRecord) : List PartId :=
  match s.vdev? r.vdev with
  | none => []
  | some v =>
    let mine (f : Member → Bool) : List PartId := v.members.filterMap (fun m => match m.host with
      | some (l, p) => if l = s.landing ∧ f m then some (partOf p) else none
      | none => none)
    if r.op = BitVec.ofNat 8 opRehost then mine (fun m => m.rank == r.rank.toNat)
    else if r.op = BitVec.ofNat 8 opLeave then mine (fun m => m.host == some (r.landing, r.part.toNat))
    else if r.op = BitVec.ofNat 8 opDissolve then mine (fun _ => true)
    else []

/-- Whether every affected rank is idle or has passed its kernel boundary; one in reset, or that has faulted and runs no
further kernel, is idle (R41, R63). -/
def State.boundaryReached (s : State) (r : CompRecord) : Bool :=
  (s.affectedParts r).all (fun p => !s.partBusy p || (s.part p).state == .resetting || (s.part p).noKernels)

/-- A vote: to the keeper, or counted here where this device is keeper (R427). -/
def State.castVote (s : State) (keeper : Landing) (r : CompRecord) (result : Nat) : State :=
  let r : CompRecord := { r with result := BitVec.ofNat 8 result, vdLat := 0 }
  if keeper = s.landing then
    { s with comps := s.comps.map (fun (c : CompChange) =>
        if c.takenUp && c.record.vdev == r.vdev then
          (if result = coOk then { c with votesOut := c.votesOut.filter (fun l => l != s.landing) } else { c with failed := true })
        else c) }
  else s.sendSeq keeper tyVote 0 (compBytes r) none

/-- Votes that waited for a kernel boundary now reached. DEDUCED (log entry 55, unsafe). -/
def State.castVotes (s : State) : State :=
  (s.proposals.filter (fun (q : Proposal) => !q.voted && s.boundaryReached q.record)).foldl (fun s (q : Proposal) =>
    State.castVote { s with proposals := s.proposals.map (fun (x : Proposal) => if x = q then { x with voted := true } else x) }
      q.keeper q.record 0) s

/-- A partition that a change under way names faults, enters reset or strands before the commit: its device votes against the
change, whatever it has voted (R41). The target of an ACTIVATE or REHOST does so at any fault; `stranded` is the fault that
aborts every change naming the partition. -/
def State.spoilChanges (s : State) (p : PartId) (stranded : Bool) : State :=
  (s.proposals.filter (fun (q : Proposal) => q.record.landing == s.landing && q.record.part.toNat == p.val && (stranded ||
    q.record.op == BitVec.ofNat 8 opActivate || q.record.op == BitVec.ofNat 8 opRehost))).foldl
    (fun s (q : Proposal) => s.castVote q.keeper q.record coAborted) s

/-- A Leaving partition that has finished its last kernel and its transfers becomes Free (R22); votes that waited are cast, and
TAKEs that waited complete. -/
def State.leaveCheck (s : State) (p : PartId) : State :=
  State.finishTakes (State.castVotes (if (s.part p).state = .leaving ∧ !s.partBusy p ∧ !s.partMoves p then s.freePart p else s))

/-! ## Watchdog counts (R520) -/

/-- One end of a kernel on a core, or one retirement. -/
def State.progress (s : State) (p : PartId) : State :=
  match (s.part p).state with
  | .resetting => s
  | .stranded => s
  | _ =>
    let off := R_FLT_PROGRESS + 4 * p.val
    let s := s.setReg off (BitVec.ofNat 64 (((s.reg off).toNat + 1) % 2 ^ 32))
    s.setReg (R_FLT_LAST_RETIRE + 8 * p.val) (BitVec.ofNat 64 s.beat)

/-! ## Kernels on cores (R73, R82, R351) -/

/-- The architectural state at the start of a kernel (R73); the bench content is then undefined (R74). -/
def CoreSt.startKernel (x : CoreSt) (k : KernelSlot) (gen : Nat) (rest : List KernelSlot) : CoreSt :=
  { x with
    s := Vector.replicate 32 0
    p := Vector.replicate 8 false
    v := Vector.replicate 32 (Vector.replicate 256 0)
    d := Vector.replicate 8 0
    acc := []
    pc := 0
    bench := []
    benchGen := gen
    text := k.text
    phase := .running
    kernel := some k
    engine := rest
    collIssued := 0
    collIssuedTeam := 0
    effects := 0
    counters := []
    readBuffer := []
    tollHeld := none
    sync := [] }

/-- Whether a freeze holds a core or its mover (R507, R514). -/
def State.coreFrozen (s : State) (c : CoreId) : Bool := s.regBit (R_KEY_FROZEN + 4 * (corePart c).val) (coreNum c)
def State.moverFrozen (s : State) (c : CoreId) : Bool := s.regBit (R_KEY_FROZEN + 4 * (corePart c).val) (16 + coreNum c)

/-- Whether a core has a kernel at the front of its engine queue that it could start if its position carried it now. -/
def State.canBegin (s : State) (c : CoreId) : Bool :=
  let x := s.core c
  let p := s.part (corePart c)
  (match x.phase with
   | .idle => true
   | .ended => true
   | .stopped => true
   | _ => false) && !x.engine.isEmpty && !p.noKernels && !s.coreFrozen c &&
  (p.state == .active || p.state == .leaving)

/-- What identifies a kernel in an engine queue. -/
def KernelSlot.ident (k : KernelSlot) : Nat × Nat × Nat × Bool := (k.manifest, k.kindex, k.rank, k.shadow)

/-- Whether another core of the same folding position has still to run the kernel this core ended last: the position then
switches to it first (R67). -/
def State.yields (s : State) (c : CoreId) : Bool :=
  let w := (s.part (corePart c)).working
  match (s.core c).last, carrierOf w (coreNum c) with
  | some i, some pos => (carriedBy w pos).any (fun n => n != coreNum c &&
      (s.core (coreIdOf (corePart c) ⟨n % 12, by omega⟩)).engine.any (fun k => k.ident == i))
  | _, _ => false

/-- Whether a core may start the kernel at the front of its engine queue. -/
def State.canStart (s : State) (c : CoreId) : Bool :=
  s.canBegin c && (s.part (corePart c)).onPos (coreNum c) && !s.yields c

/-- A core takes the next kernel from its engine queue (R351). -/
def State.beginKernel (s : State) (c : CoreId) : State :=
  match (s.core c).engine with
  | k :: rest => State.tick (s.updCore c (fun x => x.startKernel k s.free rest))
  | [] => s

def State.startNext (s : State) (c : CoreId) : State := if s.canStart c then s.beginKernel c else s

/-- Every core of a list that may start its next kernel does. DEDUCED (log entry 92, unsafe). -/
def State.startAll (s : State) (cs : List CoreId) : State := cs.foldl State.startNext s

/-! ## Stopping a manifest's kernels (R93, R157) -/

/-- A core gives up every kernel of a manifest: the one running, where `stop` selects the core, and those queued. -/
def CoreSt.dropManifest (x : CoreSt) (id : Nat) : CoreSt :=
  let y := { x with engine := x.engine.filter (fun k => k.manifest != id) }
  match x.kernel with
  | some k => if k.manifest = id ∧ x.phase ≠ .stopped then { y with phase := .idle, kernel := none, readBuffer := [], sync := [] } else y
  | none => y

/-- Held last-off writes whose stream belongs to a manifest of this device are discarded with it (R281). -/
def State.dropHeld (s : State) (keep : Held → Bool) : State := { s with held := s.held.filter keep }

/-- Squash movements and collectives of a manifest: rows not yet moved keep their old bytes (R157). An instance command
remembers the movements, whose writes it waits for (R455). -/
def State.squashManifest (s : State) (id : Nat) : State :=
  let mine := (s.moves.filter (fun m => m.manifest == id)).map (fun (m : Movement) => m.id)
  { s with
    instCmds := s.instCmds.map (fun (c : InstCmd) => match s.manifest? id with
      | some m => if c.berths.contains m.berth then { c with moves := c.moves ++ mine } else c
      | none => c)
    moves := s.moves.filter (fun m => m.manifest != id)
    colls := s.colls.filter (fun m => m.manifest != id)
    held := s.held.filter (fun h => !(h.fromDevice == none && h.stream.manifest == id)) }

/-- Partitions being left may now be Free. -/
def State.leaveChecks (s : State) : State := allParts.foldl State.leaveCheck s

/-- Step 3 of R93: the manifest's kernels stop on every logical core, its movements are squashed, and the cores go on with
other work. -/
def State.stopKernels (s : State) (id : Nat) : State :=
  let s1 := s.squashManifest id
  let s2 := s1.mapCores (fun _ x => x.dropManifest id)
  let s3 := s2.updManifest id (fun m => { m with ranks := m.ranks.map (fun r => { r with inFlight := false, left := 0 }) })
  State.leaveChecks (s3.startAll allCores)

/-! ## Ends of manifests (R349) -/

def stOk : Nat := 0x00
def stRefused : Nat := 0x01
def stException : Nat := 0x02
def stStop : Nat := 0x03
def stLimit : Nat := 0x04
def stDeadline : Nat := 0x05
def stStepRecord : Nat := 0x06
def stDecode : Nat := 0x07
def stRevoked : Nat := 0x08
def stStateLost : Nat := 0x09
def stFault : Nat := 0x0A
def stWaitAbandoned : Nat := 0x0B
def stPartner : Nat := 0x0C

def MPhase.over : MPhase → Bool
  | .ending _ _ => true
  | .recorded => true
  | _ => false

/-- The manifest ends now with a status: its kernels stop, and the completion record follows. -/
def State.endManifest (s : State) (id status detail : Nat) : State :=
  match s.manifest? id with
  | none => s
  | some m =>
    if m.phase.over then s
    else State.updManifest (s.stopKernels id) id (fun m => { m with
      phase := .ending status detail
      ranks := m.ranks.map (fun (r : RankRun) => { r with dropped := true }) })

/-- Whether some rank has yet to pass its kernel boundary: of the two members of a hedge pair, the earlier end counts
(R82, R368). -/
def Manifest.awaitsBoundary (m : Manifest) : Bool :=
  m.ranks.any (fun (r : RankRun) => r.inFlight && !r.dropped &&
    m.ranks.all (fun (q : RankRun) => q.rank != r.rank || q.dropped || decide (q.kindex ≤ r.kindex)))

/-- The manifest ends with a status once every rank has passed its kernel boundary; at once where none runs (R333,
R346). -/
def State.endAtBoundary (s : State) (id status detail : Nat) : State :=
  match s.manifest? id with
  | none => s
  | some m =>
    match m.phase with
    | .ending _ _ => s
    | .recorded => s
    | .stopping _ _ => s
    | .running =>
      if m.awaitsBoundary then
        let s := s.mapCores (fun c x =>
          { x with engine := x.engine.filter (fun k => k.manifest != id || (m.ranks.any (fun r =>
              r.part == (corePart c).val && r.kindex == k.kindex && r.inFlight))) })
        s.updManifest id (fun m => { m with phase := .stopping status detail })
      else s.endManifest id status detail
    | _ => s.endManifest id status detail

/-- The devices other than this one that carry ranks the manifest names (R346). -/
def State.partnerDevices (s : State) (m : Manifest) : List Landing :=
  match s.vdev? m.vdev with
  | none => []
  | some v =>
    ((v.members.filter (fun x => decide (m.rankBase ≤ x.rank) && decide (x.rank < m.rankBase + m.rankCount))).filterMap
      (fun x => x.host.map (·.1))).eraseDups.filter (fun l => l != s.landing)

/-- Send PARTNER to every other copy (R346, R422). -/
def State.sendPartner (s : State) (m : Manifest) (status : Nat) : State :=
  s.sendAll (s.partnerDevices m) tyPartner (leBytes 8 m.tag.toNat ++ leBytes 4 m.vdev.toNat ++ leBytes 1 status)

/-- Set a cause in VOID; the first cause of a promised manifest counts in SUB_VOIDED (R364, R371). -/
def State.voidManifest (s : State) (id : Nat) (cause : BitVec 8) : State :=
  match s.manifest? id with
  | none => s
  | some m =>
    if !m.promised then s
    else
      let s := if m.void &&& 7 = 0 then s.countReg R_SUB_VOIDED else s
      s.updManifest id (fun m => { m with void := m.void ||| cause })

/-- A fault strikes the job: the first uses the replay allowance, a later one sets SECOND_FAULT (R364, R365). -/
def State.useAllowance (s : State) (id : Nat) : State :=
  match s.manifest? id with
  | none => s
  | some m =>
    if m.allowanceUsed then s.voidManifest id 2
    else s.updManifest id (fun m => { m with allowanceUsed := true })

/-- REPLAY_MAX (R371). -/
def State.replayMax (s : State) : Nat := s.regField R_SUB_CTRL 3 0

/-- Whether one member of every named rank of this device has ended every kernel. -/
def Manifest.leadersDone (m : Manifest) : Bool :=
  let n := match m.obj with
    | some o => o.kernels.length
    | none => 0
  m.ranks.all (fun r => m.ranks.any (fun q => q.rank == r.rank && !q.dropped && decide (n ≤ q.kindex)))

/-- Whether every member still in the manifest has ended every kernel: no trailing work (R369). -/
def Manifest.trailersDone (m : Manifest) : Bool :=
  let n := match m.obj with
    | some o => o.kernels.length
    | none => 0
  m.ranks.all (fun r => r.dropped || decide (n ≤ r.kindex))

/-- The leaders of a manifest have ended every kernel: it completes with one run, and a running manifest waits for RUN_END
(R237, R347). -/
def State.leadersEnd (s : State) (m : Manifest) : State :=
  s.updManifest m.id (fun m =>
    if m.running then { m with lastBeat := s.beat, phase := .running } else { m with lastBeat := s.beat, phase := .ending stOk 0, iter := 1 })

/-- What follows a kernel boundary for the manifest: a stop that waited for it, or the manifest's completion, with one run
completed; a copy whose ranks have all gone elsewhere ends too (R38). `led` says that its leaders had ended before, so that the kernel was
trailing work, whose end the next run waits for (R369). -/
def State.boundaryCheck (s : State) (id : Nat) (led : Bool) : State :=
  match s.manifest? id with
  | none => s
  | some m =>
    match m.phase with
    | .stopping st dt => if m.awaitsBoundary then s else s.endManifest id st dt
    | .admitted =>
      if m.ranks.isEmpty then s.leadersEnd m else s
    | .running => if m.leadersDone && !led then s.leadersEnd m else s
    | .admissible =>
      if m.trailersDone then
        State.updManifest { s with admitOrder := s.admitOrder + 1 } id (fun m => { m with readyAt := s.admitOrder, readyBeat := s.beat })
      else s
    | _ => s

/-- Trailing work that no member is left to carry on ends where it stands: its leaders' results are the manifest's (R369). -/
def State.endTrailing (s : State) (id : Nat) : State :=
  match s.manifest? id with
  | none => s
  | some m =>
    if m.trailersDone then s
    else
      let n := match m.obj with
        | some o => o.kernels.length
        | none => 0
      (s.stopKernels id).updManifest id (fun m => { m with
        ranks := m.ranks.map (fun (r : RankRun) => { r with kindex := n, inFlight := false, left := 0 }) })

/-- What one of a manifest's kernels meets ends it with a status; in trailing work it stops what is left of the manifest, whose end
stands (R93, R369). -/
def State.endJob (s : State) (id status detail : Nat) : State :=
  match s.manifest? id with
  | none => s
  | some m => if m.phase.over then s.endTrailing id else s.endManifest id status detail

/-- Whether a manifest may be issued again (R366, R532). -/
def State.mayReplay (s : State) (m : Manifest) : Bool := m.replay && decide (m.replays < s.replayMax)

/-- Abandon the run in progress (R531): kernels stop, the flag word returns to zero, PARTNER goes to the other copies. A manifest
that cannot be replayed completes with FAULT (R532), or with PARTNER where another copy's fault struck it. -/
def State.abandonRun (s : State) (m : Manifest) (fromPartner : Bool) : State :=
  if m.revoked then s.endManifest m.id stRevoked 0
  else
    let s1 := State.useAllowance (s.stopKernels m.id) m.id
    let s2 := s1.updManifest m.id (fun m => { m with
      flags := 0
      effectsDone := []
      ignoreFault := fromPartner
      phase := .abandoned
      ranks := m.ranks.map (fun r => { r with kindex := 0, inFlight := false, left := 0 }) })
    let s3 := if fromPartner then s2 else s2.sendPartner m stFault
    if s3.mayReplay m then s3 else s3.endManifest m.id (if fromPartner then stPartner else stFault) 0

/-- A fault on this device strikes a job: the run in progress is abandoned; a job between runs or not yet started uses up its
allowance, and one that waits to be issued again is restarted by that (R365, R369, R531). -/
def State.abandonJob (s : State) (id : Nat) : State :=
  match s.manifest? id with
  | none => s
  | some m =>
    match m.phase with
    | .stopping st dt => s.endManifest id st dt
    | .admitted => s.useAllowance id
    | .admissible => if 0 < m.iter then State.endTrailing (s.useAllowance id) id else s
    | .runEnd _ _ _ => State.endTrailing (s.useAllowance id) id
    | .ending _ _ => s.endTrailing id
    | .recorded => s.endTrailing id
    | .running => s.abandonRun m false
    | _ => s

/-- Another copy reports FAULT: this one abandons in the same way and takes the fault for its own; before its first kernel there
is nothing to stop, and it goes on as issued again, or completes with PARTNER where it cannot be (R346, R531, R532).
DEDUCED (log entry 101, unsafe). -/
def State.partnerFault (s : State) (id : Nat) : State :=
  match s.manifest? id with
  | none => s
  | some m =>
    let restart (s : State) : State :=
      if s.mayReplay m then s.updManifest id (fun m => { m with replays := m.replays + 1, ignoreFault := true })
      else s.endManifest id stPartner 0
    match m.phase with
    | .stopping st dt => s.endManifest id st dt
    | .waitEvent => restart s
    | .admitted => restart (s.useAllowance id)
    | .admissible => if 0 < m.iter then restart (State.endTrailing (s.useAllowance id) id) else restart s
    | .runEnd _ _ _ => s.abandonRun m true
    | .running => s.abandonRun m true
    | _ => s

/-- The cores of a partition leave a collective. -/
def Coll.dropPart (l : Coll) (part : Nat) : Coll :=
  let gone := l.parts.filter (fun (p : CollPart) => (corePart p.core).val == part)
  { l with retired := l.retired ++ gone.map (fun (p : CollPart) => p.core) }

/-- The movement that performs what a member of a hedge pair left to movement `i`, once that one's member is dropped. -/
def heirOf (moves : List Movement) (gone : List Nat) (i : Nat) : Option Nat :=
  (moves.find? (fun v => v.after == some i && !gone.contains v.id)).map (·.id)

/-- What a movement left to another member it performs itself. -/
def Movement.takeBack (v : Movement) : Movement := match v.spared with
  | some (rows, tolls, toll) => { v with after := none, rowsLeft := v.rowsLeft ++ rows, tollsLeft := tolls, toll := toll, spared := none }
  | none => { v with after := none }

/-- The movements of a dropped member are no more, nor its held writes; an effect that it submitted first, and has not completed, is
performed by another member that has submitted it, or will be (R281, R368, R369). -/
def State.dropMoves (s : State) (id part : Nat) : State :=
  let gone := (s.moves.filter (fun (v : Movement) => v.manifest == id && (corePart v.core).val == part)).map (fun (v : Movement) => v.id)
  let mend (v : Movement) : Movement := match v.after with
    | some i => if !gone.contains i then v
      else if heirOf s.moves gone i = some v.id then v.takeBack else { v with after := heirOf s.moves gone i }
    | none => v
  let s1 : State := { s with
    moves := (s.moves.filter (fun (v : Movement) => !gone.contains v.id)).map mend
    held := s.held.filter (fun (h : Held) => !(h.fromDevice == none && gone.contains h.move)) }
  s1.updManifest id (fun m => { m with effectsDone := m.effectsDone.filterMap (fun e =>
    if gone.contains e.2.2 then (heirOf s.moves gone e.2.2).map (fun j => (e.1, e.2.1, j)) else some e) })

/-- A hardware-class fault strikes a job at one partition: a member of a hedge pair of which another member stands is dropped,
otherwise the job is abandoned (R369, R531). -/
def State.strike (s : State) (id : Nat) (part : Option Nat) : State :=
  match s.manifest? id with
  | none => s
  | some m =>
    let mine : Option RankRun := m.ranks.find? (fun r => some r.part == part && !r.dropped && m.hedges.any (fun h => h.1 == r.rank))
    let other : Option RankRun := match mine with
      | some r => m.ranks.find? (fun (x : RankRun) => x.rank == r.rank && x.part != r.part && !x.dropped)
      | none => none
    match mine, other with
    | some r, some _ =>
      let s1 : State := s.mapCores (fun c x => if (corePart c).val = r.part then x.dropManifest id else x)
      let s2 : State := State.dropMoves { s1 with
        colls := s1.colls.map (fun (l : Coll) => if l.manifest = id then l.dropPart r.part else l) } id r.part
      let s3 := s2.updManifest id (fun m => { m with
        void := m.void ||| 16
        ranks := m.ranks.map (fun (x : RankRun) => if x.part = r.part then { x with dropped := true, inFlight := false } else x) })
      State.leaveChecks ((s3.boundaryCheck id m.leadersDone).startAll allCores)
    | _, _ => s.abandonJob id

/-! ## Exceptions (R92 to R95) -/

def exIllegal : Nat := 0x01
def exRange : Nat := 0x02
def exAlign : Nat := 0x03
def exBranch : Nat := 0x04
def exOperand : Nat := 0x05
def exTranslate : Nat := 0x06
def exBreak : Nat := 0x07
def exStateParity : Nat := 0x10
def exBenchUe : Nat := 0x11
def exTextUe : Nat := 0x12

/-- A position becomes pending retirement, with its entry of source CORE (R62, R71). -/
def State.pendPosition (s : State) (p : PartId) (pos reason : Nat) : State :=
  let s := s.addFault { FaultEntry.bare 1 reason with part := some p.val, position := some pos }
  let s := s.updPart p (fun x => { x with pendingRetire := x.pendingRetire ||| (1 <<< pos) })
  s.publishPending p

/-- The KERNEL entry of an exception (R93, R516). -/
def State.kernelEntry (s : State) (c : CoreId) (k : KernelSlot) (m : Manifest) (code : Nat) : FaultEntry :=
  let p := corePart c
  { FaultEntry.ofManifest (FaultEntry.bare 2 code) m with
    flags := 1
    part := some p.val
    rank := some k.rank
    core := some (coreNum c)
    position := if code = exStateParity ∨ code = exBenchUe then carrierOf (s.part p).working (coreNum c) else none
    objectId := match m.obj with
      | some o => o.objectId
      | none => 0
    pc := (s.core c).pc
    kindex := k.kindex }

/-! ## Pool failure (R434) -/

/-- Jobs that read a sequence restart (R434). -/
def State.restartReaders (s : State) (slot seq : Nat) : State :=
  (s.manifests.filter (fun m => m.vslot.val == slot && m.seqs.contains seq)).foldl (fun s m => s.abandonJob m.id) s

/-- A storage word's mirror, by the entry's class. -/
def State.entryMirror (s : State) (n : BlockName) (e : BlockEntry) : Option Word :=
  s.mirrorOf n.slot (s.classRec n.slot e.cls).mirrorRank e.storage

/-- One entry whose primary lies in a failed pool, or whose mirror alone does. -/
def State.failEntry (gone : Word → Bool) (s : State) (ne : BlockName × BlockEntry) : State :=
  let n := ne.1
  let e := ne.2
  let mirror := if e.mirrored then s.entryMirror n e else none
  if gone e.storage then
    match mirror with
    | some w =>
      if gone w then s.loseSeq (slotOf n.slot) (BitVec.ofNat 20 n.seq)
      else
        let handed := s.handoffsHeld.any (fun h => h.state == .handed && keySeq h.record.key.toNat == n.seq)
        let st := if e.state = stInTransit ∧ !handed then stCommitted else e.state
        let e1 := { e with state := st, mirrored := false, loc := storageLoc w, landing := storageLanding w, addr := storageAddr w }
        State.restartReaders (s.putEntry n e1) n.slot n.seq
    | none => s.loseSeq (slotOf n.slot) (BitVec.ofNat 20 n.seq)
  else
    match mirror with
    | some w => if gone w then s.putEntry n { e with mirrored := false } else s
    | none => s

/-- The buckets of the map indexes that hold anything. -/
def State.bucketsHeld (s : State) : List Nat :=
  let lo := backingBase
  ((s.mem.filter (fun p => decide (lo ≤ p.1) && decide (p.1 < lo + 16 * 0x2000000) &&
    decide ((p.1 - lo) % 0x2000000 ≥ 0x800000) && decide ((p.1 - lo) % 0x2000000 < 0x1000000))).map (fun p => p.1 / 16 * 16)).eraseDups

/-- One map page in a failed pool: its mirror takes its place in the bucket, read and written like any line, or every sequence of its
span is lost. An uncorrectable bucket has its fault entry (R241, R251, R253, R434). -/
def State.failPages (gone : Word → Bool) (s : State) : State :=
  if s.mapLost then s else
  s.bucketsHeld.foldl (fun s a =>
    match s.readBytes a 16 0 with
    | (s1, .inr line) => s1.mapUe line
    | (s1, .inl b) =>
      let w0 := leNat (b.take 8)
      let page := leNat (b.drop 8)
      if bitAt w0 63 && gone (BitVec.ofNat 64 page) then
        match mapGet none s1.pageMirrors page with
        | some m => { (s1.writeBytes (a + 8) 0 (leBytes 8 m)).1 with pageMirrors := mapPut none s1.pageMirrors page none }
        | none => s1.loseSeq (slotOf ((a - backingBase) / 0x2000000)) (BitVec.ofNat 20 (bits w0 62 43))
      else s1) s

/-- The backing is lost with partition 0: a sequence is lost with any block of it that is not mirrored, or whose entry neither the
resident table nor a mirrored page holds; no allocation succeeds (R247). -/
def State.loseMap (s : State) : State :=
  let keeps (ne : BlockName × BlockEntry) : Bool := ne.2.mirrored && (s.isResident ne.1 || (s.mirroredPage ne.1).isSome)
  let s1 := (s.mapEntries.filter (fun ne => !keeps ne)).foldl (fun s ne => s.loseSeq (slotOf ne.1.slot) (BitVec.ofNat 20 ne.1.seq)) s
  { s1 with mapLost := true }

/-- A pool fails: the storage words for which `gone` holds (R434). -/
def State.poolFail (s : State) (gone : Word → Bool) : State :=
  s.mapEntries.foldl (State.failEntry gone) (State.failPages gone s)

/-- Storage of a partition of this device. -/
def inPartStorage (p : PartId) (w : Word) : Bool :=
  storageLanding w == 0 && (match addrKind (storageAddr w) with
    | .store c => c == p.val
    | .data c => c == p.val
    | _ => false)

/-! ## Partition reset (R521, R522) -/

def State.resetStatus (p : PartId) : Nat := R_FLT_RESET_STATUS + 4 * p.val
def State.setStep (s : State) (p : PartId) (step : Nat) : State := s.setRegField (State.resetStatus p) 3 0 step
def State.resetStep (s : State) (p : PartId) : Nat := s.regField (State.resetStatus p) 3 0

/-- A RESET entry for a partition (R517). -/
def resetEntry (p : PartId) (reason flags : Nat) : FaultEntry :=
  { FaultEntry.bare 0x0B reason with part := some p.val, flags := flags }

/-- Manifests with work on a partition: a named rank or a shadow there (R365, R531). -/
def State.workOn (s : State) (p : PartId) : List Manifest :=
  s.manifests.filter (fun m => m.ranks.any (fun r => r.part == p.val && !r.dropped))

/-- The manifests that name a partition or use it as a shadow, whose record is not yet written (R364). -/
def State.namingPart (s : State) (p : PartId) : List Manifest :=
  s.manifests.filter (fun m => m.phase != .recorded && m.ranks.any (fun r => r.part == p.val))

/-- Whether a place lies in a reserved region, whose accesses a reset of its partition only makes wait (R247). -/
def Place.reserved : Place → Bool
  | .dev a _ => match addrKind a with
    | .reserved _ => true
    | _ => false
  | _ => false

/-- Movements of other partitions' cores with an endpoint in the partition are squashed, with an entry of source MOVER, and their jobs
restart; at a reset, one whose endpoint is a reserved region waits in place of that (R157, R247, R525). -/
def State.squashMoves (s : State) (p : PartId) (reason : Nat) : State :=
  (s.moves.filter (fun m => m.endpoints.any (fun e => e.part? == some p && !(reason == 3 && e.reserved)))).foldl (fun s m =>
    match s.manifest? m.manifest with
    | none => { s with moves := s.moves.filter (fun x => x.id != m.id) }
    | some f =>
      let s := s.addFault { FaultEntry.ofManifest (FaultEntry.bare 3 reason) f with
        flags := 1, part := some p.val, core := some (coreNum m.core) }
      State.strike { s with moves := s.moves.filter (fun x => x.id != m.id) } m.manifest (some (corePart m.core).val)) s

/-- Collectives of other partitions' cores that write into the partition go the same way. -/
def State.squashColls (s : State) (p : PartId) (reason : Nat) : State :=
  s.colls.foldl (fun s l =>
    match l.parts.find? (fun (q : CollPart) => corePart q.core != p && !l.retired.contains q.core &&
        q.dest.any (fun r => r.place.part? == some p)), s.manifest? l.manifest with
    | some q, some f =>
      let s := s.addFault { FaultEntry.ofManifest (FaultEntry.bare 3 reason) f with
        flags := 1, part := some p.val, core := some (coreNum q.core) }
      s.strike l.manifest (some (corePart q.core).val)
    | _, _ => s) s

def State.squashInto (s : State) (p : PartId) (reason : Nat) : State := (s.squashMoves p reason).squashColls p reason

/-- What a core waits for, as its engine state shows it: an event ticket or a flag's physical address (R528). -/
def waitTarget : CorePhase → Nat
  | .waiting (.event t _ _ _) => t.toNat
  | .waiting (.flag (.bench _ a) _ _ _ _) => a
  | .waiting (.flag (.dev a _) _ _ _ _) => a
  | .waiting (.flag (.remote _ a _) _ _ _ _) => a
  | .waiting (.flag (.host a) _ _ _ _) => a
  | _ => 0

/-- The 1 KiB engine state of a core (R528). -/
def State.engineState (s : State) (c : CoreId) : List Byte :=
  let x := s.core c
  let k := x.kernel
  let m := k.bind (fun k => s.manifest? k.manifest)
  let st := if s.coreFrozen c then 4 else match x.phase with
    | .idle => 0
    | .stopped => 3
    | .waiting _ => 2
    | _ => 1
  let flight := (s.moves.filter (fun v => v.core == c)).length +
    (s.colls.filter (fun l => l.parts.any (fun q => q.core == c) && !l.retired.contains c)).length
  leBytes 8 (match m with | some m => m.tag.toNat | none => 0) ++ leBytes 4 x.pc.toNat ++
  leBytes 1 (match k with | some k => k.kindex | none => 0) ++ leBytes 1 st ++ leBytes 2 flight ++
  leBytes 8 (match m.bind (fun m => m.obj) with | some o => o.objectId.toNat | none => 0) ++ leBytes 8 (waitTarget x.phase) ++
  leBytes 32 0 ++ x.s.toList.flatMap (fun w => leBytes 8 w.toNat) ++
  leBytes 1 ((List.range 8).foldl (fun acc i => acc + (if (x.p.toList.getD i false) then 2 ^ i else 0)) 0) ++ leBytes 703 0

/-- The manifest records of a partition's salvage (R527). -/
def State.manifestRecords (s : State) (p : PartId) : List Byte :=
  let ms := (s.workOn p).take 64
  let st (m : Manifest) : Nat :=
    if (partCores p).any (fun c => match (s.core c).phase, (s.core c).kernel with
      | .waiting (.event _ _ _ _), some k => k.manifest == m.id
      | _, _ => false) then 2
    else if m.phase = .admitted then 0 else 1
  ms.flatMap (fun m => leBytes 8 m.tag.toNat ++ leBytes 2 (256 * m.berth.val + m.queue.val) ++ leBytes 2 m.context.toNat ++
    leBytes 1 (st m) ++ leBytes 3 0) ++ leBytes (1024 - 16 * ms.length) 0

/-- What salvage keeps of the engines as a reset starts. -/
def State.engineSnapshot (s : State) (p : PartId) : List Byte :=
  s.manifestRecords p ++ (partCores p).flatMap s.engineState

/-- Step 1 of a reset, and the start of step 2, or of step 3 where no salvage is kept (R522, R526). `cause` is the SEQ of
the fault entry that started it, 0 for FLT_RESET; `job` the one that the same fault has struck already. A job that waits to be issued
again is struck by a reset like any other (R365). DEDUCED (log entry 69, unsafe). -/
def State.startReset (s : State) (p : PartId) (cause : Nat) (job : Option Nat) : State :=
  let x := s.part p
  if x.state = .resetting ∨ x.state = .stranded then s
  else
    let status := s.reg (State.resetStatus p)
    let count := (wbits status 31 16 + 1) % 65536
    let snap := s.engineSnapshot p
    let s := s.updPart p (fun x => { x with
      state := .resetting
      snapshot := snap
      returnTo := if x.state = .leaving then .free else x.state
      rehosted := false
      dramReady := false
      resetFaultSeq := cause })
    let s := s.setReg (State.resetStatus p) (BitVec.ofNat 64 (count * 65536 + 1))
    let s := s.setReg (R_FLT_RESET_BEAT + 8 * p.val) (BitVec.ofNat 64 s.beat)
    let s := (s.addFault (resetEntry p 1 2)).arbReset p
    let s := (s.workOn p).foldl (fun s m =>
      if some m.id = job then s else if m.phase = .abandoned then s.useAllowance m.id else s.strike m.id (some p.val)) s
    let s : State := { s with
      moves := s.moves.filter (fun (m : Movement) => corePart m.core != p)
      colls := s.colls.map (fun (c : Coll) => { c with parts := c.parts.filter (fun (q : CollPart) => corePart q.core != p) }) }
    let s := s.discardHeld (fun h => h.place.part? == some p) (fun _ => p.val)
    let s : State := { s with held := s.held.filter (fun (h : Held) => h.place.part? != some p) }
    let s := s.squashInto p 3
    let s := s.poolFail (inPartStorage p)
    let s := ((s.refuseCopies p).spoilChanges p false).castVotes
    if s.regBit R_FLT_CTRL 1 ∧ (s.part (salvageHalfPart p.val)).state ≠ .stranded then s.setStep p 2
    else
      let s := s.addFault (resetEntry p 5 0)
      State.setStep (s.setRegField (State.resetStatus p) 5 5 1) p 3

/-- A hardware-class exception of a position starts a reset where AUTO_RESET is 1 (R521). -/
def State.autoReset (s : State) (p : PartId) (cause : Nat) (job : Option Nat) : State :=
  if s.regBit R_FLT_CTRL 0 then s.startReset p cause job else s

/-- An uncorrectable error of a position's own structures: the position becomes pending and the cores it carries stop, the job
concerned is abandoned, the partition runs no further kernel, and a reset starts where AUTO_RESET is 1 (R62, R63, R521). -/
def State.positionFault (s : State) (c : CoreId) (entry : Nat) (job : Option Nat) : State :=
  let p := corePart c
  let s1 := match carrierOf (s.part p).working (coreNum c) with
    | some pos =>
      let s1 := s.pendPosition p pos 1
      let folded := carriedBy (s1.part p).working pos
      s1.mapCores (fun i y =>
          if corePart i = p ∧ folded.contains (coreNum i) ∧ y.kernel.isSome then { y with phase := .stopped, sync := [] } else y)
    | none => s
  let s2 := s1.updPart p (fun x => { x with noKernels := true })
  let s3 := (s2.spoilChanges p false).castVotes
  let s4 := match job with
    | some id => s3.strike id (some p.val)
    | none => s3
  s4.autoReset p entry job

/-- The save of a logical core under R67 meets a parity error: STATE_PARITY, of the kernel it runs; or of the one it ended last,
whose job is abandoned while it has not ended everywhere. DEDUCED (log entry 28, unsafe). -/
def State.saveFault (s : State) (c : CoreId) : State :=
  let job := match (s.core c).last with
    | some k => (s.manifest? k.1).bind (fun m => if m.phase = .running then some m.id else none)
    | none => none
  s.positionFault c (s.faultSeq + 1) job

/-- A logical core raises an exception (R93 to R95); in trailing work it stops what is left of the manifest, whose end stands (R369). DEDUCED (log entry 28, unsafe). -/
def State.raise (s : State) (c : CoreId) (code : Nat) : State :=
  let x := s.core c
  let p := corePart c
  match x.kernel with
  | none => s
  | some k =>
    match s.manifest? k.manifest with
    | none => s
    | some m =>
      let pc := x.pc
      let s := s.addFault (s.kernelEntry c k m code)
      let entry := s.faultSeq
      let s := s.updCore c (fun x => { x with phase := .stopped, sync := [] })
      if code < 0x10 then
        let s := s.updManifest m.id (fun m => { m with
          excCode := code, excRank := k.rank, excCore := coreNum c, excPc := pc.toNat })
        s.endJob m.id stException code
      else if code = exTextUe then s.strike m.id (some p.val)
      else s.positionFault c entry (some m.id)

/-! ## Stranding (R24, R247, R530) -/

/-- A stranded member leaves its virtual device; its rank is then without a host (R24). -/
def State.unhost (s : State) (landing : Landing) (part : Nat) : State :=
  { s with vdevs := s.vdevs.map (fun v => { v with members := v.members.map (fun m =>
      if m.host = some (landing, part) then { m with host := none, state := .stranded } else m) }) }

/-- Salvage records that wait for a half whose partition is stranded are dropped (R529). -/
def State.dropRecords (s : State) (half : PartId) : State :=
  (allParts.filter (fun q => salvageHalfPart q.val == half && !(s.part q).salvageHeld.isEmpty)).foldl (fun s q =>
    let s := s.addFault (resetEntry q 5 0)
    (s.setRegField (State.resetStatus q) 5 5 1).updPart q (fun x => { x with salvageHeld := [] })) s

/-- A Staging member that is stranded holds no rank that a manifest can run on: its rank is without a host like any
other (R24). A partition becomes Stranded. -/
def State.strand (s : State) (p : PartId) : State :=
  if (s.part p).state = .stranded then s
  else
    let s := if (s.part p).state = .resetting then s else s.startReset p 0 none
    let s := s.addFault (resetEntry p 3 0)
    let s := s.setRegField (State.resetStatus p) 7 7 1
    let s := s.setStep p 0
    let named := s.namingPart p
    let s := s.spoilChanges p true
    let s := (s.unhost s.landing p.val).arbLeave p
    let slot := (s.part p).slot
    let s := s.updPart p (fun x => { x with
      state := .stranded, slot := none, unlisted := x.unlisted ||| x.pendingRetire })
    let s := named.foldl (fun s m => s.voidManifest m.id 4) s
    let s := s.squashInto p 1
    let s := match slot with
      | some v => s.releaseSlot v
      | none => s
    let s := s.dropRecords p
    let s := if p = 0 then s.loseMap else s
    if p = 15 then { s with ferryDown := true } else s

/-! ## Freezes (R507 to R509) -/

/-- A violation: counted, and recorded in an entry of source VIOLATION that names the check and the master (R507).
DEDUCED (log entry 82, unsafe). -/
def State.violation (s : State) (e : FaultEntry) : State := State.addFault (s.countReg R_KEY_VIOLATIONS) e

/-- Freeze a queue (R507). -/
def State.freezeQueue (s : State) (b : BerthId) (q : QueueId) (check : Nat) : State :=
  let x := s.berth b
  let s := s.setBerth b { x with frozen := x.frozen ||| ((1 : BitVec 16) <<< q.val) }
  s.violation { FaultEntry.bare 8 check with flags := 4, bq := some (b.val, q.val), context := x.context }

/-- Freeze the mover of a core for a missing page permission: its manifest completes with FAULT, not replayed (R150,
R507, R509). -/
def State.freezeMover (s : State) (c : CoreId) : State :=
  let p := corePart c
  let off := R_KEY_FROZEN + 4 * p.val
  let s := s.setRegField off (16 + coreNum c) (16 + coreNum c) 1
  match (s.core c).kernel with
  | none => s
  | some k =>
    match s.manifest? k.manifest with
    | none => s
    | some m =>
      let s := s.violation { FaultEntry.ofManifest (FaultEntry.bare 8 2) m with
        flags := 5, part := some p.val, rank := some k.rank, core := some (coreNum c) }
      s.endJob m.id stFault 0

/-- Freeze a logical core and its mover for a permit overdraw (R508, R509). -/
def State.freezeCore (s : State) (c : CoreId) : State :=
  let p := corePart c
  let off := R_KEY_FROZEN + 4 * p.val
  let s := s.setRegField off (16 + coreNum c) (16 + coreNum c) 1
  let s := s.setRegField off (coreNum c) (coreNum c) 1
  let mine := match (s.core c).kernel with
    | some k => s.manifest? k.manifest
    | none => none
  match mine with
  | some m =>
    let s := s.violation { FaultEntry.ofManifest (FaultEntry.bare 8 3) m with
      flags := 5, part := some p.val, core := some (coreNum c) }
    s.endJob m.id stFault 0
  | none => s.violation { FaultEntry.bare 8 3 with flags := 4, part := some p.val, core := some (coreNum c) }

/-! ## Faults of movements (R157, R248, R257, R258, R425) -/

/-- A movement's or engine's uncorrectable line: entry, listing, the job's restart, and the hold of the listed line on its replay where
one is made (R257, R258). -/
def State.memUe (s : State) (id : Nat) (part : Option Nat) (line : Nat) : State :=
  match s.manifest? id with
  | none => State.listUe (s.addFault (memFault 1 ((addrPart line).map (·.val)) line)) line
  | some m =>
    let s := s.addFault { FaultEntry.ofManifest (memFault 1 ((addrPart line).map (·.val)) line) m with flags := 1 }
    let s := (s.listUe line).strike id part
    if (s.ueIndex line).isSome then s.updManifest id (fun m => { m with
        heldLines := if m.phase = .abandoned ∧ !m.heldLines.contains line then m.heldLines ++ [line] else m.heldLines })
    else s

/-- The entry of source MOVER for a squashed movement or collective (R157, R516). -/
def State.moverEntry (s : State) (id : Nat) (core : CoreId) (part : Option Nat) (reason : Nat) : State :=
  match s.manifest? id with
  | none => s
  | some m => s.addFault { FaultEntry.ofManifest (FaultEntry.bare 3 reason) m with
      flags := 1, part := part, core := some (coreNum core) }

/-- A movement squashed with an entry of source MOVER; its job restarts (R157, R425, R525). -/
def State.moverFault (s : State) (id : Nat) (core : CoreId) (part : Option Nat) (reason : Nat) : State :=
  (s.moverEntry id core part reason).strike id (some (corePart core).val)

/-- Whether a manifest has a rank with a hedge shadow. -/
def State.isHedged (s : State) (id : Nat) : Bool := match s.manifest? id with
  | some m => !m.hedges.isEmpty
  | none => false

/-- What one event squashes, as manifest, core and reason: an entry for each movement and collective, and each job, or each member
of a hedge pair, struck once (R157, R368, R425). -/
def State.moverFaults (s : State) (vs : List (Nat × CoreId × Nat)) : State :=
  let s1 := vs.foldl (fun s v => s.moverEntry v.1 v.2.1 none v.2.2) s
  let struck := (vs.map (fun v => (v.1, if s.isHedged v.1 then some (corePart v.2.1).val else none))).eraseDups
  struck.foldl (fun s x => s.strike x.1 x.2) s1

/-- An access to an unpopulated address, or a write to the window: the manifest completes with DECODE (R248, R249). -/
def State.decodeFault (s : State) (id : Nat) (reason addr : Nat) : State :=
  match s.manifest? id with
  | none => s
  | some m =>
    let s := s.addFault { FaultEntry.ofManifest (FaultEntry.bare 4 reason) m with flags := 1, addr := BitVec.ofNat 64 (lineOf addr) }
    s.endJob id stDecode 0

end Sys2Proof.Machine
end

