-- ==== Sys2Proof/Machine/Operands.lean ====
section
/-! DEFINITION. Operands of core instructions: registers, immediates, bench bytes, vector masks, descriptors and the
fields an instruction may not use (R72, R75, R76, R102, R108, R122, R123). -/

namespace Sys2Proof.Machine

/-! ## Registers (R72) -/

/-- Scalar register i; s0 reads as zero. -/
def CoreSt.sreg (x : CoreSt) (i : Fin 32) : Word := if i = 0 then 0 else x.s[i]
/-- Write scalar register i; writes to s0 are discarded. -/
def CoreSt.setS (x : CoreSt) (i : Fin 32) (v : Word) : CoreSt := if i = 0 then x else { x with s := x.s.set i v }
/-- Predicate register i; p0 reads as 1. -/
def CoreSt.preg (x : CoreSt) (i : Fin 8) : Bool := if i = 0 then true else x.p[i]
/-- Write predicate register i; writes to p0 are discarded. -/
def CoreSt.setP (x : CoreSt) (i : Fin 8) (v : Bool) : CoreSt := if i = 0 then x else { x with p := x.p.set i v }
def CoreSt.vreg (x : CoreSt) (i : Fin 32) : Vector Lane 256 := x.v[i]
def CoreSt.setV (x : CoreSt) (i : Fin 32) (v : Vector Lane 256) : CoreSt := { x with v := x.v.set i v }
def CoreSt.dreg (x : CoreSt) (i : Fin 8) : DescWord := x.d[i]
def CoreSt.setD (x : CoreSt) (i : Fin 8) (v : DescWord) : CoreSt := { x with d := x.d.set i v }

/-- The low three bits of a register field, as a predicate or descriptor number. -/
def low3 (i : Fin 32) : Fin 8 := ⟨i.val % 8, by omega⟩
/-- The high two bits of a register field. -/
def high2 (i : Fin 32) : Nat := i.val / 8
def fin32 (n : Nat) : Fin 32 := ⟨n % 32, by omega⟩

/-- The immediate as a two's-complement value of 64 bits (R75). -/
def opImmS (a : CoreOp) : Word := a.imm.signExtend 64
/-- Bits [hi:lo] of the immediate. -/
def opImm (a : CoreOp) (hi lo : Nat) : Nat := bits a.imm.toNat hi lo
def opX (a : CoreOp) (c : CoreSt) : Word := c.sreg a.src1
def opY (a : CoreOp) (c : CoreSt) : Word := c.sreg a.src2

/-! ## Fields that are not used hold zero (R76) -/

def noDst (a : CoreOp) : Bool := a.dst == 0
def noSrc1 (a : CoreOp) : Bool := a.src1 == 0
def noSrc2 (a : CoreOp) : Bool := a.src2 == 0
def noImm (a : CoreOp) : Bool := a.imm == 0
/-- The immediate has no bit set from bit `n` up. -/
def immBelow (a : CoreOp) (n : Nat) : Bool := decide (a.imm.toNat < 2 ^ n)
/-- A register field names one of eight registers: bits [4:3] zero. -/
def isLow3 (i : Fin 32) : Bool := decide (i.val < 8)

/-! ## The bench (R72, R74) -/

def benchSize : Nat := 0x80000

/-- A byte of the bench: as the kernel wrote it, else undefined (R74). DEDUCED (log entry 12, unsafe). -/
def CoreSt.byte (x : CoreSt) (a : Nat) : Byte :=
  match mapGet none x.bench a with
  | some b => b
  | none => Config.benchByte x.benchGen a
def CoreSt.bytes (x : CoreSt) (a n : Nat) : List Byte := (List.range n).map (fun i => x.byte (a + i))
def CoreSt.putBytes (x : CoreSt) (a : Nat) (bs : List Byte) : CoreSt :=
  { x with bench := mapWrite none x.bench a (bs.map some) }
def CoreSt.lane (x : CoreSt) (a : Nat) : Lane := BitVec.ofNat 32 (leNat (x.bytes a 4))

/-! ## Vector masks (R122, R123) -/

/-- The fields of a vector instruction's immediate (R122). -/
def opMe (a : CoreOp) : Bool := a.imm.getLsbD 0
def opVm (a : CoreOp) : Fin 32 := fin32 (opImm a 5 1)
def opSrc3 (a : CoreOp) : Fin 32 := fin32 (opImm a 10 6)

/-- Whether a mask register enables a lane: bit 0 of its lane (R123). -/
def maskBit (v : Vector Lane 256) (l : Fin 256) : Bool := v[l].getLsbD 0

def laneOn (a : CoreOp) (c : CoreSt) (l : Fin 256) : Bool := !opMe a || maskBit (c.vreg (opVm a)) l

/-! ## Tile descriptors (R108, R109) -/

def dAddr (d : DescWord) : Nat := bits d.toNat 18 0
def dRows (d : DescWord) : Nat := bits d.toNat 30 24
def dCols (d : DescWord) : Nat := bits d.toNat 43 32
def dFmt (d : DescWord) : Nat := bits d.toNat 47 44
def dStride (d : DescWord) : Nat := bits d.toNat 82 64
def dSaddr (d : DescWord) : Nat := bits d.toNat 114 96
def dSstride (d : DescWord) : Nat := bits d.toNat 127 115

/-- Replace bits [hi:lo] of a descriptor. -/
def setDesc (d : DescWord) (hi lo v : Nat) : DescWord := BitVec.ofNat 128 (setBits d.toNat hi lo v)

end Sys2Proof.Machine
end

