-- ==== Sys2Proof/Machine/Flags.lean ====
section
/-! DEFINITION. The flag word of a manifest (R182, R184) and how instructions set it. -/

namespace Sys2Proof.Machine

/-- The flag word of the manifest a core runs gains flags; it only ever gains them until the manifest ends (R184). -/
def State.orFlags (s : State) (c : CoreId) (f : FpFlags) : State :=
  if f = 0 then s
  else match (s.core c).kernel with
    | some k => s.updManifest k.manifest (fun m => { m with flags := m.flags ||| f })
    | none => s

/-- The union of the flags of a list of results. -/
def flagsOf {α : Type} (rs : List (α × FpFlags)) : FpFlags := rs.foldl (fun acc r => acc ||| r.2) 0

end Sys2Proof.Machine
end

