-- ==== Sys2Proof/Machine/Run.lean ====
section
/-! DEFINITION. How a logical core runs one instruction: decoding checks, predication, hardware errors, the program
counter, and the end of a kernel (R55, R62, R76 to R84, R95, R169, R170). -/

namespace Sys2Proof.Machine

/-! ## Branch targets (R77, R81) -/

/-- Whether an instruction word is the first of two (R77, R152): OP 0x30 with a defined FUNC. -/
def isTwoWord (w : Word) : Bool := wbits w 5 0 == 0x30 && decide (wbits w 11 6 ≤ 1)

/-- Whether word `t`, counted from the present place, is the first word of an instruction. -/
def isFirstWord : List Word → Nat → Bool
  | [], _ => false
  | _ :: _, 0 => true
  | w :: rest, t + 1 =>
    if isTwoWord w then
      match t, rest with
      | 0, _ => false
      | t' + 1, _ :: rest' => isFirstWord rest' t'
      | _ + 1, [] => false
    else isFirstWord rest t

/-- A word the program counter may reach (R81). -/
def targetOk (text : List Word) (t : Nat) : Bool := decide (t < text.length) && isFirstWord text t

/-! ## The end of a kernel (R82, R237, R347, R368, R369) -/

/-- The kernel has ended on one logical core: the rank's boundary once it has on every core of CORE_MASK (R82). -/
def State.coreEnded (s : State) (p : PartId) (k : KernelSlot) : State :=
  let hit (r : RankRun) : Bool := r.part == p.val
  let s1 := s.updManifest k.manifest (fun m => { m with ranks := m.ranks.map (fun (r : RankRun) =>
    if hit r then
      if r.left ≤ 1 then { r with left := 0, inFlight := false, kindex := r.kindex + 1 } else { r with left := r.left - 1 }
    else r) })
  match s.manifest? k.manifest with
  | some m => if m.ranks.any (fun r => hit r && decide (r.left ≤ 1)) then s1.boundaryCheck k.manifest m.leadersDone else s1
  | none => s1

/-- A kernel ends on a core; the core takes its next kernel (R82, R351, R520). -/
def State.endKernel (s : State) (c : CoreId) : State :=
  match (s.core c).kernel with
  | none => s
  | some k =>
    let s1 := s.updCore c (fun x => { x with
      phase := .idle, kernel := none, last := some k.ident, readBuffer := [], tollHeld := none })
    let s2 := State.coreEnded (s1.progress (corePart c)) (corePart c) k
    State.leaveCheck (s2.startNext c) (corePart c)

/-- Whether a core's movements have retired and its earlier instructions have completed, so that KEND completes (R82):
no instruction waits in its unit queue, no movement of the core is in flight and no collective waits for its part. -/
def State.coreQuiet (s : State) (c : CoreId) : Bool :=
  (s.core c).sync.isEmpty && !s.moves.any (fun m => m.core == c) &&
  !s.colls.any (fun l => l.parts.any (fun p => p.core == c) && !l.retired.contains c)

/-- Add to a counter of a core that a kernel reads, modulo 2^64 (R484). -/
def CoreSt.countUp (x : CoreSt) (i n : Nat) : CoreSt :=
  { x with counters := mapPut 0 x.counters i (mapGet 0 x.counters i + BitVec.ofNat 64 n) }

/-! ## One instruction -/

/-- What an instruction's operation answers. -/
inductive Body where
  /-- Its results are written and the next word follows. -/
  | next (s : State)
  /-- It branches to a word offset, taken modulo 2^64. -/
  | jump (s : State) (target : Word)
  /-- It has not completed: the core stays at it. -/
  | stay (s : State)
  /-- It waits at a wait point (R170). -/
  | wait (s : State) (w : WaitFor)
  /-- It raises an exception. -/
  | exc (code : Nat)
  /-- It has ended its kernel, its manifest or the core's running. -/
  | done (s : State)

/-- The program counter advances past an instruction of `n` words; a fall-through past the text raises BRANCH (R81).
DEDUCED (log entry 26, unsafe). -/
def State.advance (s : State) (c : CoreId) (n : Nat) : State :=
  let x := s.core c
  let t := x.pc.toNat + n
  if targetOk x.text t then s.updCore c (fun x => { x with pc := BitVec.ofNat 32 t }) else s.raise c exBranch

/-- A corrected bench read: counted for the position; the one that passes the threshold has an entry and makes it pending, were it
pending already or not (R62, R65). -/
def State.benchCorrected (s : State) (c : CoreId) : State :=
  let p := corePart c
  match carrierOf (s.part p).working (coreNum c) with
  | none => s
  | some pos =>
    let n := mapGet 0 (s.part p).benchCorrected pos + 1
    let s1 := s.updPart p (fun x => { x with benchCorrected := mapPut 0 x.benchCorrected pos n })
    if n = s1.ceLimit + 1 then s1.pendPosition p pos 2 else s1

/-- Apply what an instruction of `n` words answered. A job that the instruction's own accesses have stopped goes no
further. -/
def State.applyBody (s : State) (c : CoreId) (n : Nat) : Body → State
  | .next t =>
    if (t.core c).phase = .running ∧ (t.core c).kernel = (s.core c).kernel then t.advance c n else t
  | .jump t target =>
    if targetOk (s.core c).text target.toNat then
      t.updCore c (fun x => { x with pc := BitVec.ofNat 32 target.toNat })
    else s.raise c exBranch
  | .stay t => t
  | .wait t w =>
    if (t.core c).phase = .running ∧ (t.core c).kernel = (s.core c).kernel then
      t.updCore c (fun x => { x with phase := .waiting w }) else t
  | .exc code => s.raise c code
  | .done t => t

/-- The program exception that an instruction's own rules or its branch raise, which have lower codes than a hardware error met
with them (R81, R95). -/
def Body.fault (b : Body) (x : CoreSt) : Option Nat := match b with
  | .exc code => some code
  | .jump _ target => if targetOk x.text target.toNat then none else some exBranch
  | _ => none

/-- The hardware exception an upset raises, for an instruction that does or does not access the bench. -/
def upsetCode (u : Upset) (bench : Bool) : Option Nat :=
  match u, bench with
  | .parity, _ => some exStateParity
  | .benchUe, true => some exBenchUe
  | _, _ => none

/-- The description of an instruction: its length in words, whether it is v2 (R90), whether it reads a bench line on a core as it
stands (R55), and whether its fields are legal (R76 and the instruction's own rules on its fields). -/
structure Form where
  words : Nat
  v2 : Bool
  bench : CoreSt → Bool
  legal : Bool

/-- Whether the object of the running kernel is in compatibility mode (R90). -/
def State.compat (s : State) (c : CoreId) : Bool :=
  match (s.core c).kernel with
  | some k => match s.manifest? k.manifest with
    | some m => match m.obj with
      | some o => o.version == 1
      | none => false
    | none => false
  | none => false

/-- Whether the encoding raises ILLEGAL whatever the predicate holds (R76, R77, R79, R90). -/
def State.illegal (s : State) (c : CoreId) (f : Form) : Bool :=
  !f.legal || (f.v2 && s.compat c) || (f.words == 2 && (s.core c).pc.toNat + 1 == (s.core c).text.length)

/-- Run an instruction whose core dispatches it: the decoding checks, the predicate, then its operation (R79, R95). -/
def State.runInstr (s : State) (a : CoreOp) (f : Form) (body : State → CoreSt → Body) : State :=
  let c := a.core
  let x := s.core c
  if x.phase ≠ .running || s.coreFrozen c || !(s.part (corePart c)).onPos (coreNum c) then s
  else if s.illegal c f then s.raise c exIllegal
  else if a.pe && !x.preg a.pred then s.advance c f.words
  else
    let b := body s x
    match (b.fault x).or (upsetCode a.upset (f.bench x)) with
    | some code => s.raise c code
    | none =>
      let t := s.applyBody c f.words b
      if a.upset = .benchCorrected ∧ f.bench x then t.benchCorrected c else t

/-- An instruction of the movement-with-synchronisation unit: it starts at once where that unit's queue is empty and nothing holds it;
otherwise it takes an entry and dispatch goes on, and a full queue stalls dispatch (R53, R145, R169). DEDUCED (log entry 43, unsafe). -/
def queued (kind : SyncKind) (a : CoreOp) (body : State → CoreSt → Body) (s : State) (x : CoreSt) : Body :=
  let entry (t : State) : Body := .next (t.updCore a.core (fun y => { y with sync := y.sync ++ [⟨kind, a, x.pc, x.s⟩] }))
  if x.sync.isEmpty then
    match body s x with
    | .stay t => entry t
    | b => b
  else if 32 ≤ x.sync.length then .stay s
  else entry s

/-- An instruction of that unit which holds dispatch until it completes: it starts once the entries before it have (R169, R170). -/
def inTurn (body : State → CoreSt → Body) (s : State) (x : CoreSt) : Body := if x.sync.isEmpty then body s x else .stay s

/-- An instruction that changes only its core's own registers and bench. -/
def pureBody (c : CoreId) (g : CoreSt → CoreSt) : State → CoreSt → Body := fun s _ => .next (s.updCore c g)

/-- A scalar, predicate or vector instruction with no exception of its own. -/
def runPure (a : CoreOp) (f : Form) (g : CoreSt → CoreSt) (s : State) : Answer :=
  whenOn (fun s => s.runInstr a f (pureBody a.core g)) s

/-- An instruction with an operation of any kind. DEDUCED (log entry 25, unsafe). -/
def runCore (a : CoreOp) (f : Form) (body : State → CoreSt → Body) (s : State) : Answer :=
  whenOn (fun s => s.runInstr a f body) s

/-- As `runCore`, where the operation can meet a misuse that is undefined. -/
def runChecked (a : CoreOp) (f : Form) (body : State → CoreSt → Body) (s : State) : Answer :=
  whenChecked (fun s => s.runInstr a f body) s

/-- A v1 instruction of one word that does not access the bench. -/
def plainForm (legal : Bool) : Form := ⟨1, false, fun _ => false, legal⟩
/-- One that reads the bench, as a write of less than a whole line does (R55). -/
def benchForm (legal : Bool) : Form := ⟨1, false, fun _ => true, legal⟩
/-- One that reads the bench where `reads` holds: a write of whole lines reads nothing (R55). -/
def storeForm (legal : Bool) (reads : CoreSt → Bool) : Form := ⟨1, false, reads, legal⟩

end Sys2Proof.Machine
end

