-- ==== Sys2Proof/Machine/Toll.lean ====
section
/-! DEFINITION. Toll units, the buckets of a booth, payment and metering (R474 to R478, R508). -/

namespace Sys2Proof.Machine

/-- The most units one piece covers (R475). -/
def tollPieceMax : Nat := 1024

/-- A cost in pieces of at most 1,024 units, in order (R475); `fuel` bounds their number. -/
def tollPiecesAux : Nat → Nat → List Nat
  | 0, _ => []
  | fuel + 1, units => if units = 0 then [] else min units tollPieceMax :: tollPiecesAux fuel (units - min units tollPieceMax)
def tollPieces (units : Nat) : List Nat := tollPiecesAux (units / tollPieceMax + 1) units

/-- The array steps that make an MMA heavy (R120, R474). -/
def heavySteps : Nat := 64

/-! ## The buckets (R476) -/

def boothDepth (s : State) (p : PartId) : Nat := s.regField (R_PWR_BOOTH + 16 * p.val) 23 0
def boothWeight (s : State) (p : PartId) : Nat := s.regField (R_PWR_BOOTH + 16 * p.val) 31 24
def reserveDepth (s : State) (p : PartId) : Nat := s.regField (R_PWR_RESERVE + 16 * p.val) 23 0
def reserveWatts (s : State) (p : PartId) : Nat := s.regField (R_PWR_RESERVE + 16 * p.val) 31 24
def budgetW (s : State) : Nat := s.regField R_PWR_GRANT 47 32
def heldFloorW (s : State) : Nat := s.regField R_PWR_GRANT 63 48
def sumReserve (s : State) : Nat := allParts.foldl (fun acc p => acc + reserveWatts s p) 0
/-- ΣWEIGHT over the partitions that are not stranded. -/
def sumWeight (s : State) : Nat :=
  allParts.foldl (fun acc p => if (s.part p).state = .stranded then acc else acc + boothWeight s p) 0

/-- Both buckets of a booth as they stand now. The rates are in units per beat: a watt is one unit per ns. The estimate of
the power that tolls do not govern is open (R479). -/
def State.tollRefill (s : State) (p : PartId) : State :=
  let x := s.part p
  let dt := s.beat - x.tollBeat
  let b := budgetW s
  let other := (Config.needW s.free).toNat
  let total := sumReserve s
  let reserve := if heldFloorW s ≤ b then dt * reserveWatts s p
    else if total = 0 then 0 else dt * reserveWatts s p * (b - other) / total
  let pool := b - other - total
  let weight := sumWeight s
  let general := if weight = 0 then 0 else dt * pool * boothWeight s p / weight
  State.tick (s.setPart p { x with
    tollBeat := s.beat
    tollReserved := min (x.tollReserved + reserve) (reserveDepth s p)
    tollGeneral := min (x.tollGeneral + general) (boothDepth s p) })

/-- Every booth's buckets as they stand now, before their rates change. -/
def State.refillAll (s : State) : State := allParts.foldl State.tollRefill s

/-- Set both buckets full (R476). -/
def State.tollFull (s : State) (p : PartId) : State :=
  s.updPart p (fun x => { x with tollBeat := s.beat, tollReserved := reserveDepth s p, tollGeneral := boothDepth s p })

/-- Pay a piece: from the reserved bucket for promised work where its level is at least the cost, otherwise from the
general bucket where its level is at least zero; none where neither can (R477). A promised piece that the reserved bucket
could not pay counts (R478). -/
def State.tollPay (s : State) (p : PartId) (promised : Bool) (cost : Nat) : Option State :=
  let s := s.tollRefill p
  let x := s.part p
  if promised ∧ (cost : Int) ≤ x.tollReserved then
    some (s.setPart p { x with tollReserved := x.tollReserved - cost })
  else if 0 ≤ x.tollGeneral then
    let t := s.setPart p { x with tollGeneral := x.tollGeneral - cost }
    some (if promised then t.countReg (R_PWR_RSV_SHORT + 16 * p.val) else t)
  else none

/-! ## Metering (R508) -/

/-- Units granted to a core. -/
def State.tollGrant (s : State) (c : CoreId) (units : Nat) : State :=
  s.updPart (corePart c) (fun x => { x with
    tollGranted := mapPut 0 x.tollGranted (coreNum c) (mapGet 0 x.tollGranted (coreNum c) + units) })

/-- Whether a core is overdrawn: performed beyond granted by more than 1,024 units. -/
def State.overdrawn (s : State) (c : CoreId) : Bool :=
  let x := s.part (corePart c)
  decide (mapGet 0 x.tollGranted (coreNum c) + 1024 < mapGet 0 x.tollPerformed (coreNum c))

/-- Units a core's heavy operation performs; an overdrawn core freezes. -/
def State.tollPerform (s : State) (c : CoreId) (units : Nat) : State :=
  if units = 0 then s
  else
    let t := s.updPart (corePart c) (fun x => { x with
      tollPerformed := mapPut 0 x.tollPerformed (coreNum c) (mapGet 0 x.tollPerformed (coreNum c) + units) })
    if t.overdrawn c then t.freezeCore c else t

end Sys2Proof.Machine
end

