-- ==== Sys2Proof/Machine/Access.lean ====
section
/-! DEFINITION. Accesses to resolved places: what stands in the way of one, reading and writing bytes there, and what
follows when it fails (R24, R157, R246 to R249, R257, R442, R525). -/

namespace Sys2Proof.Machine

/-- What stands in the way of an access to bytes of this device's memory. -/
inductive Trouble where
  /-- The partition is Stranded (R157). -/
  | stranded
  /-- The partition is Resetting (R525). -/
  | resetting
  /-- A reserved region in a partition that is Resetting: the access waits (R247). -/
  | waits
  /-- An unpopulated address or the Ferryman area (R248). -/
  | decode
  /-- A write to the block map window (R249). -/
  | window
  /-- A fold slot, or a write to the backing or a salvage half: undefined (R68, R246). -/
  | misuse (reach : Reach)
  /-- Host memory while the link is down (R442). -/
  | hostDown
  deriving DecidableEq, Repr

/-- Trouble of an access to `n` bytes of one region of the physical address map. A Free, Staging or Leaving partition serves it: R22 names
no outcome of an access it would not serve. DESIGN CHOICE (log entry 103, unsafe). -/
def State.regionTrouble (s : State) (a n : Nat) (write : Bool) : Option Trouble :=
  let st (c : Nat) : PartState := (s.part (partOf c)).state
  match addrKind a with
  | .store c =>
    if st c = .stranded then some .stranded
    else if st c = .resetting then some .resetting
    else if s.inFoldSlot (a + n - 1) then some (.misuse (.partition (partOf c))) else none
  | .data c =>
    if st c = .stranded then some .stranded else if st c = .resetting then some .resetting else none
  | .reserved c =>
    if st c = .stranded then some .stranded
    else if write then some (.misuse .device)
    else if st c = .resetting then some .waits else none
  | .window => if write then some .window else none
  | .ferry => some .decode
  | .unpopulated => some .decode

/-- The parts of `[a, a + n)` in the regions of the physical address map (R242, R243). -/
def regionParts : Nat → Nat → Nat → List (Nat × Nat)
  | 0, _, _ => []
  | fuel + 1, a, n =>
    if n = 0 then [] else
    let k := min n (regionLeft a)
    (a, k) :: regionParts fuel (a + k) (n - k)

/-- Trouble of an access to `n` bytes at a device physical address: the first that a part of it meets (R246, R248). -/
def State.devTrouble (s : State) (a n : Nat) (write : Bool) : Option Trouble :=
  (regionParts (n / 0x10000 + 4) a n).findSome? (fun p => s.regionTrouble p.1 p.2 write)

/-- Trouble of an access to `n` bytes of another device, as this device knows it before a frame is sent: a peer declared dead carries
stranded members (R157, R413), and the address map of every device is the same (R242, R246, R248, R249). What the other device alone
knows its answer tells (R525). DEDUCED (log entry 51, unsafe). -/
def State.remoteTrouble (s : State) (l : Landing) (a n : Nat) (write : Bool) : Option Trouble :=
  if s.peers.any (fun p => p.landing == l && !p.live) then some .stranded
  else (regionParts (n / 0x10000 + 4) a n).findSome? (fun p => match addrKind p.1 with
    | .ferry => some .decode
    | .unpopulated => some .decode
    | .window => if write then some .window else none
    | .reserved _ => if write then some (.misuse .device) else none
    | _ => none)

/-- Trouble of an access to `n` bytes at a place. -/
def State.trouble (s : State) (p : Place) (n : Nat) (write : Bool) : Option Trouble :=
  match p with
  | .bench _ _ => none
  | .dev a _ => s.devTrouble a n write
  | .remote l a _ => s.remoteTrouble l a n write
  | .host _ => if s.hostUp then none else some .hostDown

/-- The address of a place, as fault entries name it. -/
def Place.addr : Place → Nat
  | .bench _ a => a
  | .dev a _ => a
  | .remote _ a _ => a
  | .host a => a

/-- The accesses of promised work wait on the reserved region of a partition that is Resetting: the reset uses up the replay
allowance, once (R247). DEDUCED (log entry 40, unsafe). -/
def State.waitOn (s : State) (id : Nat) (p : PartId) : State :=
  match s.manifest? id with
  | some m =>
    let mark := (p.val, s.regField (State.resetStatus p) 31 16)
    if m.promised && !m.waitedOn.contains mark then
      State.updManifest (s.useAllowance id) id (fun m => { m with waitedOn := mark :: m.waitedOn })
    else s
  | none => s

/-- What follows for the job when an access of a core's instruction or movement meets trouble: nothing is moved. The
accesses that wait use up the replay allowance of promised work (R247). -/
def State.troubleFault (s : State) (c : CoreId) (id : Nat) (t : Trouble) (p : Place) : State :=
  match t with
  | .stranded => s.moverFault id c (p.part?.map (·.val)) 1
  | .resetting => s.moverFault id c (p.part?.map (·.val)) 3
  | .waits => match p.part? with
    | some q => s.waitOn id q
    | none => s
  | .decode => s.decodeFault id 5 p.addr
  | .window => s.decodeFault id 6 p.addr
  | .misuse r => s.misuse r
  | .hostDown => s.strike id (some (corePart c).val)

/-- Read `n` bytes at a place of this device or its host: the bytes, or the uncorrectable line met. -/
def State.placeRead (s : State) (p : Place) (n : Nat) : State × (List Byte ⊕ Nat) :=
  match p with
  | .bench c a => (s, .inl ((s.core c).bytes a n))
  | .dev a d => s.readBytes a n d
  | .host a => (s, .inl (s.hostRead a n))
  | .remote _ _ _ => (s, .inl [])

/-- Write bytes at a place of this device or its host: the uncorrectable line a partial write met, if any. -/
def State.placeWrite (s : State) (p : Place) (bs : List Byte) : State × Option Nat :=
  match p with
  | .bench c a => (s.updCore c (fun x => x.putBytes a bs), none)
  | .dev a d => s.writeBytes a d bs
  | .host a => (s.hostPut a bs, none)
  | .remote _ _ _ => (s, none)

/-- The destinations of R279: a bench, a partition's memory on a device, host memory. -/
inductive Dest where
  | bench (core : CoreId)
  | part (landing : Landing) (part : Nat)
  | host
  deriving DecidableEq, Repr

def Place.dest (me : Landing) : Place → Dest
  | .bench c _ => .bench c
  | .dev a _ => .part me (match addrPart a with
    | some p => p.val
    | none => 0)
  | .remote l a _ => .part l (match addrPart a with
    | some p => p.val
    | none => 0)
  | .host _ => .host

/-- Whether a scope covers the home at a place, for a core (R270). -/
def scopeCovers (scope : Nat) (c : CoreId) (p : Place) : Bool :=
  match p with
  | .bench _ _ => decide (1 ≤ scope)
  | .dev _ _ => if p.part? == some (corePart c) then decide (2 ≤ scope) else decide (3 ≤ scope)
  | .remote _ _ _ => decide (4 ≤ scope)
  | .host _ => decide (5 ≤ scope)

end Sys2Proof.Machine
end

