-- ==== Sys2Proof/Machine/Ledger.lean ====
section
/-! DEFINITION. Tickets, ledger entries, binding and release, and event words (R322 to R332). -/

namespace Sys2Proof.Machine

/-! ## Entries (R322 to R325) -/

/-- The ledger's L, where LDG_BASE enables it. -/
def State.ledgerLog2 (s : State) : Option Nat :=
  let n := s.regField R_LDG_BASE 4 0
  if 4 ≤ n ∧ n ≤ 20 then some n else none

def State.ledgerBase (s : State) : Nat := s.regField R_LDG_BASE 51 12 * 4096

/-- A ledger entry by its fields. -/
structure LedgerEntry where
  addr : Nat
  loc : Nat
  device : Nat
  hosts : Nat
  abandoned : Bool
  shared : Bool
  released : Bool
  type : Nat
  context : Nat
  deriving DecidableEq, Repr

/-- The entry at an address, by its two words. -/
def LedgerEntry.ofWords (addr w0 w1 : Nat) : LedgerEntry where
  addr := addr
  loc := bits w0 51 0
  device := bits w1 63 40
  hosts := bits w1 39 24
  abandoned := bitAt w1 20
  shared := bitAt w1 21
  released := bitAt w1 22
  type := bits w1 19 16
  context := bits w1 15 0

/-- The entry a ticket names: INDEX is not 0 and within the ledger, and GEN matches (R322). -/
def State.ticketEntry (s : State) (t : Lane) : Option LedgerEntry :=
  match s.ledgerLog2 with
  | none => none
  | some l =>
    let i := bits t.toNat 19 0
    if i = 0 ∨ 2 ^ l ≤ i then none
    else
      let a := s.ledgerBase + 16 * i
      let w0 := s.hostNat a 8
      if bits w0 63 52 = bits t.toNat 31 20 then some (LedgerEntry.ofWords a w0 (s.hostNat (a + 8) 8)) else none

/-- Whether an EVENT entry's LOC is well formed: bit 2 clear and the class not 0b10 (R325). -/
def LedgerEntry.eventOk (e : LedgerEntry) : Bool := e.type == 4 && !bitAt e.loc 2 && bits e.loc 1 0 != 2

/-- The event entry a ticket names. -/
def State.eventEntry (s : State) (t : Lane) : Option LedgerEntry :=
  match s.ticketEntry t with
  | some e => if e.eventOk then some e else none
  | none => none

/-- Where the event word lies. Device words are under domain 0. DEDUCED (log entry 15, unsafe). -/
def LedgerEntry.place (e : LedgerEntry) : Place :=
  let a := bits e.loc 51 3 * 8
  if bits e.loc 1 0 = 3 then .host a else .dev a 0

/-! ## Binding and release (R327 to R329) -/

def ldgMemory : Nat := 1
def ldgCode : Nat := 2
def ldgRun : Nat := 3
def ldgEvent : Nat := 4

/-- Whether an entry binds for a context as a type. -/
def LedgerEntry.binds (e : LedgerEntry) (want ctx : Nat) : Bool :=
  e.type == want && (want != ldgEvent || e.eventOk) && !e.released && decide (0 < e.hosts) &&
  (e.context == ctx || (e.shared && want != ldgCode && want != ldgRun)) && decide (e.device < 0xFFFFFF)

/-- Bind a ticket: DEVICE_COUNT rises by one; none where it does not bind. -/
def State.bindTicket (s : State) (want ctx : Nat) (t : Lane) : Option State :=
  match s.ticketEntry t with
  | none => none
  | some e =>
    if e.binds want ctx then
      some ((s.hostPutNat (e.addr + 8) 8 (s.hostNat (e.addr + 8) 8 + 2 ^ 40)).countReg R_LDG_BINDS)
    else none

/-- The release ring, where it is enabled: base and size. -/
def State.releaseRing (s : State) : Option (Nat × Nat) :=
  let n := s.regField R_LDG_REL_BASE 4 0
  if 6 ≤ n ∧ n ≤ 16 then some (s.regField R_LDG_REL_BASE 51 12 * 4096, 2 ^ n) else none

/-- Write a ticket to the release ring, or set REL_OVERFLOW where it is full or disabled (R329). -/
def State.releaseTicket (s : State) (t : Lane) : State :=
  match s.releaseRing with
  | none => s.setRegField R_LDG_STATUS 0 0 1
  | some (base, size) =>
    let produced := s.hostNat base 8
    if size ≤ produced - s.hostNat (base + 8) 8 then s.setRegField R_LDG_STATUS 0 0 1
    else State.publish (s.publish (base + 0x40 + 4 * (produced % size)) (leBytes 4 t.toNat) []) base (leBytes 8 (produced + 1)) []

/-- Return one count of a ticket: where both counts are then zero, RELEASED is set in the same operation and the ticket
goes to the release ring (R328, R329). -/
def State.returnTicket (s : State) (t : Lane) : State :=
  let a := s.ledgerBase + 16 * bits t.toNat 19 0
  let e := LedgerEntry.ofWords a (s.hostNat a 8) (s.hostNat (a + 8) 8)
  let w1 := s.hostNat (a + 8) 8 - 2 ^ 40
  if e.device ≤ 1 ∧ e.hosts = 0 then
    State.releaseTicket (State.countReg (s.hostPutNat (a + 8) 8 (setBits w1 22 22 1)) R_LDG_RELEASES) t
  else s.hostPutNat (a + 8) 8 w1

/-- Mark an event abandoned (R332). -/
def State.abandonEntry (s : State) (e : LedgerEntry) : State :=
  s.hostPutNat (e.addr + 8) 8 (setBits (s.hostNat (e.addr + 8) 8) 20 20 1)

/-! ## Event words (R165, R331) -/

/-- Read an event word or a flag: eight bytes at a place. -/
def State.wordRead (s : State) (p : Place) : State × (Word ⊕ Nat) :=
  match s.placeRead p 8 with
  | (s1, .inl bs) => (s1, .inl (BitVec.ofNat 64 (leNat bs)))
  | (s1, .inr line) => (s1, .inr line)

/-- Write an event word or a flag. -/
def State.wordWrite (s : State) (p : Place) (w : Word) : State × Option Nat := s.placeWrite p (leBytes 8 w.toNat)

/-- Add to an event word atomically, modulo 2^64. -/
def State.wordAdd (s : State) (p : Place) (w : Word) : State × Option Nat :=
  match s.wordRead p with
  | (s1, .inl x) => s1.wordWrite p (x + w)
  | (s1, .inr line) => (s1, some line)

/-- Whether a manifest names a ticket as a binding or as an event (R331). -/
def Manifest.namesTicket (m : Manifest) (t : Lane) : Bool :=
  m.bindings.contains t || m.waitEvent == t || m.signalEvent == t

end Sys2Proof.Machine
end

