-- ==== Sys2Proof/Machine/Scalar.lean ====
section
/-! DEFINITION. Scalar instructions: arithmetic, moves, compares, predicates, bench loads and stores, branches, kernel
control and special values (R96 to R104). -/

namespace Sys2Proof.Machine

/-! ## OP 0x00 and 0x01, ALU and ALUI (R97, R98) -/

/-- A shift amount, y[5:0]. -/
def shamt (y : Word) : Nat := wbits y 5 0

/-- Signed minimum and maximum. -/
def sMin (x y : Word) : Word := if BitVec.slt x y then x else y
def sMax (x y : Word) : Word := if BitVec.slt x y then y else x
def uMin (x y : Word) : Word := if x < y then x else y
def uMax (x y : Word) : Word := if x < y then y else x

/-- Unsigned and signed division with their defined results for zero and overflow (R97). -/
def divU (x y : Word) : Word := if y = 0 then BitVec.allOnes 64 else x / y
def divS (x y : Word) : Word := if y = 0 then BitVec.allOnes 64 else BitVec.sdiv x y
def remU (x y : Word) : Word := if y = 0 then x else x % y
def remS (x y : Word) : Word := if y = 0 then x else BitVec.srem x y

/-- High halves of the 128-bit products. -/
def mulHighU (x y : Word) : Word := BitVec.ofNat 64 (x.toNat * y.toNat / 2 ^ 64)
def mulHighS (x y : Word) : Word := BitVec.ofInt 64 (x.toInt * y.toInt / 2 ^ 64)

def clzW (x : Word) : Word := BitVec.ofNat 64 (leadZeros x.toNat 64)
def ctzW (x : Word) : Word := BitVec.ofNat 64 (trailZerosFrom x.toNat 0 64)
def popcW (x : Word) : Word := BitVec.ofNat 64 (popCount x.toNat 64)

/-- An ALU instruction of two registers. -/
def alu2 (a : CoreOp) (f : Word → Word → Word) (s : State) : Answer :=
  runPure a (plainForm (noImm a)) (fun c => c.setS a.dst (f (opX a c) (opY a c))) s

/-- An ALU instruction of one register; SRC2 zero. -/
def alu1 (a : CoreOp) (f : Word → Word) (s : State) : Answer :=
  runPure a (plainForm (noSrc2 a && noImm a)) (fun c => c.setS a.dst (f (opX a c))) s

def execAdd (a : CoreOp) (s : State) : Answer := alu2 a (fun x y => x + y) s
def execSub (a : CoreOp) (s : State) : Answer := alu2 a (fun x y => x - y) s
def execAnd (a : CoreOp) (s : State) : Answer := alu2 a (fun x y => x &&& y) s
def execOr (a : CoreOp) (s : State) : Answer := alu2 a (fun x y => x ||| y) s
def execXor (a : CoreOp) (s : State) : Answer := alu2 a (fun x y => x ^^^ y) s
def execAndn (a : CoreOp) (s : State) : Answer := alu2 a (fun x y => x &&& ~~~y) s
def execSll (a : CoreOp) (s : State) : Answer := alu2 a (fun x y => x <<< shamt y) s
def execSrl (a : CoreOp) (s : State) : Answer := alu2 a (fun x y => x >>> shamt y) s
def execSra (a : CoreOp) (s : State) : Answer := alu2 a (fun x y => x.sshiftRight (shamt y)) s
def execMin (a : CoreOp) (s : State) : Answer := alu2 a sMin s
def execMax (a : CoreOp) (s : State) : Answer := alu2 a sMax s
def execMinu (a : CoreOp) (s : State) : Answer := alu2 a uMin s
def execMaxu (a : CoreOp) (s : State) : Answer := alu2 a uMax s
def execMul (a : CoreOp) (s : State) : Answer := alu2 a (fun x y => x * y) s
def execMulhu (a : CoreOp) (s : State) : Answer := alu2 a mulHighU s
def execMulhs (a : CoreOp) (s : State) : Answer := alu2 a mulHighS s
def execDivu (a : CoreOp) (s : State) : Answer := alu2 a divU s
def execDivs (a : CoreOp) (s : State) : Answer := alu2 a divS s
def execRemu (a : CoreOp) (s : State) : Answer := alu2 a remU s
def execRems (a : CoreOp) (s : State) : Answer := alu2 a remS s
def execClz (a : CoreOp) (s : State) : Answer := alu1 a clzW s
def execCtz (a : CoreOp) (s : State) : Answer := alu1 a ctzW s
def execPopc (a : CoreOp) (s : State) : Answer := alu1 a popcW s

/-- The ALU functions ALUI has: 0x00 to 0x0C and 0x10. -/
def aluFunc (func : Nat) : Option (Word → Word → Word) :=
  match func with
  | 0x00 => some (fun x y => x + y)
  | 0x01 => some (fun x y => x - y)
  | 0x02 => some (fun x y => x &&& y)
  | 0x03 => some (fun x y => x ||| y)
  | 0x04 => some (fun x y => x ^^^ y)
  | 0x05 => some (fun x y => x &&& ~~~y)
  | 0x06 => some (fun x y => x <<< shamt y)
  | 0x07 => some (fun x y => x >>> shamt y)
  | 0x08 => some (fun x y => x.sshiftRight (shamt y))
  | 0x09 => some sMin
  | 0x0A => some sMax
  | 0x0B => some uMin
  | 0x0C => some uMax
  | 0x10 => some (fun x y => x * y)
  | _ => none

/-- Whether FUNC is one of the shifts, whose IMM[32:6] must be zero. -/
def isShift (func : Nat) : Bool := decide (6 ≤ func) && decide (func ≤ 8)

/-- ALUI: y is IMM sign-extended; SRC2 zero; every other FUNC raises ILLEGAL (R98). -/
def aluiLegal (a : CoreOp) (func : Nat) : Bool :=
  noSrc2 a && (aluFunc func).isSome && (!isShift func || immBelow a 6)

def execAlui (a : CoreOp) (func : Fin 64) (s : State) : Answer :=
  runPure a (plainForm (aluiLegal a func.val)) (fun c => match aluFunc func.val with
    | some f => c.setS a.dst (f (opX a c) (opImmS a))
    | none => c) s

/-! ## OP 0x02, MOV (R99) -/

def execMovi (a : CoreOp) (s : State) : Answer :=
  runPure a (plainForm (noSrc1 a && noSrc2 a)) (fun c => c.setS a.dst (opImmS a)) s

/-- MOVH: d[63:32] = IMM[31:0]; d[31:0] = x[31:0]. -/
def execMovh (a : CoreOp) (s : State) : Answer :=
  runPure a (plainForm (noSrc2 a && immBelow a 32))
    (fun c => c.setS a.dst (BitVec.ofNat 64 (opImm a 31 0 * 2 ^ 32 + wbits (opX a c) 31 0))) s

/-- SEL: x if predicate IMM[2:0] holds 1, else y. -/
def selPred (a : CoreOp) : Fin 8 := ⟨opImm a 2 0 % 8, Nat.mod_lt _ (by decide)⟩

def execSel (a : CoreOp) (s : State) : Answer :=
  runPure a (plainForm (immBelow a 3))
    (fun c => c.setS a.dst (if c.preg (selPred a) then opX a c else opY a c)) s

/-! ## OP 0x03 and 0x04, CMP and CMPI (R100) -/

/-- The comparison a FUNC names. -/
def cmpFunc (func : Nat) : Option (Word → Word → Bool) :=
  match func with
  | 0 => some (fun x y => x == y)
  | 1 => some (fun x y => x != y)
  | 2 => some (fun x y => BitVec.slt x y)
  | 3 => some (fun x y => !BitVec.slt x y)
  | 4 => some (fun x y => decide (x < y))
  | 5 => some (fun x y => !decide (x < y))
  | _ => none

def execCmp (a : CoreOp) (func : Fin 64) (s : State) : Answer :=
  runPure a (plainForm (noImm a && isLow3 a.dst && (cmpFunc func.val).isSome)) (fun c => match cmpFunc func.val with
    | some f => c.setP (low3 a.dst) (f (opX a c) (opY a c))
    | none => c) s

def execCmpi (a : CoreOp) (func : Fin 64) (s : State) : Answer :=
  runPure a (plainForm (noSrc2 a && isLow3 a.dst && (cmpFunc func.val).isSome)) (fun c => match cmpFunc func.val with
    | some f => c.setP (low3 a.dst) (f (opX a c) (opImmS a))
    | none => c) s

/-! ## OP 0x05, PLOG (R101) -/

/-- A predicate function of P1 and P2. -/
def plog (a : CoreOp) (f : Bool → Bool → Bool) (s : State) : Answer :=
  runPure a (plainForm (noImm a && isLow3 a.dst && isLow3 a.src1 && isLow3 a.src2))
    (fun c => c.setP (low3 a.dst) (f (c.preg (low3 a.src1)) (c.preg (low3 a.src2)))) s

def execPand (a : CoreOp) (s : State) : Answer := plog a (fun p q => p && q) s
def execPor (a : CoreOp) (s : State) : Answer := plog a (fun p q => p || q) s
def execPxor (a : CoreOp) (s : State) : Answer := plog a (fun p q => p != q) s
def execPandn (a : CoreOp) (s : State) : Answer := plog a (fun p q => p && !q) s

/-- PNOT: NOT P1; SRC2 must be zero. -/
def execPnot (a : CoreOp) (s : State) : Answer :=
  runPure a (plainForm (noImm a && noSrc2 a && isLow3 a.dst && isLow3 a.src1))
    (fun c => c.setP (low3 a.dst) (!c.preg (low3 a.src1))) s

/-! ## OP 0x06 and 0x07, LD and ST (R102) -/

/-- The bench address, x + IMM modulo 2^64. -/
def benchAddr (a : CoreOp) (c : CoreSt) : Nat := (opX a c + opImmS a).toNat

/-- The exception an access of `n` bytes at `addr` raises: RANGE before ALIGN (R92, R95, R102). -/
def accessFault (addr n : Nat) : Option Nat :=
  if benchSize < addr + n then some exRange
  else if addr % n ≠ 0 then some exAlign else none

/-- A load of `n` bytes: `f` widens the bytes read. -/
def load (a : CoreOp) (n : Nat) (f : Nat → Word) (s : State) : Answer :=
  runCore a (benchForm (noSrc2 a)) (fun s c =>
    match accessFault (benchAddr a c) n with
    | some code => .exc code
    | none => .next (s.updCore a.core (fun c => c.setS a.dst (f (leNat (c.bytes (benchAddr a c) n)))))) s

/-- Zero-extension, and sign-extension from `w` bits. -/
def zext (x : Nat) : Word := BitVec.ofNat 64 x
def sext (w x : Nat) : Word := BitVec.signExtend 64 (BitVec.ofNat w x)

/-- A store of the low `n` bytes of y. -/
def store (a : CoreOp) (n : Nat) (s : State) : Answer :=
  runCore a (benchForm (noDst a)) (fun s c =>
    match accessFault (benchAddr a c) n with
    | some code => .exc code
    | none => .next (s.updCore a.core (fun c => c.putBytes (benchAddr a c) (leBytes n (opY a c).toNat)))) s

def execLd8u (a : CoreOp) (s : State) : Answer := load a 1 zext s
def execLd16u (a : CoreOp) (s : State) : Answer := load a 2 zext s
def execLd32u (a : CoreOp) (s : State) : Answer := load a 4 zext s
def execLd64 (a : CoreOp) (s : State) : Answer := load a 8 zext s
def execLd8s (a : CoreOp) (s : State) : Answer := load a 1 (sext 8) s
def execLd16s (a : CoreOp) (s : State) : Answer := load a 2 (sext 16) s
def execLd32s (a : CoreOp) (s : State) : Answer := load a 4 (sext 32) s
def execSt8 (a : CoreOp) (s : State) : Answer := store a 1 s
def execSt16 (a : CoreOp) (s : State) : Answer := store a 2 s
def execSt32 (a : CoreOp) (s : State) : Answer := store a 4 s
def execSt64 (a : CoreOp) (s : State) : Answer := store a 8 s

/-! ## OP 0x08, BR (R81, R103) -/

/-- pc + IMM. -/
def relTarget (a : CoreOp) (c : CoreSt) : Word := BitVec.ofNat 64 c.pc.toNat + opImmS a

def execBra (a : CoreOp) (s : State) : Answer :=
  runCore a (plainForm (noDst a && noSrc1 a && noSrc2 a)) (fun s c => .jump s (relTarget a c)) s

def execCall (a : CoreOp) (s : State) : Answer :=
  runCore a (plainForm (noSrc1 a && noSrc2 a)) (fun s c =>
    .jump (s.updCore a.core (fun c => c.setS a.dst (BitVec.ofNat 64 (c.pc.toNat + 1)))) (relTarget a c)) s

def execJr (a : CoreOp) (s : State) : Answer :=
  runCore a (plainForm (noDst a && noSrc2 a)) (fun s c => .jump s (opX a c + opImmS a)) s

/-- LOOP; DST = s0 raises ILLEGAL. -/
def execLoopDec (a : CoreOp) (s : State) : Answer :=
  runCore a (plainForm (noSrc1 a && noSrc2 a && a.dst != 0)) (fun s c =>
    let d := c.sreg a.dst - 1
    let t := s.updCore a.core (fun c => c.setS a.dst d)
    if d = 0 then .next t else .jump t (relTarget a c)) s

/-! ## OP 0x09, KCTL (R82, R103, R104) -/

def execNop (a : CoreOp) (s : State) : Answer :=
  runPure a (plainForm (noDst a && noSrc1 a && noSrc2 a && noImm a)) (fun c => c) s

/-- KEND completes once the core's movements have retired and its earlier instructions have completed (R82). -/
def execKend (a : CoreOp) (s : State) : Answer :=
  runCore a (plainForm (noDst a && noSrc1 a && noSrc2 a && noImm a)) (fun s _ =>
    if s.coreQuiet a.core then .done (s.endKernel a.core) else .wait s .kernelEnd) s

/-- BRK: halt for the debugger where invasive debug is enabled, otherwise BREAK. -/
def execBrk (a : CoreOp) (s : State) : Answer :=
  runCore a (plainForm (noDst a && noSrc1 a && noSrc2 a && noImm a)) (fun s _ =>
    if s.key.debug then
      .done (State.emit (s.updCore a.core (fun c => { c with phase := .halted })) (.debugHalt a.core.val))
    else .exc exBreak) s

/-- The index of the run that a manifest's kernels on cores belong to: trailing work is of the run whose tokens have been delivered
(R237, R369). -/
def Manifest.runIndex (m : Manifest) : Nat :=
  if m.leadersDone then (match m.phase with
    | .admissible => m.iter - 1
    | .ending _ _ => m.iter - 1
    | .recorded => m.iter - 1
    | _ => m.iter) else m.iter

/-- The special values of R104; none for a reserved number. -/
def specialValue (s : State) (c : CoreId) (i : Nat) : Option Word :=
  let k := (s.core c).kernel
  let m := match k with
    | some k => s.manifest? k.manifest
    | none => none
  let ofM (f : Manifest → Nat) : Word := match m with
    | some m => BitVec.ofNat 64 (f m)
    | none => 0
  let rank : Nat := match k with
    | some k => k.rank
    | none => 0
  let kindex : Nat := match k with
    | some k => k.kindex
    | none => 0
  if i = 0x000 then some (BitVec.ofNat 64 (coreNum c))
  else if i = 0x001 then some (BitVec.ofNat 64 rank)
  else if i = 0x002 then some (ofM (·.rankCount))
  else if i = 0x003 then some (ofM (fun m => rank - m.rankBase))
  else if i = 0x004 then some (BitVec.ofNat 64 kindex)
  else if i = 0x005 then some (ofM (fun m => if m.running then m.runIndex else 0))
  else if 0x010 ≤ i ∧ i ≤ 0x04F then
    some (ofM (fun m => if i - 0x010 < m.bcount then (m.bindValues.getD (i - 0x010) 0).toNat else 0))
  else if i = 0x080 then some (BitVec.ofNat 64 s.beat)
  else none

/-- Whether a special value number is defined. -/
def specialOk (i : Nat) : Bool := decide (i ≤ 5) || (decide (0x010 ≤ i) && decide (i ≤ 0x04F)) || i == 0x080

def execSrd (a : CoreOp) (s : State) : Answer :=
  runCore a (plainForm (noSrc1 a && noSrc2 a && immBelow a 12 && specialOk (opImm a 11 0))) (fun s _ =>
    match specialValue s a.core (opImm a 11 0) with
    | some v => .next (s.updCore a.core (fun c => c.setS a.dst v))
    | none => .exc exIllegal) s

end Sys2Proof.Machine
end

