-- ==== Sys2Proof/Machine/Vector.lean ====
section
/-! DEFINITION. Vector instructions: lanes, masks, FP32, packed BF16, compares, integers, lane moves, conversions, MX
quantisation, loads and stores, reductions (R106, R107, R122 to R133, R181, R191). -/

namespace Sys2Proof.Machine

/-! ## Forms and lane operations (R122, R123) -/

/-- VM is zero where ME is 0, IMM[32:11] is zero, and SRC2 and SRC3 are zero where unused. -/
def vecLegal (a : CoreOp) (uses2 uses3 : Bool) : Bool :=
  (opMe a || opVm a == 0) && immBelow a 11 && (uses2 || noSrc2 a) && (uses3 || opSrc3 a == 0)

/-- The three source lanes. -/
def laneX (a : CoreOp) (c : CoreSt) (l : Fin 256) : Lane := (c.vreg a.src1)[l]
def laneY (a : CoreOp) (c : CoreSt) (l : Fin 256) : Lane := (c.vreg a.src2)[l]
def laneZ (a : CoreOp) (c : CoreSt) (l : Fin 256) : Lane := (c.vreg (opSrc3 a))[l]

/-- Results and flags for the lanes that `on` enables; the others keep their value. -/
def laneResult (old : Vector Lane 256) (on : Fin 256 → Bool) (f : Fin 256 → Lane × FpFlags) : Vector Lane 256 :=
  Vector.ofFn (fun l => if on l then (f l).1 else old[l])
def laneFlags (on : Fin 256 → Bool) (f : Fin 256 → Lane × FpFlags) : FpFlags :=
  (List.finRange 256).foldl (fun acc l => if on l then acc ||| (f l).2 else acc) 0

/-- Write DST lane by lane under the mask and OR the flags. -/
def vecWrite (a : CoreOp) (f : CoreSt → Fin 256 → Lane × FpFlags) (s : State) (c : CoreSt) : Body :=
  .next (State.orFlags (s.updCore a.core (fun c => c.setV a.dst (laneResult (c.vreg a.dst) (laneOn a c) (f c))))
    a.core (laneFlags (laneOn a c) (f c)))

/-- A lane-wise instruction. -/
def vecOp (a : CoreOp) (uses2 uses3 : Bool) (f : CoreSt → Fin 256 → Lane × FpFlags) (s : State) : Answer :=
  runCore a (plainForm (vecLegal a uses2 uses3)) (vecWrite a f) s

/-- A lane of an FP result. -/
def fpLane (r : Nat × FpFlags) : Lane × FpFlags := (BitVec.ofNat 32 r.1, r.2)

/-- An FP32 operation of x and y; of x, y and z. -/
def vfp2 (a : CoreOp) (op : Nat → Nat → Nat × FpFlags) (s : State) : Answer :=
  vecOp a true false (fun c l => fpLane (op (laneX a c l).toNat (laneY a c l).toNat)) s
def vfp3 (a : CoreOp) (op : Nat → Nat → Nat → Nat × FpFlags) (s : State) : Answer :=
  vecOp a true true (fun c l => fpLane (op (laneX a c l).toNat (laneY a c l).toNat (laneZ a c l).toNat)) s
/-- An operation of x alone; SRC2 zero. -/
def vec1 (a : CoreOp) (op : Lane → Lane × FpFlags) (s : State) : Answer :=
  vecOp a false false (fun c l => op (laneX a c l)) s

/-! ## OP 0x10, VFP (R124, R125) -/

/-- A NaN becomes the canonical NaN; otherwise `f` of the encoding. -/
def canon32 (f : Lane → Lane) (x : Lane) : Lane :=
  if (fpDecode fp32 x.toNat).isNan then BitVec.ofNat 32 fp32.nanBits else f x

def execVadd (a : CoreOp) (s : State) : Answer := vfp2 a (fpAdd fp32) s
def execVsub (a : CoreOp) (s : State) : Answer := vfp2 a (fpSub fp32) s
def execVmul (a : CoreOp) (s : State) : Answer := vfp2 a (fpMul fp32) s
def execVmin (a : CoreOp) (s : State) : Answer := vfp2 a (fpMin fp32) s
def execVmax (a : CoreOp) (s : State) : Answer := vfp2 a (fpMax fp32) s
def execVfma (a : CoreOp) (s : State) : Answer := vfp3 a (fpFma fp32 false) s
def execVfnma (a : CoreOp) (s : State) : Answer := vfp3 a (fpFma fp32 true) s
def execVabs (a : CoreOp) (s : State) : Answer := vec1 a (fun x => (canon32 (fun x => x &&& 0x7FFFFFFF) x, 0)) s
def execVneg (a : CoreOp) (s : State) : Answer := vec1 a (fun x => (canon32 (fun x => x ^^^ 0x80000000) x, 0)) s
def execVmov (a : CoreOp) (s : State) : Answer := vec1 a (fun x => (x, 0)) s

/-- The first lane of a lane's pair, and the second (R125). -/
def pairFirst (l : Fin 256) : Fin 256 := ⟨l.val / 2 * 2, by omega⟩
def pairSecond (l : Fin 256) : Fin 256 := ⟨l.val / 2 * 2 + 1, by omega⟩

/-- VROPE on one lane: the two-product expression of its place in the pair (R125). -/
def ropeLane (a : CoreOp) (c : CoreSt) (l : Fin 256) : Lane × FpFlags :=
  let x0 := (laneX a c (pairFirst l)).toNat
  let x1 := (laneX a c (pairSecond l)).toNat
  let y := (laneY a c l).toNat
  let z := (laneZ a c l).toNat
  if l.val % 2 = 0 then fpLane (fpTwoProducts fp32 true x0 y x1 z) else fpLane (fpTwoProducts fp32 false x1 y x0 z)

def execVrope (a : CoreOp) (s : State) : Answer :=
  runCore a (plainForm (vecLegal a true true)) (fun s c =>
    let on (l : Fin 256) : Bool := laneOn a c (pairFirst l)
    .next (State.orFlags (s.updCore a.core (fun c => c.setV a.dst (laneResult (c.vreg a.dst) on (ropeLane a c))))
      a.core (laneFlags on (ropeLane a c)))) s

/-! ## OP 0x11, VBF: packed BF16 (R126) -/

/-- The two 16-bit elements of a lane, and a lane made of two results. -/
def elemLo (x : Lane) : Nat := bits x.toNat 15 0
def elemHi (x : Lane) : Nat := bits x.toNat 31 16
def packPair (lo hi : Nat × FpFlags) : Lane × FpFlags := (BitVec.ofNat 32 (lo.1 + 65536 * hi.1), lo.2 ||| hi.2)

def vbf2 (a : CoreOp) (op : Nat → Nat → Nat × FpFlags) (s : State) : Answer :=
  vecOp a true false (fun c l =>
    let x := laneX a c l
    let y := laneY a c l
    packPair (op (elemLo x) (elemLo y)) (op (elemHi x) (elemHi y))) s
def vbf3 (a : CoreOp) (op : Nat → Nat → Nat → Nat × FpFlags) (s : State) : Answer :=
  vecOp a true true (fun c l =>
    let x := laneX a c l
    let y := laneY a c l
    let z := laneZ a c l
    packPair (op (elemLo x) (elemLo y) (elemLo z)) (op (elemHi x) (elemHi y) (elemHi z))) s

def execVbadd (a : CoreOp) (s : State) : Answer := vbf2 a (fpAdd bf16) s
def execVbsub (a : CoreOp) (s : State) : Answer := vbf2 a (fpSub bf16) s
def execVbmul (a : CoreOp) (s : State) : Answer := vbf2 a (fpMul bf16) s
def execVbmin (a : CoreOp) (s : State) : Answer := vbf2 a (fpMin bf16) s
def execVbmax (a : CoreOp) (s : State) : Answer := vbf2 a (fpMax bf16) s
def execVbfma (a : CoreOp) (s : State) : Answer := vbf3 a (fpFma bf16 false) s
def execVbfnma (a : CoreOp) (s : State) : Answer := vbf3 a (fpFma bf16 true) s

/-! ## OP 0x12, VCMP (R127) -/

/-- All ones or all zeros. -/
def maskLane (b : Bool) : Lane × FpFlags := (if b then BitVec.allOnes 32 else 0, 0)
def vcmp (a : CoreOp) (f : Lane → Lane → Bool) (s : State) : Answer :=
  vecOp a true false (fun c l => maskLane (f (laneX a c l) (laneY a c l))) s

def execVfeq (a : CoreOp) (s : State) : Answer := vcmp a (fun x y => fpEq fp32 x.toNat y.toNat) s
def execVflt (a : CoreOp) (s : State) : Answer := vcmp a (fun x y => fpLt fp32 x.toNat y.toNat) s
def execVfle (a : CoreOp) (s : State) : Answer := vcmp a (fun x y => fpLe fp32 x.toNat y.toNat) s
def execVfun (a : CoreOp) (s : State) : Answer :=
  vcmp a (fun x y => (fpDecode fp32 x.toNat).isNan || (fpDecode fp32 y.toNat).isNan) s
def execVieq (a : CoreOp) (s : State) : Answer := vcmp a (fun x y => x == y) s
def execVilt (a : CoreOp) (s : State) : Answer := vcmp a (fun x y => BitVec.slt x y) s
def execViltu (a : CoreOp) (s : State) : Answer := vcmp a (fun x y => decide (x < y)) s

/-! ## OP 0x13, VINT (R128) -/

def vint (a : CoreOp) (f : Lane → Lane → Lane) (s : State) : Answer :=
  vecOp a true false (fun c l => (f (laneX a c l) (laneY a c l), 0)) s
/-- Shift counts are y[4:0]. -/
def laneShift (y : Lane) : Nat := bits y.toNat 4 0

def execViadd (a : CoreOp) (s : State) : Answer := vint a (fun x y => x + y) s
def execVisub (a : CoreOp) (s : State) : Answer := vint a (fun x y => x - y) s
def execViand (a : CoreOp) (s : State) : Answer := vint a (fun x y => x &&& y) s
def execVior (a : CoreOp) (s : State) : Answer := vint a (fun x y => x ||| y) s
def execVixor (a : CoreOp) (s : State) : Answer := vint a (fun x y => x ^^^ y) s
def execViandn (a : CoreOp) (s : State) : Answer := vint a (fun x y => x &&& ~~~y) s
def execVisll (a : CoreOp) (s : State) : Answer := vint a (fun x y => x <<< laneShift y) s
def execVisrl (a : CoreOp) (s : State) : Answer := vint a (fun x y => x >>> laneShift y) s
def execVisra (a : CoreOp) (s : State) : Answer := vint a (fun x y => x.sshiftRight (laneShift y)) s
def execVimin (a : CoreOp) (s : State) : Answer := vint a (fun x y => if BitVec.slt x y then x else y) s
def execVimax (a : CoreOp) (s : State) : Answer := vint a (fun x y => if BitVec.slt x y then y else x) s
def execViminu (a : CoreOp) (s : State) : Answer := vint a (fun x y => if x < y then x else y) s
def execVimaxu (a : CoreOp) (s : State) : Answer := vint a (fun x y => if x < y then y else x) s
def execVimul (a : CoreOp) (s : State) : Answer := vint a (fun x y => x * y) s

/-! ## OP 0x14, VMOV (R129) -/

/-- The low 32 bits of scalar SRC1. -/
def scalarLow (a : CoreOp) (c : CoreSt) : Lane := (opX a c).truncate 32
/-- LANE, IMM[18:11]. -/
def opLane (a : CoreOp) : Fin 256 := ⟨opImm a 18 11 % 256, Nat.mod_lt _ (by decide)⟩

def execVsel (a : CoreOp) (s : State) : Answer :=
  vecOp a true true (fun c l => (if (laneZ a c l).getLsbD 0 then laneX a c l else laneY a c l, 0)) s

def execVbcast (a : CoreOp) (s : State) : Answer := vecOp a false false (fun c _ => (scalarLow a c, 0)) s

def execViota (a : CoreOp) (s : State) : Answer :=
  runCore a (plainForm (vecLegal a false false && noSrc1 a)) (vecWrite a (fun _ l => (BitVec.ofNat 32 l.val, 0))) s

def execVfirst (a : CoreOp) (s : State) : Answer :=
  vecOp a false false (fun c l => maskLane (decide (l.val < (opX a c).toNat))) s

/-- ME, VM, SRC3, SRC2 and IMM[32:19] are zero; LANE is used. -/
def laneLegal (a : CoreOp) : Bool := noSrc2 a && opImm a 10 0 == 0 && immBelow a 19

def execVget (a : CoreOp) (s : State) : Answer :=
  runPure a (plainForm (laneLegal a)) (fun c => c.setS a.dst ((laneX a c (opLane a)).zeroExtend 64)) s

def execVput (a : CoreOp) (s : State) : Answer :=
  runPure a (plainForm (laneLegal a)) (fun c => c.setV a.dst ((c.vreg a.dst).set (opLane a) (scalarLow a c))) s

def execVperm (a : CoreOp) (s : State) : Answer :=
  vecOp a true false (fun c l => (laneX a c ⟨(laneY a c l).toNat % 256, Nat.mod_lt _ (by decide)⟩, 0)) s

/-! ## OP 0x15, VCVT (R130, R131) -/

/-- Two FP32 lanes narrowed into one lane. -/
def narrow (a : CoreOp) (dst : FpFmt) (s : State) : Answer :=
  vecOp a true false (fun c l =>
    packPair (fpConvert fp32 dst (laneX a c l).toNat) (fpConvert fp32 dst (laneY a c l).toNat)) s

def execVf2bf (a : CoreOp) (s : State) : Answer := narrow a bf16 s
def execVf2h (a : CoreOp) (s : State) : Answer := narrow a fp16 s
def execVbf2fl (a : CoreOp) (s : State) : Answer := vec1 a (fun x => fpLane (fpConvert bf16 fp32 (elemLo x))) s
def execVbf2fh (a : CoreOp) (s : State) : Answer := vec1 a (fun x => fpLane (fpConvert bf16 fp32 (elemHi x))) s
def execVh2fl (a : CoreOp) (s : State) : Answer := vec1 a (fun x => fpLane (fpConvert fp16 fp32 (elemLo x))) s
def execVh2fh (a : CoreOp) (s : State) : Answer := vec1 a (fun x => fpLane (fpConvert fp16 fp32 (elemHi x))) s
def execVf2i (a : CoreOp) (s : State) : Answer := vec1 a (fun x => toInt32 false (fpDecode fp32 x.toNat)) s
def execVf2iz (a : CoreOp) (s : State) : Answer := vec1 a (fun x => toInt32 true (fpDecode fp32 x.toNat)) s
def execVi2f (a : CoreOp) (s : State) : Answer := vec1 a (fun x => fpLane (ofInt32 x)) s

/-- emax of an MX element format (R181). -/
def mxEmax (fmt : Nat) : Int := if fmt = 4 then 8 else if fmt = 5 then 15 else if fmt = 6 then 4 else if fmt = 9 then 0 else 2

/-- The exponent of a value's magnitude, rounded down; none for zero. -/
def magLog (v : FpVal) : Option Int :=
  match v with
  | .fin _ m e => if m = 0 then none else some ((Nat.log2 m : Int) + e)
  | _ => none

/-- The shared scale of a block of FP32 lanes (R131, R181). -/
def mxScale (fmt : Nat) (vs : List FpVal) : Nat :=
  if vs.any (fun v => !v.isFinite) then 0xFF
  else match (vs.filterMap magLog).max? with
    | none => 0
    | some n => min (n - mxEmax fmt + 127).toNat 0xFE

/-- One element: x · 2^(127 − scale) rounded once and saturated (R131, R181). -/
def mxElem (fmt scale : Nat) (v : FpVal) : Nat × FpFlags :=
  match v with
  | .fin neg m e =>
    if scale = 0xFF then (0, 0)
    else
      let e' := e + 127 - (scale : Int)
      if fmt = 9 then
        let r := rintMag m (e' + 6)
        let ovf := decide (r.1 > 127)
        let q := if ovf then 127 else r.1
        ((if neg then (256 - q) % 256 else q), roundFlags ovf r.2 false)
      else fpRoundSat (fmtFp fmt) neg m e'
  | _ => (0, 0)

/-- The lanes of an image of bytes. -/
def lanesOfBytes (bs : List Byte) : Vector Lane 256 :=
  Vector.ofFn (fun l => BitVec.ofNat 32 (leNat ((bs.drop (4 * l.val)).take 4)))

/-- The image VQMX writes, and its flags (R131). -/
def quantise (fmt : Nat) (x : Vector Lane 256) : Vector Lane 256 × FpFlags :=
  let blocks := (List.range 8).map (fun b =>
    let vs := (List.range 32).map (fun i => fpDecode fp32 (x.toList.getD (32 * b + i) 0).toNat)
    let sc := mxScale fmt vs
    (sc, vs.map (mxElem fmt sc)))
  let es := blocks.flatMap (·.2)
  let img := packElems (fmtBits fmt) (es.map (·.1)) ++ blocks.map (fun b => BitVec.ofNat 8 b.1)
  (lanesOfBytes img, flagsOf es)

/-- VQMX: IMM[22:19] holds an MX FMT, ME and every other field is zero. -/
def execVqmx (a : CoreOp) (s : State) : Answer :=
  runCore a ⟨1, true, fun _ => false, noSrc2 a && opImm a 18 0 == 0 && immBelow a 23 && fmtIsMx (opImm a 22 19)⟩ (fun s c =>
    let r := quantise (opImm a 22 19) (c.vreg a.src1)
    .next (State.orFlags (s.updCore a.core (fun c => c.setV a.dst r.1)) a.core r.2)) s

/-! ## OP 0x16, VLDST (R132) -/

/-- x + IMM[32:11] sign-extended. -/
def vecAddr (a : CoreOp) (c : CoreSt) : Nat :=
  (opX a c + BitVec.signExtend 64 (BitVec.ofNat 22 (opImm a 32 11))).toNat

/-- RANGE before OPERAND (R92, R95). -/
def vecFault (addr : Nat) : Option Nat :=
  if benchSize < addr + 1024 then some exRange
  else if addr % 64 ≠ 0 then some exOperand else none

/-- SRC3 zero, VM zero where ME is 0. -/
def vldstLegal (a : CoreOp) : Bool := (opMe a || opVm a == 0) && opSrc3 a == 0

def execVld (a : CoreOp) (s : State) : Answer :=
  runCore a (benchForm (vldstLegal a && noSrc2 a)) (fun s c =>
    match vecFault (vecAddr a c) with
    | some code => .exc code
    | none => vecWrite a (fun c l => (c.lane (vecAddr a c + 4 * l.val), 0)) s c) s

/-- The enabled lanes of a register stored from a bench address. -/
def storeLanes (x : CoreSt) (addr : Nat) (on : Fin 256 → Bool) (v : Vector Lane 256) : CoreSt :=
  (List.finRange 256).foldl (fun x l => if on l then x.putBytes (addr + 4 * l.val) (leBytes 4 v[l].toNat) else x) x

/-- Whether a VST writes some line in part: some but not all of the line's lanes are enabled (R55). -/
def vstReads (a : CoreOp) (c : CoreSt) : Bool :=
  (List.finRange 16).any (fun k =>
    let on (j : Fin 16) : Bool := laneOn a c ⟨16 * k.val + j.val, by omega⟩
    (List.finRange 16).any on && !(List.finRange 16).all on)

def execVst (a : CoreOp) (s : State) : Answer :=
  runCore a (storeForm (vldstLegal a && noDst a) (vstReads a)) (fun s c =>
    match vecFault (vecAddr a c) with
    | some code => .exc code
    | none => .next (s.updCore a.core (fun c => storeLanes c (vecAddr a c) (laneOn a c) (c.vreg a.src2)))) s

/-! ## OP 0x17, VRED (R133, R191) -/

/-- Lanes per segment; none for the reserved codes. -/
def segLanes (seg : Nat) : Option Nat := if seg ≤ 5 then some (256 / 2 ^ seg) else none
/-- SEG, IMM[13:11]. -/
def opSeg (a : CoreOp) : Nat := opImm a 13 11
/-- The segment size, 256 where SEG is reserved (the encoding is then ILLEGAL). -/
def segSize (a : CoreOp) : Nat := (segLanes (opSeg a)).getD 256

/-- One level of the tree. -/
def treeLevel (op : Nat → Nat → Nat × FpFlags) : List Nat → List Nat × FpFlags
  | x :: y :: t =>
    let r := op x y
    let q := treeLevel op t
    (r.1 :: q.1, r.2 ||| q.2)
  | l => (l, 0)

/-- The complete binary tree of R191 over `2^n` values. -/
def treeReduce (op : Nat → Nat → Nat × FpFlags) : Nat → List Nat → Nat × FpFlags
  | 0, l => (l.getD 0 0, 0)
  | n + 1, l =>
    let q := treeLevel op l
    let r := treeReduce op n q.1
    (r.1, r.2 ||| q.2)

/-- The lanes of segment `j` of `g` lanes, with `ident` for a lane that is not enabled. -/
def segValues (v : Vector Lane 256) (on : Fin 256 → Bool) (ident g j : Nat) : List Nat :=
  ((List.finRange 256).filter (fun l => l.val / g == j)).map (fun l => if on l then v[l].toNat else ident)

/-- Reduce one segment. -/
def segReduce (op : Nat → Nat → Nat × FpFlags) (v : Vector Lane 256) (on : Fin 256 → Bool) (ident g j : Nat) :
    Nat × FpFlags :=
  treeReduce op (Nat.log2 g) (segValues v on ident g j)

/-- SEG is defined, IMM[32:14] and SRC3 are zero, and VM is zero where ME is 0. -/
def segLegal (a : CoreOp) : Bool :=
  (opMe a || opVm a == 0) && opSrc3 a == 0 && immBelow a 14 && (segLanes (opSeg a)).isSome

/-- A reduction: each segment's result to its enabled lanes (R123, R133). -/
def vred (a : CoreOp) (op : Nat → Nat → Nat × FpFlags) (ident : Nat) (s : State) : Answer :=
  runCore a (plainForm (segLegal a && noSrc2 a)) (fun s c =>
    let g := segSize a
    let rs := (List.range (256 / g)).map (segReduce op (c.vreg a.src1) (laneOn a c) ident g)
    .next (State.orFlags (s.updCore a.core (fun c => c.setV a.dst
      (laneResult (c.vreg a.dst) (laneOn a c) (fun l => fpLane (rs.getD (l.val / g) (0, 0)))))) a.core (flagsOf rs))) s

/-- Identities: −0, −Inf, +Inf, 0 (R123). -/
def execVrsum (a : CoreOp) (s : State) : Answer := vred a (fpAdd fp32) 0x80000000 s
def execVrmax (a : CoreOp) (s : State) : Answer := vred a (fpMax fp32) 0xFF800000 s
def execVrmin (a : CoreOp) (s : State) : Answer := vred a (fpMin fp32) 0x7F800000 s
def execVrisum (a : CoreOp) (s : State) : Answer := vred a (fun x y => ((x + y) % 2 ^ 32, 0)) 0 s

end Sys2Proof.Machine
end

