-- ==== Sys2Proof/Machine/Sampling.lean ====
section
/-! DEFINITION. Special functions, online softmax, normalisation, the Philox generator, candidate lists and the draw
(R134 to R140, R183, R196 to R206). -/

namespace Sys2Proof.Machine

/-! ## OP 0x28, SFU (R134) -/

/-- Each enabled lane is a special-function lane result (R484). DESIGN CHOICE (log entry 113, unsafe). -/
def sfu (a : CoreOp) (f : Nat → SfuResult) (s : State) : Answer :=
  runCore a (plainForm (vecLegal a false false)) (fun s c =>
    let r (l : Fin 256) : Lane × FpFlags := fpLane (f (laneX a c l).toNat)
    .next (State.orFlags (s.updCore a.core (fun c => (c.setV a.dst (laneResult (c.vreg a.dst) (laneOn a c) r)).countUp 2
      ((List.finRange 256).filter (laneOn a c)).length)) a.core (laneFlags (laneOn a c) r))) s

def execExp2 (a : CoreOp) (s : State) : Answer := sfu a sfuExp2 s
def execLog2 (a : CoreOp) (s : State) : Answer := sfu a sfuLog2 s
def execRcp (a : CoreOp) (s : State) : Answer := sfu a sfuRcp s
def execRsq (a : CoreOp) (s : State) : Answer := sfu a sfuRsq s
def execTanh (a : CoreOp) (s : State) : Answer := sfu a sfuTanh s
def execSigm (a : CoreOp) (s : State) : Answer := sfu a sfuSigm s
def execSin (a : CoreOp) (s : State) : Answer := sfu a sfuSin s
def execCos (a : CoreOp) (s : State) : Answer := sfu a sfuCos s

/-! ## OP 0x29: VOSM and VRMS (R135, R136) -/

/-- The flags that VOSM, VRMS and SDRAW raise: IV and DZ only (R183). -/
def ivDz (f : FpFlags) : FpFlags := f &&& (flagIV ||| flagDZ)

/-- A value with the flags gathered so far. -/
def andThen (f : FpFlags) (r : Nat × FpFlags) : Nat × FpFlags := (r.1, f ||| r.2)

/-- The weights e[i] = EXP2(rne(x[i] − m1)) of a segment. -/
def softmaxTerms (m1 : Nat) (xs : List Nat) : List (Nat × FpFlags) :=
  xs.map (fun x =>
    let d := fpSub fp32 x m1
    andThen d.2 (sfuExp2 d.1))

/-- One segment of VOSM: the new maximum and sum (R135). -/
def softmaxStep (g m s : Nat) (xs : List Nat) : Nat × Nat × FpFlags :=
  let mx := treeReduce (fpMax fp32) (Nat.log2 g) xs
  let m1 := fpMax fp32 m mx.1
  if m1.1 = 0xFF800000 then (m1.1, s, 0)
  else
    let es := softmaxTerms m1.1 xs
    let sx := treeReduce (fpAdd fp32) (Nat.log2 g) (es.map (·.1))
    let dm := fpSub fp32 m m1.1
    let k := sfuExp2 dm.1
    let old := fpMul fp32 s k.1
    let s1 := fpAdd fp32 old.1 sx.1
    (m1.1, s1.1, ivDz (flagsOf es ||| sx.2 ||| dm.2 ||| k.2 ||| old.2 ||| s1.2))

/-- VOSM over every segment: lanes 2j and 2j + 1 of d, whatever the mask. -/
def execVosm (a : CoreOp) (s : State) : Answer :=
  runCore a (plainForm (segLegal a && noSrc2 a)) (fun s c =>
    let g := segSize a
    let d := c.vreg a.dst
    let rs := (List.range (256 / g)).map (fun j =>
      softmaxStep g (d.toList.getD (2 * j) 0).toNat (d.toList.getD (2 * j + 1) 0).toNat
        (segValues (c.vreg a.src1) (laneOn a c) 0xFF800000 g j))
    let lanes := rs.flatMap (fun r => [BitVec.ofNat 32 r.1, BitVec.ofNat 32 r.2.1])
    let fl := rs.foldl (fun (acc : FpFlags) r => acc ||| r.2.2) 0
    .next (State.orFlags (s.updCore a.core (fun c =>
      c.setV a.dst (Vector.ofFn (fun l => lanes.getD l.val (c.vreg a.dst)[l])))) a.core fl)) s

/-- The exact FP32 value 1/g of a power of two g. -/
def recipPow2 (g : Nat) : Nat := (fpRound fp32 (.fin false 1 (-(Nat.log2 g : Int)))).1

/-- One segment of VRMS. -/
def rmsStep (g eps : Nat) (xs : List Nat) : Nat × FpFlags :=
  let q := treeReduce (fpAdd fp32) (Nat.log2 g) xs
  let h := fpMul fp32 q.1 (recipPow2 g)
  let t := fpAdd fp32 h.1 eps
  let r := sfuRsq t.1
  (r.1, ivDz (q.2 ||| h.2 ||| t.2 ||| r.2))

/-- Whether segment `j` of `g` lanes has an enabled lane. -/
def segOn (on : Fin 256 → Bool) (g j : Nat) : Bool := (List.finRange 256).any (fun l => l.val / g == j && on l)

/-- VRMS: a segment without an enabled lane writes nothing and raises nothing (R136, R183). -/
def execVrms (a : CoreOp) (s : State) : Answer :=
  runCore a (plainForm (segLegal a)) (fun s c =>
    let g := segSize a
    let eps := wbits (opY a c) 31 0
    let sq : Vector Lane 256 := Vector.ofFn (fun l =>
      BitVec.ofNat 32 (fpMul fp32 (laneX a c l).toNat (laneX a c l).toNat).1)
    let rs := (List.range (256 / g)).map (fun j =>
      if segOn (laneOn a c) g j then rmsStep g eps (segValues sq (laneOn a c) 0x80000000 g j) else (0, 0))
    .next (State.orFlags (s.updCore a.core (fun c => c.setV a.dst
      (laneResult (c.vreg a.dst) (laneOn a c) (fun l => fpLane (rs.getD (l.val / g) (0, 0)))))) a.core (flagsOf rs))) s

/-! ## The generator (R137, R204, R205) -/

/-- One of the ten rounds. -/
def philoxRound (c : Nat × Nat × Nat × Nat) (k0 k1 : Nat) : Nat × Nat × Nat × Nat :=
  let p0 := 0xD2511F53 * c.1
  let p1 := 0xCD9E8D57 * c.2.2.1
  ((p1 / 2 ^ 32) ^^^ c.2.1 ^^^ k0, p1 % 2 ^ 32, (p0 / 2 ^ 32) ^^^ c.2.2.2 ^^^ k1, p0 % 2 ^ 32)

def philoxRounds : Nat → Nat × Nat × Nat × Nat → Nat → Nat → Nat × Nat × Nat × Nat
  | 0, c, _, _ => c
  | n + 1, c, k0, k1 => philoxRounds n (philoxRound c k0 k1) ((k0 + 0x9E3779B9) % 2 ^ 32) ((k1 + 0xBB67AE85) % 2 ^ 32)

/-- Philox4x32-10 (R204). -/
def philox (c : Nat × Nat × Nat × Nat) (k0 k1 : Nat) : List Nat :=
  let r := philoxRounds 10 c k0 k1
  [r.1, r.2.1, r.2.2.1, r.2.2.2]

/-- The words of block `b` for a seed, position, node and stream (R205). -/
def samplingWords (seed position : Word) (node stream b : Nat) : List Nat :=
  philox (wbits position 31 0, wbits position 63 32, node % 65536 + stream % 256 * 65536, b) (wbits seed 31 0) (wbits seed 63 32)

/-- The seed of the manifest a core runs. -/
def State.seedOf (s : State) (c : CoreSt) : Word :=
  match c.kernel with
  | some k => match s.manifest? k.manifest with
    | some m => m.seed
    | none => 0
  | none => 0

/-- The words an instruction draws for block `b`: the stream is IMM[18:11]. -/
def drawWords (a : CoreOp) (s : State) (c : CoreSt) (b : Nat) : List Nat :=
  samplingWords (s.seedOf c) (opX a c) (wbits (opY a c) 15 0) (opImm a 18 11) b

def execVrng (a : CoreOp) (s : State) : Answer :=
  runCore a (plainForm ((opMe a || opVm a == 0) && opSrc3 a == 0 && immBelow a 19)) (fun s c =>
    let ws := (List.range 64).flatMap (drawWords a s c)
    .next (s.updCore a.core (fun c => c.setV a.dst
      (laneResult (c.vreg a.dst) (laneOn a c) (fun l => (BitVec.ofNat 32 (ws.getD l.val 0), 0)))))) s

def execSrng (a : CoreOp) (s : State) : Answer :=
  runCore a (plainForm (opImm a 10 0 == 0 && immBelow a 19)) (fun s c =>
    let ws := drawWords a s c 0
    .next (s.updCore a.core (fun c => c.setS a.dst (BitVec.ofNat 64 (ws.getD 0 0 + 2 ^ 32 * ws.getD 1 0))))) s

/-! ## Candidate lists (R138, R139) -/

/-- A candidate: an FP32 value and an index. -/
abbrev Cand := Lane × Lane

/-- Whether one encoding stands before another, or is it, where R138 ranks their values and indexes equal: a free order.
DESIGN CHOICE (log entry 30, safe). -/
def tieBefore (x y : Lane) : Bool :=
  x == y || decide (Config.tieRank x < Config.tieRank y) ||
    (Config.tieRank x == Config.tieRank y && decide (x.toNat < y.toNat))

/-- Whether `p` ranks before `q` or equal to it (R138). -/
def candBefore (p q : Cand) : Bool :=
  let v := fpDecode fp32 p.1.toNat
  let w := fpDecode fp32 q.1.toNat
  let low := decide (p.2.toNat < q.2.toNat) || (p.2 == q.2 && tieBefore p.1 q.1)
  if v.isNan && w.isNan then low
  else if v.isNan then false
  else if w.isNan then true
  else match FpVal.cmp v w with
    | .gt => true
    | .lt => false
    | .eq => low

/-- Insert a candidate in rank order. -/
def candInsert (p : Cand) : List Cand → List Cand
  | [] => [p]
  | q :: t => if candBefore q p then q :: candInsert p t else p :: q :: t

/-- The `k` highest-ranked of a list, in rank order. -/
def candBest (k : Nat) (l : List Cand) : List Cand := l.foldl (fun acc p => (candInsert p acc).take k) []

/-- Lanes beyond the list hold −Inf and 0xFFFF_FFFF (R138). -/
def candValues (l : List Cand) : Vector Lane 256 := Vector.ofFn (fun i => (l.getD i.val (0xFF800000, 0)).1)
def candIndexes (l : List Cand) : Vector Lane 256 := Vector.ofFn (fun i => (l.getD i.val (0, 0xFFFFFFFF)).2)
/-- The register after an even one. -/
def nextReg (i : Fin 32) : Fin 32 := fin32 (i.val + 1)
/-- Write a list to an even register and the next. -/
def CoreSt.putCands (c : CoreSt) (i : Fin 32) (l : List Cand) : CoreSt :=
  (c.setV i (candValues l)).setV (nextReg i) (candIndexes l)
/-- The 256 candidates of a list register pair. -/
def CoreSt.cands (c : CoreSt) (i : Fin 32) : List Cand := (c.vreg i).toList.zip (c.vreg (nextReg i)).toList

/-- A list register is even, so that it is not v31 either. -/
def evenReg (i : Fin 32) : Bool := i.val % 2 == 0
/-- k from 1 to 256 (R139, R140). -/
def kLegal (k : Nat) : Bool := decide (1 ≤ k) && decide (k ≤ 256)

/-- RANGE before OPERAND (R92, R95, R139): no logit lies beyond the bench where there is none. -/
def topkFault (addr n : Nat) : Option Nat :=
  if n ≠ 0 ∧ benchSize < addr + 4 * n then some exRange
  else if addr % 4 ≠ 0 ∨ n = 0 ∨ 131072 < n then some exOperand else none

/-- The `k` entries of the list TOPK builds from N pairs: R139 gives the first N of them, and the others are open.
DESIGN CHOICE (log entry 30, safe). -/
def topkList (occasion k : Nat) (l : List Cand) : List Cand :=
  candBest k l ++ (List.range (k - l.length)).map (fun i => (Config.openLane occasion (2 * i), Config.openLane occasion (2 * i + 1)))

def execTopk (a : CoreOp) (s : State) : Answer :=
  runCore a (benchForm (evenReg a.dst && kLegal (opImm a 13 5) && immBelow a 14)) (fun s c =>
    let addr := (opX a c).toNat
    let n := (opY a c).toNat
    let base : Lane := (c.sreg (fin32 (opImm a 4 0))).truncate 32
    match topkFault addr n with
    | some code => .exc code
    | none =>
      let l := (List.range n).map (fun j => ((c.lane (addr + 4 * j), base + BitVec.ofNat 32 j) : Cand))
      let t := s.updCore a.core (fun c => c.putCands a.dst (topkList s.free (opImm a 13 5) l))
      .next (if n < opImm a 13 5 then t.tick else t)) s

def execTkmrg (a : CoreOp) (s : State) : Answer :=
  runPure a (plainForm (evenReg a.dst && evenReg a.src1 && evenReg a.src2 && kLegal (opImm a 8 0) && immBelow a 9))
    (fun c => c.putCands a.dst (candBest (opImm a 8 0) (c.cands a.src1 ++ c.cands a.src2))) s

/-! ## The draw (R140) -/

/-- The running sums c[i], with the flags raised. -/
def drawSums (invT m : Nat) : List Nat → Nat → List Nat × FpFlags
  | [], _ => ([], 0)
  | v :: t, acc =>
    let z := fpMul fp32 v invT
    let d := fpSub fp32 z.1 m
    let l := fpMul fp32 d.1 coL
    let e := sfuExp2 l.1
    let s := fpAdd fp32 acc e.1
    let r := drawSums invT m t s.1
    (s.1 :: r.1, z.2 ||| d.2 ||| l.2 ||| e.2 ||| s.2 ||| r.2)

/-- The rank SDRAW chooses, with its flags (R140). -/
def drawRank (vs : List Nat) (invT p r : Nat) : Nat × FpFlags :=
  let k := vs.length
  let zero : FpVal := .fin false 0 0
  let t := fpDecode fp32 invT
  let q := fpDecode fp32 p
  if k = 1 ∨ !(fpDecode fp32 (vs.getD 0 0)).isFinite ∨ !t.isFinite ∨ FpVal.cmp t zero ≠ .gt then (0, 0)
  else if q.isNan ∨ FpVal.cmp q zero ≠ .gt then (0, 0)
  else
    let p := if FpVal.cmp q (.fin false 1 0) = .gt then one32 else p
    let m := fpMul fp32 (vs.getD 0 0) invT
    let cs := drawSums invT m.1 vs 0
    let last := cs.1.getD (k - 1) 0
    if (fpDecode fp32 last).isNan then (0, ivDz (m.2 ||| cs.2))
    else
      let cut := fpMul fp32 p last
      let j := ((List.range k).find? (fun i => fpLe fp32 cut.1 (cs.1.getD i 0))).getD (k - 1)
      let u := rne (.fin false (r / 256) (-24))
      let tau := fpMul fp32 u (cs.1.getD j 0)
      let i := ((List.range (j + 1)).find? (fun i => fpLt fp32 tau.1 (cs.1.getD i 0))).getD j
      (i, ivDz (m.2 ||| cs.2 ||| cut.2 ||| tau.2))

/-- SDRAW. Of an odd register, or of a k outside 1 to 256, R140 gives no result and R142 no exception: the token and the flags are open.
DESIGN CHOICE (log entry 31, safe). -/
def execSdraw (a : CoreOp) (s : State) : Answer :=
  runCore a (plainForm (immBelow a 14)) (fun s c =>
    if !evenReg a.src1 || !kLegal (opImm a 13 5) then
      .next (State.tick (State.orFlags (s.updCore a.core (fun c => c.setS a.dst ((Config.openLane s.free 0).zeroExtend 64))) a.core
        (ivDz (Config.openFlags s.free))))
    else
    let vs := ((c.vreg a.src1).toList.take (opImm a 13 5)).map (·.toNat)
    let r := wbits (c.sreg (fin32 (opImm a 4 0))) 31 0
    let d := drawRank vs (wbits (opY a c) 31 0) (wbits (opY a c) 63 32) r
    let id := ((c.vreg (nextReg a.src1)).toList.getD d.1 0).zeroExtend 64
    .next (State.orFlags (s.updCore a.core (fun c => c.setS a.dst id)) a.core d.2)) s

end Sys2Proof.Machine
end

