-- ==== Sys2Proof/Machine/Matrix.lean ====
section
/-! DEFINITION. Tile descriptors, MMA, zeroing and draining of accumulators (R108 to R121). -/

namespace Sys2Proof.Machine

/-! ## OP 0x20, TILE (R112) -/

def tdsetFmt (a : CoreOp) : Nat := opImm a 22 19
def tdsetRows (a : CoreOp) : Nat := opImm a 6 0
def tdsetCols (a : CoreOp) : Nat := opImm a 18 7

/-- The checks TDSET makes on its own word. -/
def tdsetLegal (a : CoreOp) : Bool :=
  isLow3 a.dst && immBelow a 23 && decide (1 ≤ tdsetRows a) && decide (tdsetRows a ≤ 64) &&
  decide (1 ≤ tdsetCols a) && decide (tdsetCols a ≤ 2048) && decide (tdsetFmt a ≤ 11) && fmtColsOk (tdsetFmt a) (tdsetCols a)

/-- The descriptor TDSET writes: SADDR and SSTRIDE zero. -/
def tdsetDesc (a : CoreOp) (x y : Word) : DescWord :=
  BitVec.ofNat 128 (wbits x 18 0 + tdsetRows a * 2 ^ 24 + tdsetCols a * 2 ^ 32 + tdsetFmt a * 2 ^ 44 + wbits y 18 0 * 2 ^ 64)

def execTdset (a : CoreOp) (s : State) : Answer :=
  runPure a ⟨1, fmtIsMx (tdsetFmt a), fun _ => false, tdsetLegal a⟩
    (fun c => c.setD (low3 a.dst) (tdsetDesc a (opX a c) (opY a c))) s

def execTdscl (a : CoreOp) (s : State) : Answer :=
  runPure a ⟨1, true, fun _ => false, isLow3 a.dst && noSrc2 a && immBelow a 13⟩
    (fun c => c.setD (low3 a.dst)
      (setDesc (setDesc (c.dreg (low3 a.dst)) 114 96 (wbits (opX a c) 18 0)) 127 115 (opImm a 12 0))) s

def execTdadd (a : CoreOp) (s : State) : Answer :=
  runPure a (plainForm (isLow3 a.dst && noImm a))
    (fun c =>
      let d := c.dreg (low3 a.dst)
      c.setD (low3 a.dst) (setDesc (setDesc d 18 0 ((dAddr d + wbits (opX a c) 18 0) % 2 ^ 19)) 114 96
        ((dSaddr d + wbits (opY a c) 18 0) % 2 ^ 19))) s

/-! ## Use checks (R111) -/

def dRowBytes (d : DescWord) : Nat := dCols d * fmtBits (dFmt d) / 8

/-- Any byte of a row or of its scales beyond the bench. -/
def descRange (d : DescWord) : Bool :=
  decide (0 < dRows d) && (decide (benchSize < dAddr d + (dRows d - 1) * dStride d + dRowBytes d) ||
    (fmtIsMx (dFmt d) && decide (benchSize < dSaddr d + (dRows d - 1) * dSstride d + dCols d / 32)))

/-- The OPERAND checks of R111 other than the format. -/
def descOperand (d : DescWord) : Bool :=
  dAddr d % 64 != 0 || dStride d % 64 != 0 || (decide (1 < dRows d) && decide (dStride d < dRowBytes d)) ||
  (fmtIsMx (dFmt d) && (dSstride d == 0 || (decide (1 < dRows d) && decide (dSstride d < dCols d / 32))))

/-- The exception of an MMA's descriptors: RANGE before OPERAND (R92, R95, R111, R113, R114). -/
def mmaFault (da db : DescWord) : Option Nat :=
  if descRange da || descRange db then some exRange
  else if descOperand da || descOperand db || dCols da != dCols db || (mmaSteps (dFmt da) (dFmt db) (dCols da)).isNone then
    some exOperand
  else none

/-! ## MMA (R113, R114, R120) -/

/-- The key of element (m, n) of accumulator `i`. -/
def accKey (i m n : Nat) : Nat := 4096 * i + 64 * m + n
def CoreSt.accElem (x : CoreSt) (i m n : Nat) : AccElem := mapGet AccElem.zero x.acc (accKey i m n)
/-- Zero accumulator `i` (R116, R185). -/
def CoreSt.accClear (x : CoreSt) (i : Nat) : CoreSt := { x with acc := mapClear x.acc (4096 * i) (4096 * (i + 1)) }

/-- Element `k` of row `r` of a tile, and the scale code of its block `b`. -/
def tileElem (x : CoreSt) (d : DescWord) (r k : Nat) : Nat :=
  elemAt (dFmt d) (fun i => x.byte (dAddr d + r * dStride d + i)) k
def tileScale (x : CoreSt) (d : DescWord) (r b : Nat) : Nat := (x.byte (dSaddr d + r * dSstride d + b)).toNat

/-- One element of the product added to accumulator `i`. -/
def mmaElem (src : CoreSt) (da db : DescWord) (i : Nat) (acc : CoreSt × FpFlags) (mn : Nat × Nat) : CoreSt × FpFlags :=
  let m := mn.1
  let n := mn.2
  let r := (acc.1.accElem i m n).mmaRow (dFmt da) (dFmt db) (dCols da) (tileElem src da m) (tileElem src db n)
    (tileScale src da m) (tileScale src db n)
  ({ acc.1 with acc := mapPut AccElem.zero acc.1.acc (accKey i m n) r.1 }, acc.2 ||| r.2)

/-- All index pairs (m, n) with m < M and n < N. -/
def tilePairs (m n : Nat) : List (Nat × Nat) := (List.range m).flatMap (fun i => (List.range n).map (fun j => (i, j)))

/-- The whole product. -/
def mmaApply (x : CoreSt) (da db : DescWord) (i : Nat) (zero : Bool) : CoreSt × FpFlags :=
  let y := if zero then x.accClear i else x
  (tilePairs (dRows da) (dRows db)).foldl (mmaElem x da db i) (y, 0)

/-- DST[0] or SRC1[0] selects the accumulator and the field's other bits are zero. -/
def isAcc (i : Fin 32) : Bool := decide (i.val < 2)

/-- MMA: once every check has passed, an MMA of 64 steps or more waits until every piece of its toll is granted. -/
def execMma (a : CoreOp) (s : State) : Answer :=
  runCore a (benchForm (isAcc a.dst && isLow3 a.src1 && isLow3 a.src2 && immBelow a 1)) (fun s c =>
    let da := c.dreg (low3 a.src1)
    let db := c.dreg (low3 a.src2)
    let steps := (mmaSteps (dFmt da) (dFmt db) (dCols da)).getD 0
    match mmaFault da db with
    | some code => .exc code
    | none =>
      if heavySteps ≤ steps ∧ c.tollHeld = none then
        .stay (s.updCore a.core (fun c => { c with tollHeld := some steps }))
      else if heavySteps ≤ steps ∧ c.tollHeld ≠ some 0 then .stay s
      else
        let r := mmaApply c da db a.dst.val (opImm a 0 0 == 1)
        let t := s.setCore a.core { r.1.countUp 0 steps with tollHeld := none }
        let t := t.orFlags a.core r.2
        .next (if heavySteps ≤ steps then t.tollPerform a.core steps else t)) s

def execAzero (a : CoreOp) (s : State) : Answer :=
  runPure a (plainForm (isAcc a.dst && noSrc1 a && noSrc2 a && noImm a)) (fun c => c.accClear a.dst.val) s

/-! ## Drains (R117, R118, R190) -/

/-- The exception of a drain's descriptor. -/
def drainFault (d : DescWord) : Option Nat :=
  if descRange d then some exRange
  else if descOperand d || !fmtIsDrain (dFmt d) || decide (64 < dRows d) || decide (64 < dCols d) then some exOperand
  else none

/-- Row `r` of accumulator `i` converted to a format. -/
def drainRow (x : CoreSt) (i fmt r cols : Nat) : List (Nat × FpFlags) :=
  (List.range cols).map (fun c => (x.accElem i r c).drain fmt)

/-- Store the tile row by row. -/
def drainTile (x : CoreSt) (i : Nat) (d : DescWord) : CoreSt × FpFlags :=
  (List.range (dRows d)).foldl (fun acc r =>
    let es := drainRow x i (dFmt d) r (dCols d)
    (acc.1.putBytes (dAddr d + r * dStride d) (packElems (fmtBits (dFmt d)) (es.map (·.1))), acc.2 ||| flagsOf es)) (x, 0)

/-- Whether some row of a drain's tile does not cover whole lines (R55). DEDUCED (log entry 99, unsafe). -/
def drainReads (d : DescWord) : Bool :=
  let n := (dCols d * fmtBits (dFmt d) + 7) / 8
  (List.range (dRows d)).any (fun r => (dAddr d + r * dStride d) % 64 != 0 || n % 64 != 0)

def execAdrn (a : CoreOp) (s : State) : Answer :=
  runCore a (storeForm (isLow3 a.dst && isAcc a.src1 && noSrc2 a && immBelow a 1) (fun c => drainReads (c.dreg (low3 a.dst)))) (fun s c =>
    let d := c.dreg (low3 a.dst)
    match drainFault d with
    | some code => .exc code
    | none =>
      let r := drainTile c a.src1.val d
      let x := if opImm a 0 0 = 1 then r.1.accClear a.src1.val else r.1
      .next (State.orFlags (s.setCore a.core x) a.core r.2)) s

def execAdrv (a : CoreOp) (s : State) : Answer :=
  runCore a (plainForm (isAcc a.src1 && noSrc2 a && immBelow a 4)) (fun s c =>
    let g := opImm a 3 0
    let lane (l : Fin 256) : Nat × FpFlags := (c.accElem a.src1.val (4 * g + l.val / 64) (l.val % 64)).drain 10
    let v : Vector Lane 256 := Vector.ofFn (fun l => BitVec.ofNat 32 (lane l).1)
    .next (State.orFlags (s.updCore a.core (fun c => c.setV a.dst v)) a.core
      (flagsOf ((List.finRange 256).map lane)))) s

end Sys2Proof.Machine
end

