-- ==== Sys2Proof/Machine/Movement.lean ====
section
/-! DEFINITION. Endpoints, submission of movements, their start, last-off holding, frames to other devices, retirement, and
COPY and FILL (R144 to R159, R216, R220, R221, R259, R272, R279 to R281, R287, R302 to R304, R426, R475). -/

namespace Sys2Proof.Machine

/-! ## Endpoints (R148 to R151, R220) -/

/-- What the resolution of one endpoint over its whole envelope gives. -/
structure Endpoint where
  /-- Exceptions raised (R150). -/
  codes : List Nat
  /-- The endpoint names a lost sequence (R435), or a line of its map is uncorrectable (R241). -/
  lost : Bool
  /-- The block is In transit: the movement waits at submission (R220). -/
  waits : Bool
  /-- A permission is missing on some piece (R150). -/
  lacks : Bool
  /-- RANK names a rank that no device carries (R24). -/
  hostless : Bool
  /-- An uncorrectable line of a page table (R308). -/
  ue : Option Nat
  /-- A page table in host memory waits for the link (R442). -/
  down : Bool
  pieces : List Piece
  /-- The pieces of the second copy of a mirrored block (R221). -/
  mirror : List Piece
  /-- The storage word of a block, its mirror's, and its sequence. -/
  storage : Option Word
  mirrorWord : Option Word
  seq : Option Nat
  deriving DecidableEq, Repr

def Endpoint.codesOnly (cs : List Nat) : Endpoint := ⟨cs, false, false, false, false, none, false, [], [], none, none, none⟩

/-- A piece with every permission. -/
def plainPiece (n : Nat) (p : Place) : Piece := ⟨0, n, p, 0, true, true, true⟩

/-- BENCH: bits [63:19] zero and within the bench. -/
def benchEndpoint (c : CoreId) (reg env : Nat) : Endpoint :=
  { Endpoint.codesOnly ((if reg < 2 ^ 19 then [] else [exOperand]) ++
      (if benchSize < reg % 2 ^ 19 + env then [exRange] else [])) with
    pieces := [plainPiece env (.bench c reg)] }

/-- The context root a manifest's translations use. -/
def State.rootOf (s : State) (m : Manifest) : Word := (s.berth m.berth).ptRoot

/-- The pieces of a virtual range as an endpoint, with permission for a source or a destination. -/
def xlatedEndpoint (x : Xlated) (write : Bool) : Endpoint :=
  { Endpoint.codesOnly ((if x.missing then [exTranslate] else []) ++ (if 64 < countRuns x.pieces then [exOperand] else [])) with
    lacks := x.pieces.any (fun p => if write then !p.w else !p.r)
    ue := x.ue
    down := x.down
    pieces := x.pieces }

/-- VA: bits [63:48] zero; a range past 2^48 has no translation. -/
def State.vaEndpoint (s : State) (c : CoreId) (m : Manifest) (reg env : Nat) (write : Bool) : State × Endpoint :=
  if 2 ^ 48 ≤ reg then (s, Endpoint.codesOnly [exOperand])
  else if 2 ^ 48 < reg + env then (s, Endpoint.codesOnly [exTranslate])
  else
    match s.translate (some (corePart c).val) m.context (s.rootOf m) reg (reg + env) with
    | (s1, x) => (s1, xlatedEndpoint x write)

/-- Whether a rank is the primary of a hedge pair of the manifest (R367). -/
def Manifest.hedged (m : Manifest) (rank : Nat) : Bool := m.hedges.any (fun h => h.1 == rank)

/-- The partitions of the members of a rank that have not been dropped. -/
def Manifest.rankParts (m : Manifest) (rank : Nat) : List Nat :=
  (m.ranks.filter (fun r => r.rank == rank && !r.dropped)).map (fun (r : RankRun) => r.part)

/-- Where a RANK address lands: the device and partition that carry the rank; for the primary of a hedge pair the issuing
member's own partition, or every member's partition for any other issuer (R149, R368). DEDUCED (log entry 79, unsafe). -/
def State.rankHosts (s : State) (c : CoreId) (m : Manifest) (rank : Nat) (host : Option (Landing × Nat)) : List (Landing × Nat) :=
  let own := match (s.core c).kernel with
    | some k => k.rank == rank
    | none => false
  if m.hedged rank && own then [(s.landing, (corePart c).val)]
  else if m.hedged rank && !(m.rankParts rank).isEmpty then (m.rankParts rank).map (fun p => (s.landing, p))
  else host.toList

/-- RANK: the virtual range is translated first, and each run's offset is then applied in the partition that carries the
rank (R149, R304). -/
def State.rankEndpoint (s : State) (c : CoreId) (m : Manifest) (reg env : Nat) (write : Bool) : State × Endpoint :=
  let k := bits reg 61 48
  let va := bits reg 47 0
  let member := match s.vdev? m.vdev with
    | some v => v.member? k
    | none => none
  match member with
  | none => (s, Endpoint.codesOnly [exOperand])
  | some mem =>
    if 2 ^ 62 ≤ reg then (s, Endpoint.codesOnly [exOperand])
    else match s.vaEndpoint c m va env write with
      | (s1, e) =>
        if e.pieces.any (fun p => !rankClassOk p.cls p.place.addr) then (s1, { e with codes := exOperand :: e.codes, pieces := [] })
        else match s.rankHosts c m k mem.host with
          | [] => (s1, { e with hostless := true, pieces := [] })
          | first :: more =>
            let used := if write then first :: more else [first]
            let at_ (h : Landing × Nat) : List Piece :=
              e.pieces.filterMap (fun p => (rankPlace s.landing h.1 h.2 p).map (fun q => { p with place := q }))
            if used.any (fun h => e.pieces.any (fun p => (rankPlace s.landing h.1 h.2 p).isNone)) then
              (s1, { e with codes := exOperand :: e.codes, pieces := [] })
            else (s1, { e with pieces := at_ first, mirror := if write then more.flatMap at_ else [] })

/-- The place of a storage word. Block storage in LPDDR5X is under domain 0. -/
def storagePlace (w : Word) (off : Nat) : Place :=
  if storageLanding w = 0 then .dev (storageAddr w + off) 0
  else .remote (BitVec.ofNat 16 (storageLanding w)) (storageAddr w + off) 0

/-- BLOCK: through the block map (R220, R221, R435). -/
def State.blockEndpoint (s : State) (m : Manifest) (reg env : Nat) (write : Bool) : State × Endpoint :=
  if !keyOk reg then (s, Endpoint.codesOnly [exOperand])
  else if s.seqLost m.vslot.val (keySeq reg) then (s, { Endpoint.codesOnly [] with lost := true })
  else
    let n := blockName m.vslot.val reg
    if ((s.part 0).state = .resetting ∧ !s.isResident n) ∨ s.spanWaits n.slot reg [(n.block, n.block)] then (s, { Endpoint.codesOnly [] with waits := true }) else
    match s.lookup n with
    | (s1, .ue) => (s1, { Endpoint.codesOnly [] with lost := true })
    | (s1, .entry e) =>
      let off := 64 * keyLine reg
      if e.state = stFree ∨ (s1.classRec n.slot e.cls).blockBytes < off + env then (s1, Endpoint.codesOnly [exOperand])
      else if e.state = stInTransit then (s1, { Endpoint.codesOnly [] with waits := true })
      else
        let w := e.storage
        let mw := if e.mirrored then s1.entryMirror n e else none
        (s1, { Endpoint.codesOnly [] with
          pieces := [plainPiece env (storagePlace w off)]
          mirror := match mw with
            | some x => if write then [plainPiece env (storagePlace x off)] else []
            | none => []
          storage := some w
          mirrorWord := mw
          seq := some n.seq })

/-- The low six bits of an address register other than a key (R151). -/
def alignCodes (cls reg : Nat) : List Nat := if cls ≤ 2 ∧ reg % 64 ≠ 0 then [exOperand] else []

/-- Resolve an address of a class over an envelope (R148, R149, R220, R302 to R304). DEDUCED (log entry 35, unsafe). -/
def State.resolve (s : State) (c : CoreId) (m : Manifest) (cls reg env : Nat) (write : Bool) : State × Endpoint :=
  if cls = 0 then (s, benchEndpoint c reg env)
  else if cls = 1 then s.vaEndpoint c m reg env write
  else if cls = 2 then s.rankEndpoint c m reg env write
  else s.blockEndpoint m reg env write

/-- Resolve an endpoint of a movement (R144, R148 to R151). -/
def State.endpoint (s : State) (c : CoreId) (m : Manifest) (cls reg env : Nat) (write : Bool) : State × Endpoint :=
  match s.resolve c m cls reg env write with
  | (s1, e) => (s1, { e with codes := alignCodes cls reg ++ e.codes })

/-- The lowest exception code of a list (R95). -/
def lowestCode (cs : List Nat) : Option Nat := cs.min?

/-- The first trouble met by the pieces of an endpoint, and its place (R157, R248, R525). -/
def State.piecesTrouble (s : State) (ps : List Piece) (write : Bool) : Option (Trouble × Place) :=
  ps.findSome? (fun p => match s.trouble p.place p.bytes write with
    | some t => some (t, p.place)
    | none => none)

/-! ## Rows (R153, R154) -/

/-- The 64-byte rows of a movement as pairs of source and destination offsets. -/
def rowOffsets (rows len sstride dstride : Nat) : List (Nat × Nat) :=
  (List.range rows).flatMap (fun i => (List.range (len / 64)).map (fun j => (i * sstride + 64 * j, i * dstride + 64 * j)))

/-- Pair the places of two endpoints row by row. -/
def pairRows (src dst : List Piece) (offs : List (Nat × Nat)) : List (Place × Place) :=
  offs.filterMap (fun o => match placeAt src o.1, placeAt dst o.2 with
    | some p, some q => some (p, q)
    | _, _ => none)

/-! ## Tolls (R474, R475) -/

/-- The units per KiB of a place. R474 gives none for a bench, so a movement between benches, and a FILL of one, costs nothing and waits for
no toll. DESIGN CHOICE (log entry 106, unsafe). -/
def placeToll (p : Place) : Nat :=
  match p with
  | .bench _ _ => 0
  | .dev a _ => match addrKind a with
    | .store _ => 1
    | _ => 48
  | .remote _ _ _ => 64
  | .host _ => 32

def Place.isRemote : Place → Bool
  | .remote _ _ _ => true
  | _ => false
def Place.isHost : Place → Bool
  | .host _ => true
  | _ => false

/-- The toll of a movement of `total` bytes between places: 64 KiB or more by the farther endpoint, or a link burst of
4 KiB or more; charged once. The farther endpoint is taken to be the one that costs more.
DESIGN CHOICE (log entry 106, unsafe). -/
def moveToll (ps : List Place) (total : Nat) : Nat :=
  let kib := ceilDiv total 1024
  let burst := ps.any Place.isRemote && decide (4096 ≤ total)
  if burst then 64 * kib
  else if 65536 ≤ total then kib * (ps.map placeToll).foldl max 0
  else 0

/-! ## Last-off (R279, R281) -/

/-- Whether an earlier submission of the stream still has a write to destination `d` to perform: a movement that has not
started or has rows left there, or a write held there. -/
def State.streamPending (s : State) (t : StreamId) (before : Nat) (d : Dest) : Bool :=
  s.moves.any (fun m => m.stream == t && decide (m.id < before) &&
    (m.rowsLeft.any (fun r => r.2.dest s.landing == d) || m.readsOut.any (fun r => r.2.2.2.dest s.landing == d))) ||
  s.held.any (fun h => h.fromDevice == none && h.stream == t && decide (h.move < before) && h.place.dest s.landing == d)

/-- Hold a last-off write of this device at its destination. -/
def State.holdLocal (s : State) (t : StreamId) (move : Nat) (p : Place) (bs : List Byte) (flag : Bool) : State :=
  { s with held := s.held ++ [⟨s.nextHeld, none, t, 0, move, p, bs, if flag then .flag else .data, move, 0⟩], nextHeld := s.nextHeld + 1 }

/-- Last-off writes held at a destination (R281). -/
def State.heldCount (s : State) (d : Dest) : Nat := (s.held.filter (fun h => h.place.dest s.landing == d)).length

/-- Whether a destination holds as many last-off writes as it has room for: 256 at a partition (R281). -/
def State.holdFull (s : State) (d : Dest) (more : Nat) : Bool := match d with
  | .part _ _ => decide (256 ≤ s.heldCount d + more)
  | _ => false

/-- The rows of a movement that can start, and those that are sent again later: of a last-off movement, the rows to another device behind
earlier writes of its stream to their destination, so that PRIOR counts those frames; and the rows that have to be held where there is
no room. Rows to other destinations go on (R279, R281, R426). -/
def State.startable (s : State) (m : Movement) : List (Place × Place) × List (Place × Place) :=
  if !m.last then (m.rowsLeft, [])
  else m.rowsLeft.foldl (fun acc r =>
    let d := r.2.dest s.landing
    let behind := s.streamPending m.stream m.id d
    if behind && (r.2.isRemote || s.holdFull d (acc.1.filter (fun x => x.2.dest s.landing == d)).length) then (acc.1, acc.2 ++ [r])
    else (acc.1 ++ [r], acc.2)) ([], [])

/-! ## Frames of a movement (R426) -/

/-- MSTREAM of a stream: each issue of a manifest is an instance of its own. DEDUCED (log entry 104, unsafe). -/
def mstreamOf (t : StreamId) : Lane :=
  BitVec.ofNat 32 ((t.manifest * 16 + t.replay % 16) % 4096 * 2 ^ 20 + (corePart t.core).val * 2 ^ 16 + coreNum t.core * 2 ^ 12 + t.stream % 16 * 256)

/-- Send a frame of a movement with its data extension; `prior` is given for a last-off write. -/
def State.sendMove (s : State) (l : Landing) (ty : Nat) (t : StreamId) (move addr edom op len : Nat) (prior : Option Nat)
    (payload : List Byte) : State :=
  s.sendData l ty (mstreamOf t) move addr edom op len prior payload (some move)

/-- The most bytes one READ requests. -/
def readLines : Nat := 1024

/-- Group rows that continue each other into pieces of at most `limit` rows. -/
def groupRows (limit : Nat) : List (Place × Place) → List (Place × Place × Nat)
  | [] => []
  | r :: t =>
    match groupRows limit t with
    | (p, q, n) :: rest =>
      if n < limit ∧ p = r.1.plus 64 ∧ q = r.2.plus 64 then (r.1, r.2, n + 1) :: rest else (r.1, r.2, 1) :: (p, q, n) :: rest
    | [] => [(r.1, r.2, 1)]

/-! ## The remote read buffer (R272) -/

/-- Whether every line of a range is held in a core's buffer. DESIGN CHOICE (log entry 19, safe). -/
def CoreSt.bufferHas (x : CoreSt) (l : Landing) (a n : Nat) : Bool :=
  (List.range (n / 64)).all (fun i => x.readBuffer.any (fun b => b.1 == l && b.2.1 == a + 64 * i))
def CoreSt.bufferRead (x : CoreSt) (l : Landing) (a n : Nat) : List Byte :=
  (List.range (n / 64)).flatMap (fun i => match x.readBuffer.find? (fun b => b.1 == l && b.2.1 == a + 64 * i) with
    | some b => b.2.2
    | none => [])
/-- Lines read enter the buffer, which holds 64. -/
def CoreSt.bufferPut (x : CoreSt) (l : Landing) (a : Nat) (bs : List Byte) : CoreSt :=
  let fresh := (List.range (bs.length / 64)).map (fun i => (l, a + 64 * i, (bs.drop (64 * i)).take 64))
  { x with readBuffer := (fresh ++ x.readBuffer.filter (fun b => !fresh.any (fun f => f.1 == b.1 && f.2.1 == b.2.1))).take 64 }
/-- A line the core writes leaves the buffer. -/
def CoreSt.bufferDrop (x : CoreSt) (l : Landing) (a n : Nat) : CoreSt :=
  { x with readBuffer := x.readBuffer.filter (fun b => !(b.1 == l && decide (a ≤ b.2.1) && decide (b.2.1 < a + n))) }

/-! ## Performing rows -/

def State.updMove (s : State) (id : Nat) (f : Movement → Movement) : State :=
  { s with moves := s.moves.map (fun m => if m.id = id then f m else m) }
def State.move? (s : State) (id : Nat) : Option Movement := s.moves.find? (fun m => m.id == id)

/-- Write the bytes of a movement at a destination: to another device by WRITE frames of the length they admit (R422); held where it is last-off and an
earlier write of the stream to that destination is still to be performed; else at once. -/
def State.deliver (s : State) (m : Movement) (q : Place) (bs : List Byte) (prior : Nat) : State × Option Nat :=
  match q with
  | .remote l a d =>
    let s1 := (List.range (bs.length / (64 * writeLines) + 1)).foldl (fun s i =>
      let part := (bs.drop (64 * writeLines * i)).take (64 * writeLines)
      if part.isEmpty then s
      else s.sendMove l (if m.word.isSome then tyAtomic else tyWrite) m.stream m.id (a + 64 * writeLines * i) d
        (if m.word.isSome then 1 else 0) 0 (if m.last then some prior else none) part) s
    let s2 := s1.updCore m.core (fun x => x.bufferDrop l a bs.length)
    (s2.updMove m.id (fun m => { m with writesOut := mapPut 0 m.writesOut l.toNat (mapGet 0 m.writesOut l.toNat + bs.length) }), none)
  | q =>
    if m.last ∧ s.streamPending m.stream m.id (q.dest s.landing) then (s.holdLocal m.stream m.id q bs m.word.isSome, none)
    else s.placeWrite q bs

/-- What reading a line of a movement's source gives: its bytes, an uncorrectable line, or the place on another device of the mirror line
that is read in its place (R259). -/
inductive LineGot where
  | bytes (bs : List Byte)
  | ue (line : Nat)
  | mirror (landing : Landing) (addr : Nat)
  deriving DecidableEq, Repr

/-- The primary line of a mirrored block is rewritten whole from its mirror, with an entry (R259). -/
def State.repairLine (s : State) (line : Nat) (good : List Byte) : State :=
  State.addFault (s.writeLine line 0 good) (memFault 2 ((addrPart line).map (·.val)) line)

/-- Read a line of a movement's source on this device; an uncorrectable primary of a mirrored block reads from its mirror (R259). -/
def State.sourceLine (s : State) (m : Movement) (p : Place) : State × LineGot :=
  match s.placeRead p 64 with
  | (s1, .inl bs) => (s1, .bytes bs)
  | (s1, .inr line) =>
    match m.mirror with
    | some (base, w) =>
      let a := storageAddr (BitVec.ofNat 64 w) + (line - base)
      if storageLanding (BitVec.ofNat 64 w) ≠ 0 then (s1, .mirror (BitVec.ofNat 16 (storageLanding (BitVec.ofNat 64 w))) a)
      else if (s1.devTrouble a 64 false).isSome then (s1, .ue line)
      else match s1.readBytes a 64 0 with
        | (s2, .inl good) => (s2.repairLine line good, .bytes good)
        | (s2, .inr _) => (s2, .ue line)
    | none => (s1, .ue line)

/-- The primary line that a line read from another device mirrors, where a movement's mirror is there (R259). -/
def Movement.primaryOf (m : Movement) (l : Landing) (a : Nat) : Option Nat := match m.mirror with
  | some (base, w) =>
    if storageLanding (BitVec.ofNat 64 w) = l.toNat ∧ l ≠ 0 ∧ storageAddr (BitVec.ofNat 64 w) ≤ a then
      some (base + (a - storageAddr (BitVec.ofNat 64 w))) else none
  | none => none

/-- The frames of the movement's stream sent to a remote destination before the movement's first frame. -/
def Movement.priorOf (m : Movement) : Place → Nat
  | .remote l a _ => match m.priors.find? (fun p => p.1 == l && p.2.1 == addrPartNat a) with
    | some p => p.2.2
    | none => 0
  | _ => 0

/-- What performing rows came to: the state, and an uncorrectable line or a trouble that squashes the movement. -/
inductive RunOut where
  | ok
  | ue (line : Nat)
  deriving DecidableEq, Repr

/-- Perform one group of rows of a movement that has started. -/
def State.performGroup (acc : State × RunOut) (m : Movement) (g : Place × Place × Nat) : State × RunOut :=
  match acc.2 with
  | .ue line => (acc.1, .ue line)
  | .ok =>
    let s := acc.1
    let n := 64 * g.2.2
    let q := g.2.1
    let out (s : State) (bs : List Byte) : State × RunOut :=
      match s.deliver m q bs (m.priorOf q) with
      | (s1, some line) => (s1, .ue line)
      | (s1, none) => (s1, .ok)
    match m.word, m.fill with
    | some w, _ => out s (leBytes 8 w.toNat)
    | none, some w => out s ((List.replicate (n / 8) (leBytes 8 w.toNat)).flatten)
    | none, none =>
      match g.1 with
      | .remote l a d =>
        if (s.core m.core).bufferHas l a n ∧ Config.rrbHit s.free = true then out s.tick ((s.core m.core).bufferRead l a n)
        else
          let s1 := s.tick.sendMove l tyRead m.stream m.id a d 0 n none []
          (s1.updMove m.id (fun m => { m with readsOut := m.readsOut ++ [(l, a, n, q)] }), .ok)
      | p =>
        let got := (List.range g.2.2).foldl (fun (acc : State × LineGot) i => match acc.2 with
          | .bytes bs => match acc.1.sourceLine m (p.plus (64 * i)) with
            | (s1, .bytes more) => (s1, .bytes (bs ++ more))
            | r => r
          | _ => acc) (s, .bytes [])
        match got with
        | (s1, .bytes bs) => out s1 bs
        | (s1, .ue line) => (s1, .ue line)
        | (s1, .mirror l a) =>
          let s2 := s1.sendMove l tyRead m.stream m.id a 0 0 64 none []
          (s2.updMove m.id (fun m => { m with readsOut := m.readsOut ++ [(l, a, 64, q)] }), .ok)

/-- The groups of a list of rows: a row between places of this device, or with a mirror on another device, stands alone, so that each line
is read and written by itself; other rows to or from another device are grouped into frames. -/
def rowGroups (m : Movement) (rows : List (Place × Place)) : List (Place × Place × Nat) :=
  if m.mirror.isSome then rows.map (fun r => (r.1, r.2, 1))
  else if rows.any (fun r => r.1.isRemote) then groupRows readLines rows
  else if rows.any (fun r => r.2.isRemote) then groupRows writeLines rows
  else rows.map (fun r => (r.1, r.2, 1))

/-- Start a movement whose tolls are all granted: perform the rows that can start, sending frames where an endpoint lies on another
device; the others stay and start later. Trouble or an uncorrectable line squashes it and its job restarts or ends; a reserved region
under reset makes it wait (R156, R157, R247, R257, R279, R525). DESIGN CHOICE (log entry 34, unsafe). -/
def State.startMove (s : State) (id : Nat) : State :=
  match s.move? id with
  | none => s
  | some m =>
    let (now, later) := s.startable m
    if now.isEmpty && !later.isEmpty then s else
    let groups := if m.word.isSome then now.map (fun r => (r.1, r.2, 1)) else rowGroups m now
    let n := if m.word.isSome then 8 else 64
    let trouble := now.findSome? (fun r =>
      match (if m.fill.isSome || m.word.isSome then none else s.trouble r.1 n false) with
      | some t => some (t, r.1)
      | none => match s.trouble r.2 n true with
        | some t => some (t, r.2)
        | none => none)
    match trouble with
    | some (.waits, p) => s.troubleFault m.core m.manifest .waits p
    | some (t, p) => State.troubleFault { s with moves := s.moves.filter (fun x => x.id != id) } m.core m.manifest t p
    | none =>
      let pr : List (Landing × Nat × Nat) := m.priors ++ (now.filterMap (fun r => match r.2 with
        | .remote l a _ =>
          if m.priors.any (fun x => x.1 == l && x.2.1 == addrPartNat a) then none
          else some (l, addrPartNat a, s.txOrd l (mstreamOf m.stream) (addrPartNat a))
        | _ => none)).eraseDups
      let first := m.phase == .toll
      let m : Movement := { m with priors := pr }
      let s0 := s.updMove id (fun m => { m with rowsLeft := later, phase := .remote, priors := pr })
      match groups.foldl (fun acc g => State.performGroup acc m g) (s0, RunOut.ok) with
      | (s1, .ue line) =>
        State.memUe { s1 with moves := s1.moves.filter (fun x => x.id != id) } m.manifest (some (corePart m.core).val) line
      | (s1, .ok) => if m.toll = 0 ∨ !first then s1 else s1.tollPerform m.core m.toll

/-! ## Retirement (R146) -/

/-- Whether a movement has nothing left: every byte read, written and acknowledged, and no write of it held. -/
def State.moveDone (s : State) (m : Movement) : Bool :=
  m.tollsLeft.isEmpty && m.phase != .toll && m.rowsLeft.isEmpty && m.readsOut.isEmpty && m.writesOut.isEmpty &&
  !s.held.any (fun h => h.fromDevice == none && h.move == m.id) &&
  (match m.after with
   | some i => (s.move? i).isNone
   | none => true)

/-- Whether the movements and collectives of a core in the groups of a mask have all retired (R167). -/
def State.groupsDone (s : State) (c : CoreId) (mask : Nat) : Bool :=
  !s.moves.any (fun m => m.core == c && decide (m.group < 16) && mask.testBit m.group) &&
  !s.colls.any (fun l => l.parts.any (fun p => p.core == c) && !l.retired.contains c && mask.testBit (mapGet 0 l.groups c.val))

/-- The end of SCMT, once its rows are copied: the blocks it allocated become Committed, the tree is freed, and the status is written
(R230). An uncorrectable line of the map ends the job (R241). -/
def State.scmtFinish (s : State) (c : CoreId) (slot seq plane : Nat) (fresh : List Nat) (dst : Fin 32) (status : Word) : State :=
  let block (b : Nat) : BlockName := ⟨slot, seq, plane, b⟩
  let r := commitAll (fresh.map block) s
  let t := freeTree (block 0) r.1
  match (s.core c).kernel with
  | some k => if r.2 && t.2 then t.1.updCore c (fun x => x.setS dst status) else t.1.endJob k.manifest stStateLost 0
  | none => t.1

/-- A core that waits for retirements goes on once they are complete: past MWAIT, past SCMT, or to the end of its kernel. -/
def State.wake (s : State) (c : CoreId) : State :=
  match (s.core c).phase with
  | .waiting (.groups mask) =>
    if s.groupsDone c mask then State.advance (s.updCore c (fun x => { x with phase := .running })) c 1 else s
  | .waiting (.scmt id slot seq plane fresh dst status) =>
    if (s.move? id).isNone then
      let t := State.scmtFinish (s.updCore c (fun x => { x with phase := .running })) c slot seq plane fresh dst status
      if (t.core c).phase = .running ∧ (t.core c).kernel = (s.core c).kernel then t.advance c 1 else t
    else s
  | .waiting .kernelEnd => if s.coreQuiet c then s.endKernel c else s
  | _ => s

/-- Remove a movement that has retired: its bytes are counted, movements and collectives count as progress (R520), its
core may go on, and partitions being left may be done. Updates of flags are no movements. -/
def State.retireMove (s : State) (m : Movement) : State :=
  let s1 : State := { s with moves := s.moves.filter (fun x => x.id != m.id) }
  let s2 := s1.updCore m.core (fun x => x.countUp 3 m.bytes)
  let s3 := if m.word.isNone then s2.progress (corePart m.core) else s2
  State.leaveChecks (s3.wake m.core)

/-- A started movement with nothing left retires. Rows whose start was put off (a reserved region whose partition was Resetting, R247;
earlier writes of a last-off stream, or no room to hold them, R279, R281) start here once they can. -/
def State.movementRetire (s : State) (move : Nat) : State :=
  match s.move? move with
  | none => s
  | some m =>
    if m.tollsLeft.isEmpty && !m.rowsLeft.isEmpty then s.startMove move
    else if s.moveDone m then s.retireMove m else s

/-! ## Submission (R144, R145, R150, R157) -/

/-- Movements and collectives of a core in flight (R145). -/
def State.inFlight (s : State) (c : CoreId) : Nat :=
  (s.moves.filter (fun m => m.core == c && decide (m.group < 16))).length +
  (s.colls.filter (fun l => l.parts.any (fun p => p.core == c) && !l.retired.contains c)).length

/-- The epoch of a manifest's context (R305). -/
def State.epochOf (s : State) (m : Manifest) : Nat := (s.berth m.berth).epoch

/-- Note the sequences a job's kernels have resolved (R434). -/
def State.noteSeqs (s : State) (id : Nat) (qs : List Nat) : State :=
  s.updManifest id (fun m => { m with seqs := qs.foldl (fun l q => if l.contains q then l else l ++ [q]) m.seqs })

/-- The checks on a pair of endpoints, in the order of R150: exceptions, lowest code first; then a lost sequence, a block in
transit, an uncorrectable table line, a missing permission; then stranded, resetting and unpopulated places. A table in host memory is
read before any of them, once the link is up (R442). -/
inductive Verdict where
  | exc (code : Nat)
  | lost
  | down
  | waits
  | ue (line : Nat)
  | freeze
  | hostless
  | trouble (t : Trouble) (p : Place)
  | ok
  deriving DecidableEq, Repr

def State.verdict (s : State) (codes : List Nat) (src : Option Endpoint) (dst : Endpoint) : Verdict :=
  let es : List Endpoint := match src with
    | some e => [e, dst]
    | none => [dst]
  if es.any (·.down) then .down
  else match lowestCode (codes ++ es.flatMap (·.codes)) with
    | some code => .exc code
    | none =>
      if es.any (·.lost) then .lost
      else if es.any (·.waits) then .waits
      else match es.findSome? (·.ue) with
        | some line => .ue line
        | none =>
          if es.any (·.lacks) then .freeze
          else if es.any (·.hostless) then .hostless
          else
            let t1 := match src with
              | some e => s.piecesTrouble e.pieces false
              | none => none
            match t1, s.piecesTrouble (dst.pieces ++ dst.mirror) true with
            | some (t, p), _ => .trouble t p
            | none, some (t, p) => .trouble t p
            | none, none => .ok

/-- What each verdict but `ok` comes to for the instruction; its core no longer dispatches, or stays at it. -/
def State.refuseMove (s : State) (c : CoreId) (m : Manifest) : Verdict → Body
  | .exc code => .exc code
  | .lost => .done (s.endJob m.id stStateLost 0)
  | .down => .stay s
  | .waits => .stay (if (s.part 0).state = .resetting then s.waitOn m.id 0 else s)
  | .ue line => .done (s.memUe m.id (some (corePart c).val) line)
  | .freeze => .done (s.freezeMover c)
  | .hostless => .done (s.moverFault m.id c none 1)
  | .trouble .waits p => .stay (s.troubleFault c m.id .waits p)
  | .trouble t p => .done (s.troubleFault c m.id t p)
  | .ok => .next s

/-- The manifest of the kernel a core runs, and the kernel. -/
def State.running (s : State) (c : CoreId) : Option (KernelSlot × Manifest) :=
  match (s.core c).kernel with
  | some k => match s.manifest? k.manifest with
    | some m => some (k, m)
    | none => none
  | none => none

/-- The fields of a movement's two words (R152). -/
structure MoveFields where
  group : Nat
  scls : Nat
  dcls : Nat
  last : Bool
  stream : Nat
  rows : Nat
  sstride : Nat
  dstride : Nat
  deriving DecidableEq, Repr

def moveFields (a : CoreOp) (second : Word) : MoveFields where
  group := opImm a 3 0
  scls := opImm a 7 4
  dcls := opImm a 11 8
  last := opImm a 12 12 == 1
  stream := opImm a 16 13
  rows := wbits second 15 0
  sstride := wbits second 39 16
  dstride := wbits second 63 40

/-- The encoding rules of R152. -/
def moveLegal (a : CoreOp) (second : Word) (fill : Bool) : Bool :=
  let f := moveFields a second
  immBelow a 17 && decide (f.scls ≤ 3) && decide (f.dcls ≤ 3) && f.rows != 0 &&
  (!fill || (f.scls == 0 && f.sstride == 0)) && (f.rows != 1 || (f.sstride == 0 && f.dstride == 0))

/-- The rules on row length, strides and total (R151, R153). -/
def shapeCodes (f : MoveFields) (len : Nat) : List Nat :=
  if len < 64 ∨ 2 ^ 32 - 64 < len ∨ len % 64 ≠ 0 ∨ f.sstride % 64 ≠ 0 ∨ f.dstride % 64 ≠ 0 ∨ 2 ^ 32 - 64 < f.rows * len then
    [exOperand] else []

/-- The places of an endpoint's pieces. -/
def Endpoint.places (e : Endpoint) : List Place := e.pieces.map (·.place) ++ e.mirror.map (·.place)

/-- The movement a submission makes. -/
def newMove (s : State) (c : CoreId) (k : KernelSlot) (m : Manifest) (f : MoveFields) (fill : Option Word) (len : Nat)
    (src : Option Endpoint) (dst : Endpoint) : Movement :=
  let offs := rowOffsets f.rows len f.sstride f.dstride
  let from_ := match src with
    | some e => e.pieces
    | none => dst.pieces
  let offs := match src with
    | some _ => offs
    | none => offs.map (fun o => (o.2, o.2))
  let places := (match src with
    | some e => e.places
    | none => []) ++ dst.places
  let toll := moveToll places (f.rows * len)
  { id := s.nextMove
    core := c
    manifest := m.id
    group := f.group
    context := m.context
    epoch := s.epochOf m
    stream := ⟨c, k.rank, m.id, m.replays, f.stream⟩
    last := f.last
    phase := .toll
    fill := fill
    word := none
    rowsLeft := pairRows from_ dst.pieces offs ++ (if dst.mirror.isEmpty then [] else pairRows from_ dst.mirror offs)
    tollsLeft := tollPieces toll
    readsOut := []
    writesOut := []
    priors := []
    endpoints := places
    blocks := ((match src with
      | some e => e.storage.toList
      | none => []) ++ dst.storage.toList).map (·.toNat)
    mirror := match src with
      | some e => match e.storage, e.mirrorWord with
        | some w, some v => if storageLanding w = 0 then some (storageAddr w, v.toNat) else none
        | _, _ => none
      | none => none
    after := none
    spared := none
    toll := toll
    bytes := f.rows * len
    submitted := s.beat }

/-- Submit a movement: it is in flight, and starts at once where it needs no toll (R144, R156). -/
def State.submit (s : State) (m : Movement) (seqs : List Nat) : State :=
  let s1 : State := { s with moves := s.moves ++ [m], nextMove := s.nextMove + 1 }
  let s2 := s1.noteSeqs m.manifest seqs
  if m.tollsLeft.isEmpty then s2.startMove m.id else s2

/-! ## Hedged effects (R368) -/

/-- Whether a home lies outside both partitions of a hedge pair and every bench. -/
def outsidePair (m : Manifest) (rank : Nat) : Place → Bool
  | .bench _ _ => false
  | .dev a _ => match addrPart a with
    | some p => !(m.ranks.any (fun r => r.rank == rank && r.part == p.val))
    | none => true
  | _ => true

/-- The key of the n-th effect of a logical core in a kernel. -/
def effectKey (c : CoreId) (k : KernelSlot) (n : Nat) : Nat × Nat := (k.rank * 12 + coreNum c, k.kindex * 2 ^ 32 + n)

/-- Take the next effect of a core of a hedge pair: the movement of the member that submitted it first, if any.
DEDUCED (log entry 38, unsafe). -/
def State.takeEffect (s : State) (c : CoreId) (k : KernelSlot) (m : Manifest) : State × Option Nat :=
  let n := (s.core c).effects
  let key := effectKey c k n
  let s1 := s.updCore c (fun x => { x with effects := n + 1 })
  match m.effectsDone.find? (fun e => (e.1, e.2.1) == key) with
  | some e => (s1, some e.2.2)
  | none => (s1.updManifest m.id (fun m => { m with effectsDone := (key.1, key.2, s.nextMove) :: m.effectsDone }), none)

/-- A movement of a hedge pair that the other member has submitted performs only its writes within the pair, and retires
with the other's. -/
def State.dedup (s : State) (k : KernelSlot) (m : Manifest) (v : Movement) : State × Movement :=
  if m.hedged k.rank && v.rowsLeft.any (fun r => outsidePair m k.rank r.2) then
    match s.takeEffect v.core k m with
    | (s1, some i) =>
      (s1, { v with
        rowsLeft := v.rowsLeft.filter (fun r => !outsidePair m k.rank r.2), tollsLeft := [], toll := 0, after := some i
        spared := some (v.rowsLeft.filter (fun r => outsidePair m k.rank r.2), v.tollsLeft, v.toll) })
    | (s1, none) => (s1, v)
  else (s, v)

/-- The whole submission of COPY or FILL (R144, R145, R150). -/
def moveBody (a : CoreOp) (second : Word) (fill : Bool) (s : State) (c : CoreSt) : Body :=
  match s.running a.core with
  | none => .stay s
  | some (k, m) =>
    if 16 ≤ s.inFlight a.core ∨ s.moverFrozen a.core then .stay s
    else
      let f := moveFields a second
      let len := (opY a c).toNat
      let env (stride : Nat) : Nat := (f.rows - 1) * stride + len
      let (s1, src) : State × Option Endpoint :=
        if fill then (s, none)
        else
          let r := s.endpoint a.core m f.scls (opX a c).toNat (env f.sstride) false
          (r.1, some r.2)
      let (s2, dst) := s1.endpoint a.core m f.dcls (c.sreg a.dst).toNat (env f.dstride) true
      match s2.verdict (shapeCodes f len) src dst with
      | .ok =>
        let mv := newMove s2 a.core k m f (if fill then some (opX a c) else none) len src dst
        let qs := ((match src with
          | some e => e.seq.toList
          | none => []) ++ dst.seq.toList)
        match s2.dedup k m mv with
        | (s3, mv) => .next (s3.submit mv qs)
      | v => s2.refuseMove a.core m v

/-- The form of a movement: two words, v2 with a BLOCK class, and a read of the bench where that is the source; the rows it writes
are whole lines (R55). -/
def moveForm (a : CoreOp) (second : Word) (fill : Bool) : Form :=
  let f := moveFields a second
  ⟨2, f.scls == 3 || f.dcls == 3, fun _ => !fill && f.scls == 0, moveLegal a second fill⟩

def execCopy (a : CoreOp) (second : Word) (s : State) : Answer :=
  runChecked a (moveForm a second false) (queued (.copy second) a (moveBody a second false)) s

def execFill (a : CoreOp) (second : Word) (s : State) : Answer :=
  runChecked a (moveForm a second true) (queued (.fill second) a (moveBody a second true)) s

/-! ## Held last-off writes (R279, R281) -/

/-- Whether a held write may be performed now. -/
def State.heldReady (s : State) (h : Held) : Bool :=
  match h.fromDevice with
  | none => !s.streamPending h.stream h.prior (h.place.dest s.landing)
  | some l => match s.peer? l with
    | some p => p.performedBelow h.mstream (addrPartNat h.place.addr) h.prior
    | none => false

/-- A frame of another device's stream that is not performed: its ordinal counts as squashed, and the writes held behind it are
discarded with it (R281). -/
def State.squashFrame (s : State) (l : Landing) (ms : Lane) (part ord : Nat) : State :=
  State.discardHeld (s.updPeer l (fun p => p.refuse ms part ord))
    (fun h => h.fromDevice == some l && h.mstream == ms && addrPartNat h.place.addr == part && decide (ord < h.prior)) (fun _ => part)

/-- A write of another device at its home: its device is told how many bytes were performed, none where a partial write met an
uncorrectable line, which squashes it (R253, R257, R281, R426). -/
def State.homeWrite (s : State) (l : Landing) (ms : Lane) (ord move : Nat) (p : Place) (bs : List Byte) (kind : HeldKind) : State :=
  let r := match kind with
    | .eventAdd => s.wordAdd p (BitVec.ofNat 64 (leNat bs))
    | _ => s.placeWrite p bs
  match r with
  | (s1, none) => State.sendWack (s1.updPeer l (fun x => x.perform ms (addrPartNat p.addr) ord)) l move bs.length
  | (s1, some line) =>
    let s2 := State.listUe (s1.addFault (memFault 1 ((addrPart line).map (fun (p : PartId) => p.val)) line)) line
    State.sendWack (s2.squashFrame l ms (addrPartNat p.addr) ord) l move 0

/-- A held write whose earlier writes have been performed is performed; its device is answered, and an update of a flag of this device
is complete. -/
def State.lastoffPerform (s : State) (held : Nat) : State :=
  match s.held.find? (fun h => h.id == held) with
  | none => s
  | some h =>
    if !s.heldReady h then s
    else
      let s1 : State := { s with held := s.held.filter (fun x => x.id != held) }
      match h.fromDevice with
      | some l => s1.homeWrite l h.mstream h.ord h.move h.place h.data h.kind
      | none => match s1.placeWrite h.place h.data with
        | (s2, some line) =>
          State.memUe { s2 with moves := s2.moves.filter (fun m => m.id != h.move) } h.stream.manifest
            (some (corePart h.stream.core).val) line
        | (s2, none) =>
          match s2.move? h.move with
          | some m => if m.group = 16 ∧ s2.moveDone m then s2.retireMove m else s2
          | none => s2

end Sys2Proof.Machine
end

