-- ==== Sys2Proof/Machine/Collective.lean ====
section
/-! DEFINITION. Collectives: submission, participants, results and retirement (R160 to R163, R184, R192, R193, R368,
R474). -/

namespace Sys2Proof.Machine

/-! ## Results (R160, R192) -/

/-- The tree of R192 over a list of participants' values. -/
def collTree (op : Nat → Nat → Nat × FpFlags) : Nat → List Nat → Nat × FpFlags
  | 0, vs => (vs.getD 0 0, 0)
  | fuel + 1, vs =>
    if vs.length ≤ 1 then (vs.getD 0 0, 0)
    else
      let h := 2 ^ clog2 vs.length / 2
      let l := collTree op fuel (vs.take h)
      let r := collTree op fuel (vs.drop h)
      let z := op l.1 r.1
      (z.1, l.2 ||| r.2 ||| z.2)

/-- The element operation a REDOP names. -/
def redOp (redop : Nat) (x y : Nat) : Nat × FpFlags :=
  if redop = 0 then fpAdd fp32 x y
  else if redop = 1 then fpMax fp32 x y
  else if redop = 2 then fpMin fp32 x y
  else ((x + y) % 2 ^ 32, 0)

/-- The reduction of all sources, element by element, and the flags of its arithmetic. -/
def reduceAll (redop len : Nat) (sources : List (List Byte)) : List Byte × FpFlags :=
  (List.range (len / 4)).foldl (fun acc e =>
    let r := collTree (redOp redop) sources.length (sources.map (fun b => leNat ((b.drop (4 * e)).take 4)))
    (acc.1 ++ leBytes 4 r.1, acc.2 ||| r.2)) ([], 0)

/-- FUNC codes. -/
def fAllred : Nat := 0
def fAllgath : Nat := 1
def fRedscat : Nat := 2
def fCbar : Nat := 3

/-- What participant `i` of a collective receives. -/
def collResult (func redop len : Nat) (sources : List (List Byte)) (i : Nat) : List Byte :=
  if func = fAllgath then sources.flatten
  else if func = fAllred then (reduceAll redop len sources).1
  else if func = fRedscat then
    let chunk := len / sources.length
    (((reduceAll redop len sources).1).drop (i * chunk)).take chunk
  else []

/-- The flags of a collective's arithmetic. -/
def collFlags (func redop len : Nat) (sources : List (List Byte)) : FpFlags :=
  if func = fAllred ∨ func = fRedscat then (reduceAll redop len sources).2 else 0

/-! ## Participants (R161) -/

/-- CORE_MASK of a kernel of a manifest. -/
def Manifest.coreMask (m : Manifest) (kindex : Nat) : Nat := match m.obj with
  | some o => match o.kernels[kindex]? with
    | some k => k.mask
    | none => 0
  | none => 0

/-- How many participants there are, and the index of a core. -/
def participants (m : Manifest) (k : KernelSlot) (team : Bool) : Nat :=
  if team then popCount (m.coreMask k.kindex) 12 else m.rankCount
def participantIndex (m : Manifest) (k : KernelSlot) (c : CoreId) (team : Bool) : Nat :=
  if team then popCount (m.coreMask k.kindex) (coreNum c) else k.rank - m.rankBase

/-- The logical cores of this device that take part in a collective, both members of a hedge pair among them. -/
def Coll.cores (l : Coll) (m : Manifest) : List CoreId :=
  if l.team then
    (m.ranks.filter (fun (r : RankRun) => r.rank == l.rank && !r.dropped)).flatMap (fun (r : RankRun) =>
      (partCores (partOf r.part)).filter (fun c => (m.coreMask l.kindex).testBit (coreNum c)))
  else (m.ranks.filter (fun (r : RankRun) => !r.dropped)).map (fun (r : RankRun) => coreIdOf (partOf r.part) ⟨l.lane % 12, by omega⟩)

/-- Whether participant `i` is one of this device's. -/
def Coll.isLocal (l : Coll) (m : Manifest) (i : Nat) : Bool :=
  l.team || m.ranks.any (fun (r : RankRun) => r.rank == m.rankBase + i)

/-- Whether some participant is on another device. -/
def Coll.crosses (l : Coll) (m : Manifest) (n : Nat) : Bool := (List.range n).any (fun i => !l.isLocal m i)

/-- The source of every participant, once each has submitted: those of this device from their parts, the others from what
has arrived. -/
def Coll.gather (l : Coll) (m : Manifest) (n : Nat) (arrived : List (Nat × List Byte)) : Option (List (List Byte)) :=
  (List.range n).mapM (fun i =>
    if l.isLocal m i then (l.parts.find? (fun (p : CollPart) => p.index == i)).map (fun (p : CollPart) => p.source)
    else match arrived.find? (fun a => a.1 == i) with
      | some a => if a.2.length = l.length ∨ l.func = fCbar then some a.2 else none
      | none => none)

/-- The collective a core's n-th COLL with a TEAM joins. -/
def Coll.joins (l : Coll) (k : KernelSlot) (c : CoreId) (team : Bool) (ordinal : Nat) : Bool :=
  l.manifest == k.manifest && l.kindex == k.kindex && l.team == team && l.ordinal == ordinal &&
  (if team then l.rank == k.rank else l.lane == coreNum c)

/-! ## Submission (R144, R150, R160) -/

/-- The fields of a COLL. -/
def collGroup (a : CoreOp) : Nat := opImm a 3 0
def collRedop (a : CoreOp) : Nat := opImm a 6 4
def collTeam (a : CoreOp) : Bool := opImm a 7 7 == 1
def collScls (a : CoreOp) : Nat := opImm a 11 8
def collDcls (a : CoreOp) : Nat := opImm a 15 12

def collForm (a : CoreOp) (func : Nat) : Form :=
  let cbar := func == fCbar
  let legal := immBelow a 16 &&
    (if cbar then noDst a && noSrc1 a && noSrc2 a && collScls a == 0 && collDcls a == 0 && collRedop a == 0
     else decide (collScls a ≤ 1) && decide (collDcls a ≤ 1) &&
      (if func = fAllgath then collRedop a == 0 else decide (collRedop a ≤ 3)))
  ⟨1, false, fun _ => !cbar && collScls a == 0, legal⟩

/-- The checks of R160 on the length. -/
def collLenCodes (func n len : Nat) : List Nat :=
  if func ≠ fCbar ∧ (len % 64 ≠ 0 ∨ len = 0 ∨ (func = fRedscat ∧ len % (64 * n) ≠ 0)) then [exOperand] else []

/-- A VA endpoint must translate to a cluster store or to LPDDR5X. -/
def collPlaceCodes (e : Endpoint) : List Nat := if e.pieces.any (fun p => decide (1 < p.cls)) then [exOperand] else []

/-- The length of a participant's destination. -/
def collDestLen (func n len : Nat) : Nat :=
  if func = fAllgath then n * len else if func = fRedscat then len / n else if func = fAllred then len else 0

/-- The toll of a TEAM = 0 collective of 4 KiB or more that crosses devices (R474). -/
def collToll (crosses : Bool) (len : Nat) : Nat := if crosses && decide (4096 ≤ len) then 64 * ceilDiv len 1024 else 0

/-- Read a source at submission. -/
def State.readPieces (s : State) (ps : List Piece) (len : Nat) : State × (List Byte ⊕ Nat) :=
  (List.range (len / 64)).foldl (fun acc i =>
    match acc.2 with
    | .inr _ => acc
    | .inl got => match placeAt ps (64 * i) with
      | none => acc
      | some p => match acc.1.placeRead p 64 with
        | (s1, .inl bs) => (s1, .inl (got ++ bs))
        | (s1, .inr line) => (s1, .inr line)) (s, .inl [])

/-- A new collective, with no part in it yet. -/
def Coll.fresh (k : KernelSlot) (c : CoreId) (team : Bool) (ordinal func redop len : Nat) : Coll where
  manifest := k.manifest
  rank := k.rank
  lane := coreNum c
  kindex := k.kindex
  team := team
  ordinal := ordinal
  func := func
  redop := redop
  length := len
  mismatched := false
  sources := none
  parts := []
  retired := []
  tolls := []
  groups := []
  epoch := []

/-- Join a part to a collective; disagreement on FUNC, REDOP or length is marked (R162). -/
def Coll.join (l : Coll) (p : CollPart) (func redop len group epoch toll : Nat) : Coll :=
  { l with
    mismatched := l.mismatched || l.func != func || l.redop != redop || l.length != len
    parts := l.parts ++ [p]
    tolls := mapPut [] l.tolls p.core.val (tollPieces toll)
    groups := mapPut 0 l.groups p.core.val group
    epoch := mapPut 0 l.epoch p.core.val epoch }

/-- A core issues one more COLL of a TEAM. -/
def CoreSt.countColl (x : CoreSt) (team : Bool) : CoreSt :=
  if team then { x with collIssuedTeam := x.collIssuedTeam + 1 } else { x with collIssued := x.collIssued + 1 }
def CoreSt.collOrdinal (x : CoreSt) (team : Bool) : Nat := if team then x.collIssuedTeam else x.collIssued

/-- Submit a COLL. -/
def collBody (a : CoreOp) (func : Nat) (s : State) (x : CoreSt) : Body :=
  let c := a.core
  match s.running c with
  | none => .stay s
  | some (k, m) =>
    if 16 ≤ s.inFlight c ∨ s.moverFrozen c then .stay s
    else
      let team := collTeam a
      let n := participants m k team
      let len := (opY a x).toNat
      let move := func != fCbar
      let (s1, src) := if move then s.endpoint c m (collScls a) (opX a x).toNat len false else (s, Endpoint.codesOnly [])
      let (s2, dst) := if move then s1.endpoint c m (collDcls a) (x.sreg a.dst).toNat (collDestLen func n len) true
        else (s1, Endpoint.codesOnly [])
      let codes := collLenCodes func n len ++ collPlaceCodes src ++ collPlaceCodes dst
      match s2.verdict codes (some src) dst with
      | .ok =>
        match s2.readPieces src.pieces (if move then len else 0) with
        | (s3, .inr line) => .done (s3.memUe m.id (some (corePart c).val) line)
        | (s3, .inl bytes) =>
          let ordinal := x.collOrdinal team
          let part : CollPart := ⟨participantIndex m k c team, c, bytes, dst.pieces.map (fun p => ⟨p.place, p.bytes⟩)⟩
          let old := s3.colls.find? (fun l => l.joins k c team ordinal)
          let base := old.getD (Coll.fresh k c team ordinal func (collRedop a) len)
          let toll := collToll (base.crosses m n) len
          let l := base.join part func (collRedop a) len (collGroup a) (s3.epochOf m) toll
          let others := s3.colls.filter (fun l => !l.joins k c team ordinal)
          let s4 : State := { s3 with colls := others ++ [l] }
          let s5 := s4.updCore c (fun x => x.countColl team)
          .next s5
      | v => s2.refuseMove c m v

def collQueued (a : CoreOp) (func : Nat) : State → CoreSt → Body := queued (.coll func) a (collBody a func)

def execAllred (a : CoreOp) (s : State) : Answer := runChecked a (collForm a fAllred) (collQueued a fAllred) s
def execAllgath (a : CoreOp) (s : State) : Answer := runChecked a (collForm a fAllgath) (collQueued a fAllgath) s
def execRedscat (a : CoreOp) (s : State) : Answer := runChecked a (collForm a fRedscat) (collQueued a fRedscat) s
def execCbar (a : CoreOp) (s : State) : Answer := runChecked a (collForm a fCbar) (collQueued a fCbar) s

/-! ## Retirement (R146, R162) -/

/-- The place of byte `k` of a run list. -/
def runAt : List Run → Nat → Option Place
  | [], _ => none
  | r :: t, k => if k < r.bytes then some (r.place.plus k) else runAt t (k - r.bytes)

/-- Write a result to a part's destination, line by line; the trouble or the uncorrectable line that stops it. -/
def State.writeRuns (s : State) (rs : List Run) (bs : List Byte) : State × Option (Trouble × Place) :=
  (List.range (bs.length / 64)).foldl (fun acc i =>
    match acc.2 with
    | some _ => acc
    | none => match runAt rs (64 * i) with
      | none => acc
      | some p => match acc.1.trouble p 64 true with
        | some t => (acc.1, some (t, p))
        | none => ((acc.1.placeWrite p ((bs.drop (64 * i)).take 64)).1, none)) (s, none)

/-- A part of a collective retires at a core: its destination holds its result. The collective leaves once every local
participant's part has retired. The arithmetic is flagged to the manifest (R184). -/
def State.retirePart (s : State) (c : CoreId) (m : Manifest) (l : Coll) (p : CollPart) (sources : List (List Byte)) : State :=
  let s0 : State := { s with colls := s.colls.map (fun x => if x = l then { l with sources := some sources } else x) }
  match s0.writeRuns p.dest (collResult l.func l.redop l.length sources p.index) with
  | (s1, some (.waits, _)) => s1
  | (s1, some (t, q)) => s1.troubleFault c m.id t q
  | (s1, none) =>
    let l1 : Coll := { l with sources := some sources, retired := l.retired ++ [c] }
    let left := (l1.cores m).any (fun d => !l1.retired.contains d)
    let same (x : Coll) : Bool := x.joins ⟨l.manifest, l.kindex, l.rank, false, []⟩ c l.team l.ordinal
    let rest := if left then s1.colls.map (fun x => if same x then l1 else x) else s1.colls.filter (fun x => !same x)
    let s2 : State := { s1 with colls := rest }
    let s3 := s2.orFlags c (collFlags l.func l.redop l.length sources)
    let s4 := s3.updCore c (fun x => x.countUp 3 l.length)
    let s5 := if l.crosses m sources.length then s4.tollPerform c (collToll true l.length) else s4
    State.leaveChecks ((s5.progress (corePart c)).wake c)

/-- The part of one core completes once every participant has submitted, its own tolls are granted, and the participants agree. A
mismatched collective, which the specification leaves undefined and lets never complete, does not complete.
DEDUCED (log entry 39, unsafe). -/
def State.collectiveRetire (s : State) (core : CoreId) (team : Bool) (ordinal : Nat) (remote : List (Nat × List Byte)) : State :=
  match s.running core with
  | none => s
  | some (k, m) =>
    match s.colls.find? (fun l => l.joins k core team ordinal) with
    | none => s
    | some l =>
      match l.parts.find? (fun (p : CollPart) => p.core == core) with
      | none => s
      | some p =>
        if l.mismatched || l.retired.contains core || !(mapGet [] l.tolls core.val).isEmpty then s
        else match l.sources with
          | some srcs => s.retirePart core m l p srcs
          | none => match l.gather m (participants m k team) remote with
            | some srcs => s.retirePart core m l p srcs
            | none => s

end Sys2Proof.Machine
end

