-- ==== Sys2Proof/Machine/Sync.lean ====
section
/-! DEFINITION. Events, fences and flags: EADD, EWAIT, ERD, EVENT_REPOLL, REL, ACQ, MWAIT, FSET, FWAIT (R164 to R171, R174,
R270 to R277, R331, R332, R368). -/

namespace Sys2Proof.Machine

/-! ## Releases and acquires (R164, R169, R271, R273) -/

/-- SCOPE; 0b110 and 0b111 are reserved. -/
def opScope (a : CoreOp) : Nat := opImm a 2 0
def scopeOk (a : CoreOp) : Bool := decide (opScope a ≤ 5)

/-- Whether a movement still has a write to perform whose home a scope covers. -/
def State.writesCovered (s : State) (c : CoreId) (scope : Nat) (m : Movement) : Bool :=
  m.rowsLeft.any (fun r => scopeCovers scope c r.2) ||
  m.readsOut.any (fun r => scopeCovers scope c r.2.2.2) ||
  (decide (4 ≤ scope) && !m.writesOut.isEmpty) ||
  s.held.any (fun h => h.fromDevice == none && h.move == m.id && scopeCovers scope c h.place)

/-- Whether a release of a core at a scope need wait no longer: of the movements and collectives in flight, all submitted before it, none
has a write left that it covers (R271). DEDUCED (log entry 43, unsafe). -/
def State.released (s : State) (c : CoreId) (scope : Nat) : Bool :=
  !s.moves.any (fun m => m.core == c && s.writesCovered c scope m) &&
  !s.colls.any (fun l => !l.retired.contains c && l.parts.any (fun (p : CollPart) =>
    p.core == c && p.dest.any (fun r => scopeCovers scope c r.place)))

/-- An acquire at virtual-device or system scope empties the remote read buffer. -/
def State.acquire (s : State) (c : CoreId) (scope : Nat) : State :=
  if 4 ≤ scope then s.updCore c (fun x => { x with readBuffer := [] }) else s

/-- A wait point is passed: the acquire, the result, the next word. -/
def State.passWait (s : State) (c : CoreId) (scope : Nat) (dst : Fin 32) (v : Word) : State :=
  (State.updCore (s.acquire c scope) c (fun x => CoreSt.setS { x with phase := .running } dst v)).advance c 1

/-! ## OP 0x38, EVT (R165, R166, R331, R332) -/

/-- What an EVT instruction meets before it acts. -/
inductive EventOut where
  | body (b : Body)
  | ok (k : KernelSlot) (m : Manifest) (e : LedgerEntry)

/-- Look a ticket up: OPERAND where it names no event; undefined where the manifest does not name it; the ledger and events
in host memory wait for the link. A wait on an abandoned event reads no word (R332). DEDUCED (log entry 42, unsafe). -/
def State.eventOf (s : State) (c : CoreId) (reg : Word) (write wait : Bool) : EventOut :=
  match s.running c with
  | none => .body (.stay s)
  | some (k, m) =>
    if 2 ^ 32 ≤ reg.toNat then .body (.exc exOperand)
    else if !s.hostUp then .body (.stay s)
    else
      let t : Lane := BitVec.ofNat 32 reg.toNat
      match s.eventEntry t with
      | none => .body (.exc exOperand)
      | some e =>
        if !m.namesTicket t then .body (.done (s.misuse .device))
        else if wait && e.abandoned then .ok k m e
        else match s.trouble e.place 8 write with
          | some .waits => .body (.stay (s.troubleFault c m.id .waits e.place))
          | some tr => .body (.done (s.troubleFault c m.id tr e.place))
          | none => .ok k m e

def evtForm (a : CoreOp) (legal : Bool) : Form := plainForm (immBelow a 3 && scopeOk a && legal)

/-- EADD: release at SCOPE, then add y to the event atomically. -/
def eaddBody (a : CoreOp) (s : State) (x : CoreSt) : Body :=
    match s.eventOf a.core (opX a x) true false with
    | .body b => b
    | .ok k m e =>
      if !s.released a.core (opScope a) then .stay s
      else
        let (s1, fresh) := if m.hedged k.rank then
            match s.takeEffect a.core k m with
            | (s1, i) => ({ s1 with nextMove := s1.nextMove + 1 }, i.isNone)
          else (s, true)
        if !fresh then .next s1
        else match s1.wordAdd e.place (opY a x) with
          | (s2, none) => .next s2
          | (s2, some line) => .done (s2.memUe m.id (some (corePart a.core).val) line)

def execEadd (a : CoreOp) (s : State) : Answer := runChecked a (evtForm a (noDst a)) (queued .eadd a (eaddBody a)) s

/-- Whether an event satisfies a wait: 1 where it is abandoned, 0 where its value is at least the threshold. -/
def eventStatus (e : LedgerEntry) (value threshold : Word) : Option Word :=
  if e.abandoned then some 1 else if threshold ≤ value then some 0 else none

/-- EWAIT. -/
def execEwait (a : CoreOp) (s : State) : Answer :=
  runChecked a (evtForm a true) (inTurn (fun s x =>
    match s.eventOf a.core (opX a x) false true with
    | .body b => b
    | .ok _ m e =>
      let w : WaitFor := .event (BitVec.ofNat 32 (opX a x).toNat) (opY a x) a.dst (opScope a)
      if e.abandoned then .next (State.updCore (s.acquire a.core (opScope a)) a.core (fun x => x.setS a.dst 1))
      else match s.wordRead e.place with
        | (s1, .inr line) => .done (s1.memUe m.id (some (corePart a.core).val) line)
        | (s1, .inl v) => match eventStatus e v (opY a x) with
          | some st => .next (State.updCore (s1.acquire a.core (opScope a)) a.core (fun x => x.setS a.dst st))
          | none => .wait s1 w)) s

/-- ERD: the event's value; SCOPE zero. -/
def execErd (a : CoreOp) (s : State) : Answer :=
  runChecked a (evtForm a (noSrc2 a && opScope a == 0)) (inTurn (fun s x =>
    match s.eventOf a.core (opX a x) false false with
    | .body b => b
    | .ok _ m e => match s.wordRead e.place with
      | (s1, .inr line) => .done (s1.memUe m.id (some (corePart a.core).val) line)
      | (s1, .inl v) => .next (s1.updCore a.core (fun x => x.setS a.dst v)))) s

/-- A waiting EWAIT reads its event again. -/
def State.repollEvent (s : State) (c : CoreId) (t : Lane) (threshold : Word) (dst : Fin 32) (scope : Nat) : State :=
  match s.running c with
  | none => s
  | some (_, m) =>
    if !s.hostUp then s
    else match s.eventEntry t with
      | none => s.raise c exOperand
      | some e =>
        if e.abandoned then s.passWait c scope dst 1
        else match s.trouble e.place 8 false with
          | some tr => s.troubleFault c m.id tr e.place
          | none => match s.wordRead e.place with
            | (s1, .inr line) => s1.memUe m.id (some (corePart c).val) line
            | (s1, .inl v) => if threshold ≤ v then s1.passWait c scope dst 0 else s1

/-- A waiting FWAIT reads its flag again: at its place here, or as the other device answers. No rule says which frames carry the read of a
flag on another device (R168, R171), so the answer is the command's operand and no frame is sent. DESIGN CHOICE (log entry 105, unsafe). -/
def State.repollFlag (s : State) (c : CoreId) (p : Place) (threshold : Word) (dst : Fin 32) (scope : Nat)
    (remote : Option Word) : State :=
  match s.running c with
  | none => s
  | some (_, m) =>
    match p, remote with
    | .remote _ _ _, some v => if threshold ≤ v then s.passWait c scope dst v else s
    | .remote _ _ _, none => s
    | p, _ => match s.trouble p 8 false with
      | some tr => s.troubleFault c m.id tr p
      | none => match s.wordRead p with
        | (s1, .inr line) => s1.memUe m.id (some (corePart c).val) line
        | (s1, .inl v) => if threshold ≤ v then s1.passWait c scope dst v else s1

/-- A waiting EWAIT or FWAIT reads its word again (R171). -/
def State.eventRepoll (s : State) (core : CoreId) (remoteValue : Option Word) : State :=
  match (s.core core).phase with
  | .waiting (.event t th dst scope) => s.repollEvent core t th dst scope
  | .waiting (.flag p th dst scope _) => s.repollFlag core p th dst scope remoteValue
  | _ => s

/-- Every waiting EWAIT whose event is abandoned completes with 1 (R332). -/
def State.wakeAbandoned (s : State) : State :=
  allCores.foldl (fun s c => match (s.core c).phase with
    | .waiting (.event t _ dst scope) => match s.eventEntry t with
      | some e => if e.abandoned then s.passWait c scope dst 1 else s
      | none => s
    | _ => s) s

/-! ## OP 0x39, FENCE (R167, R169, R170) -/

def fenceForm (a : CoreOp) (legal : Bool) : Form := plainForm (noDst a && noSrc1 a && noSrc2 a && legal)

/-- REL: it completes once its release condition holds, and holds only what stands behind it in the unit queue (R169). -/
def relBody (a : CoreOp) (s : State) (_ : CoreSt) : Body := if s.released a.core (opScope a) then .next s else .stay s

def execRel (a : CoreOp) (s : State) : Answer :=
  runCore a (fenceForm a (immBelow a 3 && scopeOk a)) (queued .rel a (relBody a)) s

def execAcq (a : CoreOp) (s : State) : Answer :=
  runCore a (fenceForm a (immBelow a 3 && scopeOk a)) (inTurn (fun s _ => .next (s.acquire a.core (opScope a)))) s

/-- MWAIT: the group mask is not zero. -/
def execMwait (a : CoreOp) (s : State) : Answer :=
  runCore a (fenceForm a (immBelow a 16 && !noImm a)) (inTurn (fun s _ =>
    let mask := opImm a 15 0
    if s.groupsDone a.core mask then .next s else .wait s (.groups mask))) s

/-! ## OP 0x3A, FLAG (R168) -/

/-- The address of a flag is a multiple of 8. -/
def flagCodes (reg : Nat) : List Nat := if reg % 8 ≠ 0 then [exOperand] else []

def opFlagClass (a : CoreOp) : Nat := opImm a 6 3

def flagForm (a : CoreOp) (legal : Bool) : Form :=
  ⟨1, false, fun _ => opFlagClass a == 0, scopeOk a && decide (opFlagClass a ≤ 2) && legal⟩

/-- The update FSET submits: eight bytes at the flag, and at the second member of a hedged rank. It is in no completion
group. -/
def flagUpdate (s : State) (c : CoreId) (k : KernelSlot) (m : Manifest) (a : CoreOp) (w : Word) (dst : Endpoint) : Movement where
  id := s.nextMove
  core := c
  manifest := m.id
  group := 16
  context := m.context
  epoch := s.epochOf m
  stream := ⟨c, k.rank, m.id, m.replays, opImm a 11 8⟩
  last := opImm a 7 7 == 1
  phase := .toll
  fill := none
  word := some w
  rowsLeft := dst.places.map (fun p => (p, p))
  tollsLeft := []
  readsOut := []
  writesOut := []
  priors := []
  endpoints := dst.places
  blocks := []
  mirror := none
  after := none
  spared := none
  toll := 0
  bytes := 0
  submitted := s.beat

/-- An update that is complete at once leaves. -/
def State.settle (s : State) (id : Nat) : State :=
  match s.move? id with
  | some v => if s.moveDone v then { s with moves := s.moves.filter (fun x => x.id != id) } else s
  | none => s

/-- FSET: release at SCOPE, then write y to the flag. DEDUCED (log entry 37, safe). -/
def fsetBody (a : CoreOp) (s : State) (x : CoreSt) : Body :=
    match s.running a.core with
    | none => .stay s
    | some (k, m) =>
      if s.moverFrozen a.core then .stay s
      else
        let reg := (opX a x).toNat
        match s.resolve a.core m (opFlagClass a) reg 8 true with
        | (s1, dst) =>
          match s1.verdict (flagCodes reg) none dst with
          | .ok =>
            if !s1.released a.core (opScope a) then .stay s
            else
              match s1.dedup k m (flagUpdate s1 a.core k m a (opY a x) dst) with
              | (s2, v) => .next (State.settle (s2.submit v []) v.id)
          | v => s1.refuseMove a.core m v

def execFset (a : CoreOp) (s : State) : Answer :=
  runChecked a (flagForm a (noDst a && immBelow a 12)) (queued .fset a (fsetBody a)) s

/-- FWAIT: wait until the flag is at least y, then acquire; DST the value seen. -/
def execFwait (a : CoreOp) (s : State) : Answer :=
  runChecked a (flagForm a (immBelow a 7)) (inTurn (fun s x =>
    match s.running a.core with
    | none => .stay s
    | some (_, m) =>
      if s.moverFrozen a.core then .stay s
      else
        let reg := (opX a x).toNat
        match s.resolve a.core m (opFlagClass a) reg 8 false with
        | (s1, src) =>
          match s1.verdict (flagCodes reg) (some src) (Endpoint.codesOnly []) with
          | .ok =>
            match placeAt src.pieces 0 with
            | none => .stay s1
            | some p =>
              let w : WaitFor := .flag p (opY a x) a.dst (opScope a) (s1.epochOf m)
              if p.isRemote then .wait s1 w
              else match s1.wordRead p with
                | (s2, .inr line) => .done (s2.memUe m.id (some (corePart a.core).val) line)
                | (s2, .inl v) =>
                  if opY a x ≤ v then .next (State.updCore (s2.acquire a.core (opScope a)) a.core (fun x => x.setS a.dst v))
                  else .wait s2 w
          | v => s1.refuseMove a.core m v)) s

end Sys2Proof.Machine
end

