-- ==== Sys2Proof/Machine/UnitQueue.lean ====
section
/-! DEFINITION. The movement-with-synchronisation unit queue: how its entries start, and the commands after which they may (R53, R145,
R169, R171). -/

namespace Sys2Proof.Machine

/-- What starting an entry does. -/
def SyncOp.body (e : SyncOp) : State → CoreSt → Body := match e.kind with
  | .copy second => moveBody e.op second false
  | .fill second => moveBody e.op second true
  | .coll func => collBody e.op func
  | .eadd => eaddBody e.op
  | .rel => relBody e.op
  | .fset => fsetBody e.op

/-- Whether the entries of a core's unit queue may start: its kernel has not stopped, it is not frozen, and it is on its position. -/
def State.drains (s : State) (c : CoreId) : Bool :=
  (match (s.core c).phase with
   | .running => true
   | .waiting _ => true
   | _ => false) && !s.coreFrozen c && (s.part (corePart c)).onPos (coreNum c)

/-- Entries start in program order, until one has to wait; an exception of one names its own word (R93, R145, R169). -/
def State.drain : Nat → State → CoreId → State
  | 0, s, _ => s
  | fuel + 1, s, c =>
    match (s.core c).sync with
    | [] => s
    | e :: rest =>
      if !s.drains c then s
      else
        let s1 := s.updCore c (fun x => { x with sync := rest })
        match e.body s1 { s1.core c with s := e.regs } with
        | .next t => State.drain fuel t c
        | .stay t => t.updCore c (fun x => { x with sync := e :: rest })
        | .exc code => State.raise (s1.updCore c (fun x => { x with pc := e.pc })) c code
        | .done t => t
        | .wait t _ => t
        | .jump t _ => t

/-- A core's unit queue goes on as far as it can; a core that waits for its end, or for retirements, may then go on too. -/
def State.drainCore (s : State) (c : CoreId) : State :=
  if (s.core c).sync.isEmpty then s else (State.drain (s.core c).sync.length s c).wake c

def State.drainAll (s : State) : State := allCores.foldl State.drainCore s

/-- MOVEMENT_RETIRE. -/
def execMovementRetire (move : Nat) (s : State) : Answer := whenChecked (fun s => (s.movementRetire move).drainAll) s

/-- COLLECTIVE_RETIRE. -/
def execCollectiveRetire (core : CoreId) (team : Bool) (ordinal : Nat) (remote : List (Nat × List Byte)) (s : State) : Answer :=
  whenChecked (fun s => (s.collectiveRetire core team ordinal remote).drainAll) s

/-- LASTOFF_PERFORM. -/
def execLastoffPerform (held : Nat) (s : State) : Answer := whenChecked (fun s => (s.lastoffPerform held).drainAll) s

/-- EVENT_REPOLL: a waiting EWAIT or FWAIT reads its word again, and the core's unit queue goes on where it can (R169, R171). -/
def execEventRepoll (core : CoreId) (remoteValue : Option Word) (s : State) : Answer :=
  whenChecked (fun s => (s.eventRepoll core remoteValue).drainCore core) s

end Sys2Proof.Machine
end

