-- ==== Sys2Proof/Machine/System.lean ====
section
/-! DEFINITION. System instructions: PHYS, PMARK and PCNT; undefined OP and FUNC values (R67, R78, R172, R173, R484). -/

namespace Sys2Proof.Machine

/-- The physical location word of a core (R173). -/
def State.physWord (s : State) (c : CoreId) : Word :=
  let p := corePart c
  let w := (s.part p).working
  let vdev := match s.running c with
    | some (_, m) => m.vdev.toNat
    | none => 0
  let pos := (carrierOf w (coreNum c)).getD 0
  BitVec.ofNat 64 (vdev * 2 ^ 40 + s.landing.toNat * 2 ^ 24 + p.val * 2 ^ 8 + pos * 2 ^ 4 + (carriedBy w pos).length)

def execPhys (a : CoreOp) (s : State) : Answer :=
  runCore a (plainForm (noSrc1 a && noSrc2 a && noImm a)) (fun s _ =>
    .next (s.updCore a.core (fun c => c.setS a.dst (s.physWord a.core)))) s

/-- PMARK: to the trace when tracing is enabled; otherwise no effect. DESIGN CHOICE (log entry 33, safe). -/
def execPmark (a : CoreOp) (s : State) : Answer :=
  runCore a (plainForm (noDst a && noSrc1 a && noSrc2 a && immBelow a 16)) (fun s _ =>
    .next (if s.tracing then { s with trace := s.trace ++ [(BitVec.ofNat 16 (opImm a 15 0), s.beat)] } else s)) s

/-- A performance counter of R484. Those that count time or conflicts are open in a model without time; an unlisted one
reads 0. -/
def counterValue (s : State) (c : CoreId) (i : Nat) : Word :=
  if i = 0 ∨ i = 2 ∨ i = 3 then mapGet 0 (s.core c).counters i
  else if i ≤ 7 then Config.perfCount s.free else 0

def execPcnt (a : CoreOp) (s : State) : Answer :=
  runCore a (plainForm (noSrc1 a && noSrc2 a && immBelow a 8)) (fun s _ =>
    .next (State.tick (s.updCore a.core (fun c => c.setS a.dst (counterValue s a.core (opImm a 7 0)))))) s

/-! ## Undefined OP and FUNC values (R76 to R78, R168, R172) -/

/-- RESERVED_ENCODING: a word with an undefined OP or FUNC at the head of a core's dispatch raises ILLEGAL, whatever its
predicate (R78, R79). A word whose OP and FUNC are defined is no such word, and the step does not occur. -/
def execReservedEncoding (core : CoreId) (word : Word) (s : State) : Answer :=
  whenOn (fun s =>
    if (s.core core).phase ≠ .running || s.coreFrozen core || !(s.part (corePart core)).onPos (coreNum core) ||
        wordDefined word then s
    else s.raise core exIllegal) s

end Sys2Proof.Machine
end

