-- ==== Sys2Proof/Machine/Block.lean ====
section
/-! DEFINITION. Block-map and draft-tree instructions, freed storage, and fold switches (R55, R67, R212, R215, R222 to R233,
R247, R272, R435). -/

namespace Sys2Proof.Machine

/-! ## OP 0x2E, SBLK (R223 to R225) -/

/-- The outcome of a block operation: a lost map line ends the manifest, otherwise the status is written. -/
def sbFinish (a : CoreOp) (m : Manifest) (seq : Nat) (r : State × Nat × Nat) : Body :=
  if r.2.1 = sbUe then .done (r.1.endJob m.id stStateLost 0)
  else .next (State.noteSeqs (r.1.updCore a.core (fun x => x.setS a.dst (sbStatus r.2.1 r.2.2))) m.id [seq])

/-- The common part of a block instruction whose key is `key` and that looks up the blocks of some ranges: a malformed key raises
OPERAND, and so does one whose LINE is not zero, which R223 and R228 ask and for which no exception is named (DESIGN CHOICE, log entry
107, unsafe); a lost sequence ends the manifest (R435); the map's backing waits while partition 0 is Resetting (R247), and a map page
while it is handed over (R430). -/
def withKey (a : CoreOp) (s : State) (key : Nat) (blocks : List (Nat × Nat)) (f : Manifest → Body) : Body :=
  match s.running a.core with
  | none => .stay s
  | some (_, m) =>
    if !keyOk key || keyLine key != 0 then .exc exOperand
    else if s.seqLost m.vslot.val (keySeq key) then .done (s.endJob m.id stStateLost 0)
    else if (s.part 0).state = .resetting then .stay (s.waitOn m.id 0)
    else if s.spanWaits m.vslot.val key blocks then .stay s
    else f m

def sbForm (legal : Bool) : Form := ⟨1, true, fun _ => false, legal⟩

/-- The range of the tree blocks. -/
def treeRange : Nat × Nat := (treeBlock0, treeBlock0 + 3)

/-- SBNEW; IMM[3:0] is CLASS. -/
def execSbnew (a : CoreOp) (s : State) : Answer :=
  runCore a (sbForm (noSrc2 a && immBelow a 4)) (fun s x =>
    let key := (opX a x).toNat
    withKey a s key [(keyBlock key, keyBlock key)] (fun m =>
      let n := blockName m.vslot.val key
      let cls := opImm a 3 0
      if s.allocWaits [n] n.slot cls then .stay s
      else sbFinish a m (keySeq key) (sbRange (fun s n => s.sbnewOne n cls) 1 s n sbOk 0))) s

/-- The count of SBCMT and SBFREE, and their range within the position blocks or the tree blocks. -/
def sbRangeOk (block n : Nat) : Bool :=
  decide (1 ≤ n) && decide (n ≤ 65536) &&
  (if block < treeBlock0 then decide (block + n ≤ treeBlock0) else decide (block + n ≤ reservedBlock0))

def sbOverRange (a : CoreOp) (op : State → BlockName → State × Nat) (s : State) : Answer :=
  runCore a (sbForm (noImm a)) (fun s x =>
    let key := (opX a x).toNat
    let n := (opY a x).toNat
    withKey a s key [(keyBlock key, keyBlock key + n - 1)] (fun m =>
      if !sbRangeOk (keyBlock key) n then .exc exOperand
      else sbFinish a m (keySeq key) (sbRange op n s (blockName m.vslot.val key) sbOk 0))) s

def execSbcmt (a : CoreOp) (s : State) : Answer := sbOverRange a (fun s n => s.sbcmtOne n) s
def execSbfree (a : CoreOp) (s : State) : Answer := sbOverRange a (fun s n => s.sbfreeOne n) s

/-- SBSTAT: STATE with In transit reported as Committed, and CLASS. -/
def execSbstat (a : CoreOp) (s : State) : Answer :=
  runCore a (sbForm (noSrc2 a && noImm a)) (fun s x =>
    let key := (opX a x).toNat
    withKey a s key [(keyBlock key, keyBlock key)] (fun m =>
      match s.lookup (blockName m.vslot.val key) with
      | (s1, .ue) => .done (s1.endJob m.id stStateLost 0)
      | (s1, .entry e) =>
        let st := if e.state = stInTransit then stCommitted else e.state
        .next (State.noteSeqs (s1.updCore a.core (fun x => x.setS a.dst (BitVec.ofNat 64 (4 * e.cls + st)))) m.id [keySeq key]))) s

/-- STREE: SBNEW of the tree blocks of N nodes. -/
def execStree (a : CoreOp) (s : State) : Answer :=
  runCore a (sbForm (immBelow a 4)) (fun s x =>
    let key := (opX a x).toNat
    let nodes := (opY a x).toNat
    withKey a s key [treeRange] (fun m =>
      if nodes = 0 ∨ 64 < nodes ∨ keyBlock key ≠ 0 then .exc exOperand
      else
        let n : BlockName := { blockName m.vslot.val key with block := treeBlock0 }
        let cls := opImm a 3 0
        if s.allocWaits ((List.range (ceilDiv nodes 16)).map (fun i => { n with block := treeBlock0 + i })) n.slot cls then .stay s
        else sbFinish a m (keySeq key) (sbRange (fun s n => s.sbnewOne n cls) (ceilDiv nodes 16) s n sbOk 0))) s

/-! ## Draft trees (R226 to R230) -/

def treeBytes : Nat := 704

/-- Fields of a tree record in the bench. -/
def CoreSt.treePos (x : CoreSt) (r : Nat) : Nat := leNat (x.bytes r 8)
def CoreSt.treeAccepted (x : CoreSt) (r : Nat) : Nat := (x.byte (r + 8)).toNat
def CoreSt.treeParent (x : CoreSt) (r n : Nat) : Nat := (x.byte (r + 0x40 + n)).toNat
def CoreSt.treeToken (x : CoreSt) (r n : Nat) : Nat := leNat (x.bytes (r + 0x80 + 4 * n) 4)
def CoreSt.treeSample (x : CoreSt) (r n : Nat) : Nat := leNat (x.bytes (r + 0x180 + 4 * n) 4)
def CoreSt.treePath (x : CoreSt) (r i : Nat) : Nat := (x.byte (r + 0x280 + i)).toNat

/-- PARENT[0] = 0xFF and PARENT[n] < n for the other nodes. -/
def CoreSt.parentsOk (x : CoreSt) (r n : Nat) : Bool :=
  x.treeParent r 0 == 0xFF && (List.range n).all (fun i => i == 0 || decide (x.treeParent r i < i))

/-- The exception a tree record raises: RANGE before OPERAND. DEDUCED (log entry 84, unsafe). -/
def treeFault (x : CoreSt) (r n : Nat) : Option Nat :=
  if benchSize < r + treeBytes then some exRange
  else if r % 64 ≠ 0 then some exOperand
  else if !x.parentsOk r n then some exOperand else none

/-- A node and every ancestor of it as a mask. -/
def ancestors (x : CoreSt) (r : Nat) : Nat → Nat → Nat
  | 0, n => 2 ^ n
  | fuel + 1, n => if n = 0 then 1 else 2 ^ n ||| ancestors x r fuel (x.treeParent r n)

def opNodes (a : CoreOp) : Nat := opImm a 6 0
def specForm (a : CoreOp) (legal : Bool) : Form :=
  ⟨1, true, fun _ => true, decide (1 ≤ opNodes a) && decide (opNodes a ≤ 64) && legal⟩

/-- SANC. -/
def execSanc (a : CoreOp) (s : State) : Answer :=
  runCore a (specForm a (immBelow a 7)) (fun s x =>
    let r := (opX a x).toNat
    let n := (opY a x).toNat
    match treeFault x r (opNodes a) with
    | some code => .exc code
    | none =>
      if opNodes a ≤ n then .exc exOperand
      else .next (s.updCore a.core (fun x => x.setS a.dst (BitVec.ofNat 64 (ancestors x r 64 n))))) s

/-- The walk of SACPT: the accepted nodes after the root, in order, and the last node. -/
def acceptWalk (x : CoreSt) (r n : Nat) : Nat → Nat → List Nat
  | 0, _ => []
  | fuel + 1, cur =>
    match (List.range n).find? (fun m => x.treeParent r m == cur && m != 0 && x.treeToken r m == x.treeSample r cur) with
    | some c => c :: acceptWalk x r n fuel c
    | none => []

/-- SACPT. -/
def execSacpt (a : CoreOp) (s : State) : Answer :=
  runCore a (specForm a (noSrc2 a && immBelow a 7)) (fun s x =>
    let r := (opX a x).toNat
    match treeFault x r (opNodes a) with
    | some code => .exc code
    | none =>
      let path := 0 :: acceptWalk x r (opNodes a) 64 0
      let i := path.length - 1
      let cur := path.getLastD 0
      let bytes := (List.range 64).map (fun j => BitVec.ofNat 8 (path.getD j 0xFF))
      let d := BitVec.ofNat 64 (x.treeSample r cur * 2 ^ 32 + cur * 256 + i)
      .next (s.updCore a.core (fun x =>
        CoreSt.setS ((x.putBytes (r + 8) [BitVec.ofNat 8 i]).putBytes (r + 0x280) bytes) a.dst d))) s

/-! ## SCMT (R230) -/

/-- Look up several blocks in order. -/
def lookups (s : State) (ns : List BlockName) : State × List Lookup :=
  ns.foldl (fun acc n => match acc.1.lookup n with
    | (s1, l) => (s1, acc.2 ++ [l])) (s, [])

/-- The entry of a lookup; Free for a line of the map that cannot be read, which is handled before. -/
def Lookup.get : Lookup → BlockEntry
  | .entry e => e
  | .ue => .free

/-- Allocate every Free target of a list: the first failing status, and how each target then stands. -/
def allocTargets (cls : Nat) (s : State) : List BlockName → State × Nat
  | [] => (s, sbOk)
  | n :: rest =>
    match s.sbnewOne n cls with
    | (s1, code) => match allocTargets cls s1 rest with
      | (s2, c2) => (s2, if code = sbOk ∨ c2 = sbUe then c2 else code)

/-- The 64-byte rows that copy one state row to a block and to its mirror. -/
def rowCopies (s : State) (slot : Nat) (src dst : BlockEntry) (srcOff dstOff bytes : Nat) : List (Place × Place) :=
  let linesTo (w : Word) : List (Place × Place) :=
    (List.range (bytes / 64)).map (fun j => (storagePlace src.storage (srcOff + 64 * j), storagePlace w (dstOff + 64 * j)))
  linesTo dst.storage ++ (if dst.mirrored then
    match s.entryMirror ⟨slot, 0, 0, 0⟩ dst with
    | some w => linesTo w
    | none => []
  else [])

/-- The movement SCMT makes. -/
def scmtMove (s : State) (c : CoreId) (k : KernelSlot) (m : Manifest) (rows : List (Place × Place)) (blocks : List Nat)
    (bytes : Nat) : Movement :=
  let places := rows.map (fun r => r.1) ++ rows.map (fun r => r.2)
  let toll := moveToll places bytes
  { id := s.nextMove
    core := c
    manifest := m.id
    group := 16
    context := m.context
    epoch := s.epochOf m
    stream := ⟨c, k.rank, m.id, m.replays, 16⟩
    last := false
    phase := .toll
    fill := none
    word := none
    rowsLeft := rows
    tollsLeft := tollPieces toll
    readsOut := []
    writesOut := []
    priors := []
    endpoints := places
    blocks := blocks
    mirror := none
    after := none
    spared := none
    toll := toll
    bytes := bytes
    submitted := s.beat }

/-- SCMT once its operands are in order: `path` is the accepted path, `pos` the root's position. -/
def scmtRun (a : CoreOp) (s : State) (k : KernelSlot) (m : Manifest) (key pos : Nat) (path : List Nat) (cls : Nat) : Body :=
  let base := blockName m.vslot.val key
  let slot := m.vslot.val
  let trees := (path.map (fun n => n / 16)).eraseDups
  let tree (i : Nat) : BlockName := { base with block := treeBlock0 + i }
  let targets := ((List.range path.length).map (fun i => (pos + i) / 16)).eraseDups
  let target (b : Nat) : BlockName := { base with block := b }
  match lookups s (trees.map tree) with
  | (s1, tl) =>
    match lookups s1 (targets.map target) with
    | (s2, gl) =>
      if (tl ++ gl).any (fun l => l == .ue) then .done (s2.endJob m.id stStateLost 0)
      else
        let te := tl.map Lookup.get
        let ge := gl.map Lookup.get
        let rowOf (e : BlockEntry) : Nat := (s2.classRec slot e.cls).rowBytes
        let newRow := (s2.classRec slot cls).rowBytes
        let row := (te.head?.map rowOf).getD 0
        let targetRow (e : BlockEntry) : Nat := if e.state = stFree then newRow else rowOf e
        if te.any (fun e => e.state = stFree) then .exc exOperand
        else if te.any (fun e => rowOf e != row) ||
            ((s2.classRec slot cls).usable && ge.any (fun e => targetRow e != row)) then .exc exOperand
        else if (te ++ ge).any (fun e => e.state = stInTransit) then .stay s2
        else if !(s2.classRec slot cls).usable then sbFinish a m base.seq (s2, sbClass, 0)
        else if ge.any (fun e => e.state ≠ stFree && e.cls != cls) then sbFinish a m base.seq (s2, sbExists, 0)
        else if s2.allocWaits (targets.map target) slot cls then .stay s2
        else
          let fresh := (((targets.map target).zip ge).filter (fun p => p.2.state = stFree)).map (·.1)
          match allocTargets cls s2 fresh with
          | (s3, code) =>
            if code = sbUe then .done (s3.endJob m.id stStateLost 0) else
            match lookups s3 (targets.map target) with
            | (s4, gl2) =>
              let placed := targets.zip (gl2.map Lookup.get)
              let rowsOf (i n : Nat) : List (Place × Place) :=
                match placed.find? (fun p => p.1 == (pos + i) / 16), (trees.zip te).find? (fun p => p.1 == n / 16) with
                | some (_, d), some (_, t) =>
                  if d.state = stFree then [] else rowCopies s4 slot t d (row * (n % 16)) (row * ((pos + i) % 16)) row
                | _, _ => []
              let parts := (List.range path.length).map (fun i => rowsOf i (path.getD i 0))
              let rows := parts.flatten
              let good := (parts.filter (fun r => !r.isEmpty)).length
              let trouble := rows.findSome? (fun r => match s4.trouble r.1 64 false with
                | some t => some (t, r.1)
                | none => match s4.trouble r.2 64 true with
                  | some t => some (t, r.2)
                  | none => none)
              match trouble with
              | some (t, p) => s.refuseMove a.core m (.trouble t p)
              | none =>
                let blocks := (te.map (fun e => e.storage.toNat)) ++ placed.map (fun p => p.2.storage.toNat)
                let v := scmtMove s4 a.core k m rows blocks (path.length * row)
                let s5 := s4.submit v [base.seq]
                if (s5.core a.core).kernel ≠ some k then .done s5 else
                let made := fresh.map (·.block)
                if (match s5.move? v.id with
                    | some u => s5.moveDone u
                    | none => false) then
                  .next (State.scmtFinish (s5.retireMove v) a.core slot base.seq base.plane made a.dst (sbStatus code good))
                else .wait s5 (.scmt v.id slot base.seq base.plane made a.dst (sbStatus code good))

/-- SCMT. -/
def execScmt (a : CoreOp) (s : State) : Answer :=
  runChecked a (specForm a (immBelow a 11)) (fun s x =>
    let r := (opX a x).toNat
    let key := (opY a x).toNat
    match treeFault x r (opNodes a) with
    | some code => .exc code
    | none =>
      let pos := x.treePos r
      let acc := x.treeAccepted r
      withKey a s key [treeRange, (pos / 16, (pos + acc) / 16)] (fun m =>
        let path := (List.range (acc + 1)).map (fun i => if i < 64 then x.treePath r i else 0xFF)
        if keyBlock key ≠ 0 ∨ 16 * treeBlock0 ≤ pos + acc ∨ path.any (fun n => decide (64 ≤ n)) then .exc exOperand
        else if s.moverFrozen a.core then .stay s
        else match s.running a.core with
          | some (k, _) => scmtRun a s k m key pos path (opImm a 10 7)
          | none => .stay s)) s

/-! ## Freed storage (R222) -/

/-- STORAGE_RETURN: freed storage goes to its bin or the return ring once the movements that resolved it have retired. The
return ring, in host memory, waits for the link. -/
def execStorageReturn (freed : Nat) (s : State) : Answer :=
  whenOn (fun s => match s.freed.find? (fun f => f.id == freed) with
    | none => s
    | some f =>
      if f.blockers.any (fun i => (s.move? i).isSome) then s
      else if !s.hostUp && decide (64 ≤ (mapGet [] s.bins (binKey f.slot f.cls)).length) then s
      else State.binStorage { s with freed := s.freed.filter (fun x => x.id != freed) } f.slot f.cls f.storage) s

/-! ## Folding (R66, R67) -/

/-- Whether a core that is not on its position can run: it has been woken, or has a kernel to start. -/
def State.canRun (s : State) (c : CoreId) : Bool := (s.core c).phase == .running || s.canBegin c

/-- Whether the core on a position gives it up: it has finished its work in the kernel, or waits on a condition. Waiting at
KEND is no such condition. -/
def CoreSt.givesUp (x : CoreSt) : Bool := match x.phase with
  | .idle => true
  | .ended => true
  | .stopped => true
  | .waiting .kernelEnd => false
  | .waiting _ => true
  | _ => false

/-- Whether no transfer into or out of a core's bench is under way. -/
def State.benchQuiet (s : State) (c : CoreId) : Bool :=
  !s.moves.any (fun m => m.endpoints.any (fun p => match p with
    | .bench d _ => d == c
    | _ => false)) &&
  !s.colls.any (fun l => l.parts.any (fun (p : CollPart) => p.core == c) && !l.retired.contains c)

/-- The fold slot of a logical core that is not on a position: the slots are taken in ascending number of those cores.
DESIGN CHOICE (log entry 100, unsafe). -/
def State.foldSlotOf (s : State) (p : PartId) (n : Nat) : Nat :=
  let x := s.part p
  foldSlotBase p.val x.working + 0x100000 * ((List.range n).filter (fun m => !x.onPos m)).length

/-- The lines of a fold slot that hold symbol errors are read for the core that returns from it: an uncorrectable one is a fault
of the partition, and the job of the core restarts (R68, R257). -/
def State.readFoldSlot (s : State) (p : PartId) (n : Nat) (job : Option Nat) : State × Bool :=
  let lo := s.foldSlotOf p n
  let lines := (s.lineErrors.map (·.1)).filter (fun l => decide (lo ≤ l) && decide (l < lo + 0x100000))
  lines.foldl (fun x l => match x.1.readLine l 0 true with
    | (t, .ok _) => (t, x.2)
    | (t, .ue) => (match job with
      | some id => t.memUe id (some p.val) l
      | none => State.listUe (t.addFault (memFault 1 (some p.val) l)) l, false)) (s, true)

/-- FOLD_SWITCH: the position takes the lowest-numbered of its other logical cores that can run. A parity error found in the
save of the outgoing core raises STATE_PARITY (R55). -/
def execFoldSwitch (part : PartId) (pos : Fin 15) (parityError : Bool) (s : State) : Answer :=
  whenOn (fun s =>
    let w := (s.part part).working
    let carried := carriedBy w pos.val
    let idOf (n : Nat) : CoreId := coreIdOf part ⟨n % 12, by omega⟩
    match carried with
    | [] => s
    | first :: _ =>
      let out := (mapGet none (s.part part).onPosition pos.val).getD first
      match carried.find? (fun n => n != out && s.canRun (idOf n)) with
      | none => s
      | some n =>
        if !(s.core (idOf out)).givesUp || !s.benchQuiet (idOf out) then s
        else if parityError then
          (if (s.core (idOf out)).kernel.isSome then s.raise (idOf out) exStateParity else s.saveFault (idOf out))
        else match s.readFoldSlot part n ((s.core (idOf n)).kernel.map (·.manifest)) with
          | (s0, false) => s0
          | (s0, true) =>
            let s1 := s0.updCore (idOf out) (fun x => { x with readBuffer := [] })
            let s2 := s1.updPart part (fun x => { x with onPosition := mapPut none x.onPosition pos.val (some n) })
            if s2.canBegin (idOf n) then s2.beginKernel (idOf n) else s2) s

end Sys2Proof.Machine
end

