-- ==== Sys2Proof/Machine/HostOps.lean ====
section
/-! DEFINITION. What the host's accesses share: when the register window answers, register writes with rows of their own,
reads that clear, instances and sharing modes (R11, R13, R441, R442, R448 to R455, R542). -/

namespace Sys2Proof.Machine

/-! ## The window (R441, R442) -/

def devStarting : Nat := 0
def devReady : Nat := 1
def devDegraded : Nat := 2
def devFailed : Nat := 3

/-- DEV_STATE.STATE. -/
def State.devState (s : State) : Nat := s.regField R_DEV_STATE 3 0

/-- Whether the device serves work: READY or DEGRADED. -/
def State.devUp (s : State) : Bool := s.devState == devReady || s.devState == devDegraded

/-- Whether the block of an offset answers in the present device state. -/
def State.answers (s : State) (off : Nat) : Bool :=
  decide (off < 0x10000) || s.devUp || (s.devState == devFailed && decide (off < 0x20000))

/-- Whether an access of the host reaches the register at an offset. -/
def State.hostReaches (s : State) (off : Nat) : Bool := s.hostUp && s.answers off

/-- A register write with a row of its own: it happens where the host reaches the register. -/
def hostWrite (off : Nat) (f : State → State) (s : State) : Answer :=
  whenOn (fun s => if s.hostReaches off then f s else s) s

/-- All ones, what an access that does not answer reads. -/
def allOnes : Word := 0xFFFFFFFF

/-- A read of an RC register: its value, and it clears; all ones and no effect while its block does not answer; nothing
while the link is down (R11, R13, R441). -/
def hostReadClear (off : Nat) (s : State) : Answer :=
  whenOn (fun s =>
    if !s.hostUp then s
    else if s.answers off then s.readClear off
    else { s with busRead := allOnes }) s

/-! ## Instances (R448 to R455) -/

def State.sharing (s : State) : Nat := s.regField R_DEV_MODE 1 0
def modeUnshared : Nat := 0
def modeMediated : Nat := 1
def modeSlice : Nat := 2

def instReg (i : Nat) : Nat := R_HST_INST + 8 * i
def berthReg (b : Nat) : Nat := R_HST_BERTH + 4 * b

/-- States of an instance in HST_INST[i].STATE. -/
def instAbsent : Nat := 0
def instRunning : Nat := 1
def instResetting : Nat := 2
def instRemoving : Nat := 3

/-- Whether an instance is valid, its state, its PASID and its partitions. Instance 0 of the unshared mode is valid with
every partition (R449). -/
def State.instValid (s : State) (i : Nat) : Bool :=
  (s.sharing == modeUnshared && i == 0) || s.regBit (instReg i) 63
def State.instState (s : State) (i : Nat) : Nat :=
  let st := s.regField (instReg i) 62 60
  if s.sharing = modeUnshared ∧ i = 0 ∧ st = instAbsent then instRunning else st
def State.instPasid (s : State) (i : Nat) : Nat := s.regField (instReg i) 35 16
def State.instParts (s : State) (i : Nat) : Nat :=
  if s.sharing = modeUnshared ∧ i = 0 then 0xFFFF else s.regField (instReg i) 15 0
def State.setInstState (s : State) (i st : Nat) : State := s.setRegField (instReg i) 62 60 st

/-- The instance a berth belongs to. -/
def State.berthInst (s : State) (b : BerthId) : Option Nat :=
  if s.sharing = modeUnshared then some 0
  else if s.regBit (berthReg b.val) 6 then some (s.regField (berthReg b.val) 5 0) else none

/-- The valid instance that holds a PASID, in slice mode. -/
def State.pasidInst (s : State) (pasid : Nat) : Option Nat :=
  (List.range 64).find? (fun i => s.instValid i && s.instPasid i == pasid)

end Sys2Proof.Machine
end

