-- ==== Sys2Proof/Machine/Arb.lean ====
section
/-! DEFINITION. Arbitration: one turn of an instance, wait counters, epochs, withdrawal, commits (R374 to R388), and the toll
booths that pay pieces at their turns (R475 to R477). -/

namespace Sys2Proof.Machine

/-! ## Instances (R374) -/

/-- How many interfaces a port provides, by the MODE it read at its last enable (R389, R391). -/
def State.portIfs (s : State) (p : Nat) : Nat := 2 ^ (s.port p).mode

/-- N, the number of requesters; 0 for a link-egress interface the port does not provide. -/
def State.arbN (s : State) (inst : Nat) : Nat :=
  if inst < 0x100 then 17
  else if inst < 0x110 then 9
  else if inst < 0x112 then 9
  else if inst < 0x120 then 0
  else if inst < 0x140 then 16
  else if inst < 0x160 then (if (inst - 0x140) % 8 < s.portIfs ((inst - 0x140) / 8) then 18 else 0)
  else if inst < 0x170 then 12
  else if inst ≤ 0x180 then 768 else 0

/-! ## Counters, epochs and rotation (R378, R379) -/

/-- The rotation base of R379; the first epoch has base 0. DESIGN CHOICE (log entry 44, unsafe). -/
def ArbSt.base (a : ArbSt) (n : Nat) : Nat := if n = 0 then 0 else a.epoch % n
def ArbSt.rotated (a : ArbSt) (n r : Nat) : Nat := (r + n - a.base n) % n

def ArbSt.isExpired (a : ArbSt) (r : Nat) : Bool := a.expired.any (fun e => e.1 == r)

/-- A counter that has reached LIMIT expires, at the count of turns taken so far. -/
def ArbSt.expire (a : ArbSt) (r : Nat) : ArbSt :=
  if a.active.limit ≤ mapGet 0 a.wait r ∧ !a.isExpired r then { a with expired := a.expired ++ [(r, a.turns)] } else a

/-- The epoch that 64 turns have completed begins. -/
def ArbSt.newEpoch (a : ArbSt) : ArbSt := if a.epoch < a.turns / 64 then { a with epoch := a.epoch + 1 } else a

/-- Everything due before an arbitration starts. -/
def ArbSt.settle (a : ArbSt) : ArbSt := ((a.wait.map (·.1)).foldl ArbSt.expire a).newEpoch

/-- A turn granted to another, or dead, adds one to the counter of a requester that is present; it holds at LIMIT. -/
def ArbSt.countWait (a : ArbSt) (r : Nat) : ArbSt :=
  let w := mapGet 0 a.wait r
  if a.active.limit ≤ w then a else { a with wait := mapPut 0 a.wait r (w + 1) }

/-- The turn goes to `w` while the requesters `present` take part. -/
def ArbSt.grantTo (a : ArbSt) (present : List Nat) (w : Nat) : ArbSt :=
  let b := (present.filter (fun r => r != w)).foldl ArbSt.countWait (a.clearWait w)
  { b with turns := b.turns + 1, granted := some w }

/-! ## One turn (R376, R377) -/

/-- The least key; the first of equal ones. -/
def minByKey (key : Nat → List Nat) : List Nat → Option Nat
  | [] => none
  | x :: xs => match minByKey key xs with
    | none => some x
    | some y => if decide (key y < key x) then some y else some x

/-- Step 2 of R377: expired counters first, and of those the earliest. -/
def ArbSt.step2 (a : ArbSt) (r : Nat) : List Nat := match a.expired.find? (fun e => e.1 == r) with
  | some e => [0, e.2]
  | none => [1, 0]

/-- The order of steps 2 to 4 among present requesters: expired counters first and earliest first, then priority, then
rotated index. -/
def ArbSt.rank (a : ArbSt) (n r : Nat) : List Nat :=
  a.step2 r ++ [15 - mapGet 0 a.active.prio r, a.rotated n r]

/-- The owner of the slot at the pointer. -/
def ArbSt.slotOwner (a : ArbSt) : Option Nat := let e := mapGet (false, 0) a.active.slots a.pointer; if e.1 then some e.2 else none

/-- The winner of R377. -/
def ArbSt.winner (a : ArbSt) (n : Nat) (present : List Nat) : Option Nat :=
  match a.slotOwner with
  | some o => if present.contains o then some o else minByKey (a.rank n) present
  | none => minByKey (a.rank n) present

/-- Every turn takes the slot at the pointer, which then advances; a win by an expired counter counts in ARB_FORCED (R376, R388). -/
def ArbSt.pass (a : ArbSt) (forced : Bool) : ArbSt :=
  { a with
    pointer := (a.pointer + 1) % 64
    forced := if forced then BitVec.ofNat 32 (satAdd a.forced.toNat 0xFFFFFFFF) else a.forced }

/-- A turn of kernel issue or admission, whose work is done as it is granted; `open_` says that no step before step 2 chose its winner
(R376, R383). -/
def ArbSt.workTurn (a : ArbSt) (present : List Nat) (w : Nat) (open_ : Bool) : ArbSt :=
  let b := a.settle
  { (b.grantTo present w).pass (open_ && b.isExpired w) with granted := none }

/-- The requesters that waited and no longer ask: a freeze, a squash or a reset has removed their requests, and their counters are
clear (R378). DEDUCED (log entry 110, unsafe). -/
def ArbSt.keepOnly (a : ArbSt) (present : List Nat) : ArbSt :=
  ((a.wait.map (·.1)).filter (fun r => !present.contains r)).foldl ArbSt.clearWait a

/-- One turn over the requests present; none are present, no turn. -/
def ArbSt.turn (a : ArbSt) (n : Nat) (present : List Nat) : ArbSt :=
  let b := a.settle
  match b.winner n present with
  | none => b
  | some w =>
    (b.grantTo present w).pass (b.isExpired w && b.slotOwner != some w)

/-! ## Toll booths (R475 to R477) -/

/-- The next piece of a core: of the MMA that waits, of its movements in order of submission, of its part of a collective;
with the manifest it works for. -/
inductive TollPiece where
  | mma (manifest cost : Nat)
  | move (id manifest cost : Nat)
  | coll (index manifest cost : Nat)
  deriving DecidableEq, Repr

def TollPiece.cost : TollPiece → Nat
  | .mma _ c => c
  | .move _ _ c => c
  | .coll _ _ c => c
def TollPiece.manifest : TollPiece → Nat
  | .mma m _ => m
  | .move _ m _ => m
  | .coll _ m _ => m

/-- Indexed elements of a list. -/
def indexed {α : Type} (l : List α) : List (Nat × α) := (List.range l.length).zip l

def State.nextPiece (s : State) (c : CoreId) : Option TollPiece :=
  let x := s.core c
  let mma : Option TollPiece := match x.tollHeld, x.kernel with
    | some n, some k => if n = 0 then none else some (.mma k.manifest (min n tollPieceMax))
    | _, _ => none
  let move : Option TollPiece := s.moves.findSome? (fun (m : Movement) => if m.core = c then
    match m.tollsLeft with
    | t :: _ => some (.move m.id m.manifest t)
    | [] => none else none)
  let coll : Option TollPiece := (indexed s.colls).findSome? (fun (e : Nat × Coll) =>
    match mapGet [] e.2.tolls c.val with
    | t :: _ => some (.coll e.1 e.2.manifest t)
    | [] => none)
  (mma.or move).or coll

/-- Whether a manifest is promised. -/
def State.isPromised (s : State) (id : Nat) : Bool := match s.manifest? id with
  | some m => m.promised
  | none => false

/-- The piece is granted: what it covers may begin. -/
def State.grantPiece (s : State) (c : CoreId) (t : TollPiece) : State :=
  let s := s.tollGrant c t.cost
  match t with
  | .mma _ cost => s.updCore c (fun x => { x with tollHeld := x.tollHeld.map (fun n => n - cost) })
  | .move id _ _ =>
    let s := s.updMove id (fun m => { m with tollsLeft := m.tollsLeft.drop 1 })
    match s.move? id with
    | some m => if m.tollsLeft.isEmpty then s.startMove id else s
    | none => s
  | .coll i _ _ =>
    match s.colls[i]? with
    | some l => { s with colls := listSet s.colls i { l with tolls := mapPut [] l.tolls c.val ((mapGet [] l.tolls c.val).drop 1) } }
    | none => s

/-- The queue of a manifest as a requester of the kernel-issue and admission arbiters (R374). -/
def Manifest.requester (m : Manifest) : Nat := 16 * m.berth.val + m.queue.val

/-- Whether a manifest has a kernel still to end on a partition. -/
def Manifest.kernelsOn (m : Manifest) (p : Nat) : Bool := match m.obj with
  | some o => m.ranks.any (fun r => r.part == p && !r.dropped && decide (r.kindex < o.kernels.length))
  | none => false

/-- Whether anything of a requester is left that it could request for, at the instances whose requests the state shows; at the others
the next arbitration shows it. -/
def State.holdsRequest (s : State) (inst r : Nat) : Bool :=
  if inst = 0x180 then s.manifests.any (fun m => m.requester == r && m.phase == .admissible)
  else if 0x170 ≤ inst then s.manifests.any (fun m => m.requester == r && !m.promised && m.kernelsOn (inst - 0x170))
  else if 0x160 ≤ inst then decide (r < 12) && (s.nextPiece (coreIdOf (partOf (inst - 0x160)) ⟨r % 12, by omega⟩)).isSome
  else true

/-- An instance as it stands: the counter of a requester whose request a freeze, a squash or a reset has removed is clear
(R378). -/
def State.arbNow (s : State) (inst : Nat) : ArbSt :=
  let a := s.arb inst
  ((a.wait.map (·.1)).filter (fun r => !s.holdsRequest inst r)).foldl ArbSt.clearWait a

/-- The logical cores of a booth's partition that have a piece the buckets can pay: those that request (R477). -/
def State.boothRequests (s : State) (p : PartId) : List Nat :=
  (List.range 12).filter (fun n =>
    match s.nextPiece (coreIdOf p ⟨n % 12, by omega⟩) with
    | some t => (s.tollPay p (s.isPromised t.manifest) t.cost).isSome
    | none => false)

/-- A turn of a toll booth: the winner's piece is paid and granted, and the turn is past withdrawing. DESIGN CHOICE (log entry 41, unsafe). -/
def State.boothTurn (s : State) (p : PartId) (inst : Nat) (present : List Nat) : State :=
  let requests := (s.boothRequests p).filter (fun r => present.contains r)
  let a := (s.arbNow inst).turn 12 requests
  if requests.isEmpty then s
  else match a.granted with
    | none => s
    | some w =>
      let c := coreIdOf p ⟨w % 12, by omega⟩
      match s.nextPiece c with
      | none => s
      | some t => match s.tollPay p (s.isPromised t.manifest) t.cost with
        | none => s
        | some s1 => (s1.setArb inst { a with granted := none }).grantPiece c t

/-- ARBITRATION: one turn over the requests judged present. The turns of kernel issue and admission are KERNEL_ISSUE and
ADMISSION. DESIGN CHOICE (log entry 44, unsafe). -/
def execArbitration (inst : ArbIndex) (present : List Nat) (s : State) : Answer :=
  whenChecked (fun s =>
    let i := inst.val
    let n := s.arbN i
    let dead := match arbOwner i with
      | some p => (s.part p).state == .stranded
      | none => false
    let here := (present.filter (fun r => decide (r < n))).eraseDups
    if dead || here.isEmpty || decide (0x170 ≤ i) then s
    else if 0x160 ≤ i then s.boothTurn (partOf (i - 0x160)) i here
    else s.updArb i (fun a => (a.keepOnly here).turn n here)) s

/-- WAIT_COUNTER_EXPIRE: a counter that has reached LIMIT expires. -/
def execWaitCounterExpire (inst : ArbIndex) (requester : Nat) (s : State) : Answer :=
  whenOn (fun s => if requester < s.arbN inst.val then s.updArb inst.val (fun a => a.expire requester) else s) s

/-- ARB_EPOCH_ADVANCE: after each 64 turns the rotation base advances. -/
def execArbEpochAdvance (inst : ArbIndex) (s : State) : Answer :=
  whenOn (fun s => s.updArb inst.val ArbSt.newEpoch) s

/-- ARB_WITHDRAW: the requester granted the last turn withdraws before its data phase: the turn passes dead (R381). A turn of a booth,
of kernel issue or of admission does its work as it is granted, and leaves nothing to withdraw. DEDUCED (log entry 110, unsafe). -/
def execArbWithdraw (inst : ArbIndex) (requester : Nat) (s : State) : Answer :=
  whenOn (fun s => if (s.arb inst.val).granted = some requester then s.updArb inst.val (fun a => a.withdraw requester) else s) s

/-! ## Commits (R375, R384) -/

/-- The longest run of consecutive valid slots, counted cyclically, from 0 to 64. -/
def slotRunFrom (slots : SMap (Bool × Nat)) : Nat → Nat → Nat
  | 0, _ => 0
  | fuel + 1, i => if (mapGet (false, 0) slots (i % 64)).1 then slotRunFrom slots fuel (i + 1) + 1 else 0
def slotRun (slots : SMap (Bool × Nat)) : Nat := ((List.range 64).map (slotRunFrom slots 64)).foldl max 0

/-- Whether the shadows may be committed. Kernel issue and admission have no slot table. -/
def arbCommitOk (inst n : Nat) (a : ArbSet) : Bool :=
  a.limit != 0 && (decide (0x170 ≤ inst) ||
    ((List.range 64).all (fun i => let e := mapGet (false, 0) a.slots i; !e.1 || decide (e.2 < n)) &&
     decide (slotRun a.slots ≤ 32)))

/-- The slow-corner turn period in hundredths of a beat, by the exact ratio where the pace sets it (R374, R392, R567). -/
def State.turnPeriod (s : State) (inst : Nat) : Nat :=
  if inst < 0x100 then 123
  else if inst < 0x110 then 123
  else if inst < 0x120 then 153
  else if inst < 0x140 then 1200
  else if inst < 0x160 then
    (let p := (inst - 0x140) / 8
     match (s.port p).mode + (s.port p).gen with
     | 0 => 2120
     | 1 => 4230
     | 2 => 8450
     | 3 => 16900
     | _ => 33790)
  else if inst < 0x170 then 150 else 0

/-- ARB_BOUND: the bound of R384 for the committed settings; 0 for kernel issue and admission. -/
def State.arbBound (s : State) (inst : Nat) : Nat :=
  let a := (s.arb inst).active
  if 0x170 ≤ inst ∨ s.arbN inst = 0 then 0
  else ceilDiv ((a.limit + (slotRun a.slots + 1) * s.arbN inst) * s.turnPeriod inst) 100

/-- ARB_COMMIT: the shadows of the selected instance take effect together, or the commit is refused. -/
def execArbCommit (value : Lane) (s : State) : Answer :=
  hostWrite R_ARB_COMMIT (fun s =>
    let inst := s.regField R_ARB_SEL 8 0
    if !value.getLsbD 0 ∨ 0x180 < inst then s
    else
      let a := s.arb inst
      if arbCommitOk inst (s.arbN inst) a.shadow then s.setArb inst { a with active := a.shadow }
      else s.setArb inst { a with refused := true }) s

/-- Read and clear ARB_DEAD or ARB_FORCED of the selected instance; zero where none is selected. -/
def execArbCountRead (forced : Bool) (s : State) : Answer :=
  whenOn (fun s =>
    let off := if forced then R_ARB_FORCED else R_ARB_DEAD
    let inst := s.regField R_ARB_SEL 8 0
    if !s.hostUp then s
    else if !s.answers off then { s with busRead := allOnes }
    else if 0x180 < inst then { s with busRead := 0 }
    else
      let a := s.arb inst
      let t : State := s.setArb inst (if forced then { a with forced := 0 } else { a with dead := 0 })
      { t with busRead := (if forced then a.forced else a.dead).setWidth 64 }) s

end Sys2Proof.Machine
end

