-- ==== Sys2Proof/Machine/Queue.lean ====
section
/-! DEFINITION. Context records and berths, doorbells, fetch and binding, event waits, revocation, the ledger's registers
(R312 to R345, R347, R452). -/

namespace Sys2Proof.Machine

/-! ## Context records (R312, R313) -/

/-- Bits [hi:lo] of a number are zero. -/
def zeroBits (x hi lo : Nat) : Bool := bits x hi lo == 0

/-- A queue record of a context record at `a`: none where it breaks R313; an invalid queue is checked in QFLAGS only. HEAD,
TAIL and the completion counts are read when the berth becomes Resident. -/
def State.queueRec (s : State) (a : Nat) : Option QueueSt :=
  let flags := s.hostNat (a + 0x0A) 1
  if !zeroBits flags 7 1 then none
  else if flags = 0 then some QueueSt.empty
  else
    let base := s.hostNat a 8
    let log2 := s.hostNat (a + 8) 1
    let format := s.hostNat (a + 9) 1
    let priority := s.hostNat (a + 0x0B) 1
    let cbase := s.hostNat (a + 0x20) 8
    let clog2 := s.hostNat (a + 0x28) 1
    if base % 4096 = 0 ∧ base < 2 ^ 52 ∧ 4 ≤ log2 ∧ log2 ≤ 16 ∧ (format = 1 ∨ format = 2) ∧ priority < 16 ∧
        s.hostNat (a + 0x0C) 4 = 0 ∧ cbase % 4096 = 0 ∧ cbase < 2 ^ 52 ∧ 4 ≤ clog2 ∧ clog2 ≤ 16 ∧
        s.hostNat (a + 0x29) 7 = 0 then
      some { QueueSt.empty with
        valid := true, ringBase := base, ringLog2 := log2, format := format, priority := priority
        cringBase := cbase, cringLog2 := clog2 }
    else none

/-- The sixteen queues of a record. -/
def State.queueRecs (s : State) (a : Nat) : Option (Vector QueueSt 16) :=
  let qs := allQueues.map (fun q => s.queueRec (a + 0x40 + 64 * q.val))
  if qs.all (·.isSome) then some (Vector.ofFn (fun q => (qs.getD q.val none).getD QueueSt.empty)) else none

/-- The berth a record at `a` gives for a context, or none where the record breaks R312 or names another context. -/
def State.contextRec (s : State) (a ctx : Nat) : Option BerthSt :=
  let root := s.hostNat (a + 8) 8
  let pasid := s.hostNat (a + 4) 4
  if ctx ≠ 0 ∧ s.hostNat a 2 = ctx ∧ s.hostNat (a + 2) 1 = 1 ∧ s.hostNat (a + 3) 1 = 1 ∧ pasid < 2 ^ 20 ∧
      zeroBits root 63 52 ∧ zeroBits root 11 2 ∧ root % 4 ≠ 2 ∧ (s.hostRead (a + 0x10) 48).all (fun b => b == 0) then
    match s.queueRecs a with
    | some qs => some { BerthSt.empty with
        state := .loading, context := BitVec.ofNat 16 ctx, pasid := BitVec.ofNat 20 pasid
        ptRoot := BitVec.ofNat 64 root, record := a, queues := qs }
    | none => none
  else none

/-! ## BRT requests (R316, R317, R338) -/

def brtOk : Nat := 0
def brtBerthUsed : Nat := 1
def brtResident : Nat := 2
def brtBadRecord : Nat := 3
def brtEmpty : Nat := 4
def brtBadOp : Nat := 5
def brtFerryBusy : Nat := 6

/-- A request answered: RESULT, and RETRY_US with FERRY_BUSY. -/
def State.brtAnswer (s : State) (result retry : Nat) : State :=
  let s : State := { s with brtServed := none }
  State.setRegField (State.setRegField (s.setRegField R_BRT_REQ_STATUS 31 31 0) R_BRT_REQ_STATUS 29 16 retry)
    R_BRT_REQ_STATUS 3 0 result

/-- A request for a berth is taken up. -/
def State.brtServe (s : State) (b : BerthId) : State :=
  State.setRegField { s with brtServed := some b } R_BRT_REQ_STATUS 31 31 1

/-- The request being served is answered where it is for this berth. -/
def State.brtDone (s : State) (b : BerthId) : State := if s.brtServed = some b then s.brtAnswer brtOk 0 else s

/-- A write of BRT_REQ: its fields are stored; with GO it is discarded while a request is served, refused while the Ferryman
sheds it, kept while the Ferryman is down, and otherwise taken up (R338, R551). -/
def State.brtRequest (s : State) (value : Lane) (busy : Option (BitVec 14)) (act : State → State) : State :=
  let s := s.setReg R_BRT_REQ (BitVec.ofNat 64 (value.toNat &&& 0x383FFFFF))
  if !value.getLsbD 31 then s
  else if s.regBit R_BRT_REQ_STATUS 31 then s.setRegField R_BRT_REQ_STATUS 30 30 1
  else if s.ferryDown then s.setRegField R_BRT_REQ_STATUS 31 31 1
  else match busy with
    | some us => s.brtAnswer brtFerryBusy us.toNat
    | none => act s

/-- LOAD: the refusals of R316 and R451; else the berth becomes Loading. DEDUCED (log entry 75, unsafe). -/
def State.load (s : State) (b : BerthId) (ctx : Nat) : State :=
  let a := s.regField R_BRT_REQ_ADDR 51 6 * 64
  if (s.berth b).state ≠ .empty then s.brtAnswer brtBerthUsed 0
  else if allBerths.any (fun i => (s.berth i).state != .empty && (s.berth i).context.toNat == ctx) then
    s.brtAnswer brtResident 0
  else match s.contextRec a ctx with
    | none => s.brtAnswer brtBadRecord 0
    | some x =>
      let inst := s.pasidInst x.pasid.toNat
      -- a fence of the context that still waits holds no work translated from now on (R305)
      let x : BerthSt := { x with epoch := ((s.fences.filter (fun f => f.context == x.context)).map (·.epoch)).foldl max 0 }
      if s.sharing = modeSlice ∧ inst = none then s.brtAnswer brtBadRecord 0
      else
        let s1 := match s.sharing == modeSlice, inst with
          | true, some i => (s.setRegField (berthReg b.val) 5 0 i).setRegField (berthReg b.val) 6 6 1
          | _, _ => s
        State.brtServe (State.setReg (s1.setBerth b x) (R_PWR_BERTH_ENERGY + 8 * b.val) 0) b

/-- A berth starts to unload; a record still being loaded has no HEAD to write back. -/
def State.startUnload (s : State) (b : BerthId) : State :=
  s.updBerth b (fun x =>
    { x with state := .unloading, queues := if x.state = .loading then Vector.replicate 16 QueueSt.empty else x.queues })

/-- UNLOAD: fetching stops at once; the request is served until the berth is Empty. -/
def State.unload (s : State) (b : BerthId) (_ctx : Nat) : State :=
  match (s.berth b).state with
  | .empty => s.brtAnswer brtEmpty 0
  | .unloading => s.brtServe b
  | _ => State.brtServe (s.startUnload b) b

/-- The request in BRT_REQ is carried out, as its fields stand. -/
def State.brtPerform (s : State) : State :=
  let r := (s.reg R_BRT_REQ).toNat
  if h : bits r 21 16 < 48 then
    if bits r 29 28 = 0 then s.load ⟨bits r 21 16, h⟩ (bits r 15 0)
    else if bits r 29 28 = 1 then s.unload ⟨bits r 21 16, h⟩ (bits r 15 0)
    else s.brtAnswer brtBadOp 0
  else s.brtAnswer brtBadOp 0

/-- A request kept while the Ferryman was down is served once it runs again: BUSY stands and no berth is being served (R551). -/
def State.brtResume (s : State) : State :=
  if s.regBit R_BRT_REQ_STATUS 31 && s.brtServed.isNone then s.brtPerform else s

/-- LOAD. A request of UNLOAD is a command of its own. -/
def execLoadBerth (value : Lane) (busy : Option (BitVec 14)) (s : State) : Answer :=
  hostWrite R_BRT_REQ (fun s => if bits value.toNat 29 28 = 1 then s else s.brtRequest value busy State.brtPerform) s

def execUnloadBerth (value : Lane) (busy : Option (BitVec 14)) (s : State) : Answer :=
  hostWrite R_BRT_REQ (fun s => if bits value.toNat 29 28 = 1 then s.brtRequest value busy State.brtPerform else s) s

/-! ## Doorbells (R315, R318 to R320, R452) -/

def State.qRevoked (s : State) (b : BerthId) (q : QueueId) : Bool := (s.berth b).revoked.getLsbD q.val
def State.qFrozen (s : State) (b : BerthId) (q : QueueId) : Bool := (s.berth b).frozen.getLsbD q.val
def State.updQueue (s : State) (b : BerthId) (q : QueueId) (f : QueueSt → QueueSt) : State :=
  s.updBerth b (fun x => x.setQueue q (f (x.queue q)))

/-- Apply an offered tail, or discard it (R319). -/
def State.offerTail (s : State) (b : BerthId) (q : QueueId) (t : Word) : State :=
  let x := (s.berth b).queue q
  if !x.valid ∨ s.qRevoked b q ∨ s.qFrozen b q then s
  else if x.tail ≤ t.toNat ∧ t.toNat - x.head ≤ 2 ^ x.ringLog2 then s.updQueue b q (fun x => { x with tail := t.toNat })
  else s.addFault { FaultEntry.bare 6 1 with
    bq := some (b.val, q.val), context := (s.berth b).context, addr := t }

/-- Whether a doorbell's sender owns the berth (R320, R448, R452). -/
def State.ownsBerth (s : State) (b : BerthId) (sender : DbSender) : Bool :=
  if s.sharing = modeMediated then
    match sender, s.berthInst b with
    | .function i, some j => i.val == j
    | _, _ => false
  else match sender with
    | .pasid p => p == (s.berth b).pasid
    | _ => false

/-- DOORBELL: the host's stores are there first. A virtual function has no doorbell pages outside mediated mode. -/
def execDoorbell (berth : BerthId) (queue : QueueId) (access : DbAccess) (value : Word) (sender : DbSender)
    (stores : HostStores) (s : State) : Answer :=
  whenOn (fun s =>
    let s := s.hostStores stores
    let foreign := match sender with
      | .function _ => s.sharing != modeMediated
      | _ => false
    if !s.hostUp || !s.devUp || foreign || access != .tail then s
    else match (s.berth berth).state with
      | .empty => s
      | .unloading => s
      | .loading =>
        if s.ownsBerth berth sender then s.updQueue berth queue (fun x => { x with held := x.held ++ [value] })
        else s.freezeQueue berth queue 1
      | .resident => if s.ownsBerth berth sender then s.offerTail berth queue value else s.freezeQueue berth queue 1) s

/-- BERTH_LOADED: HEAD, TAIL and the completion counts of every valid queue are read, and held doorbells are applied. -/
def execBerthLoaded (berth : BerthId) (s : State) : Answer :=
  whenOn (fun s =>
    let x := s.berth berth
    if x.state ≠ .loading || !s.hostUp || s.ferryDown then s
    else
      let held := allQueues.flatMap (fun q => (x.queue q).held.map (fun t => (q, t)))
      let s1 := s.setBerth berth { x with
        state := .resident
        queues := Vector.ofFn (fun q =>
          let y := x.queue q
          let r := x.record + 0x40 + 64 * q.val
          if y.valid then
            { y with tail := s.hostNat (r + 0x10) 8, head := s.hostNat (r + 0x18) 8
                     cringProduced := s.hostNat (r + 0x30) 8, cringConsumed := s.hostNat (r + 0x38) 8, held := [] }
          else { y with held := [] }) }
      State.brtDone (held.foldl (fun s e => s.offerTail berth e.1 e.2) s1) berth) s

/-- A berth becomes Empty: HEAD of every queue is written, and nothing is kept but the epoch (R317, R333, R510). -/
def State.emptyBerth (s : State) (b : BerthId) : State :=
  let x := s.berth b
  let s1 := allQueues.foldl (fun s q =>
    if (x.queue q).valid then s.publish (x.record + 0x58 + 64 * q.val) (leBytes 8 (x.queue q).head) [] else s) s
  s1.setBerth b { BerthSt.empty with epoch := x.epoch }

/-- Whether fetched manifests of a berth have not yet completed and retired. -/
def State.berthBusy (s : State) (b : BerthId) : Bool := s.manifests.any (fun m => m.berth == b)

/-! ## Ends before running (R333, R347, R350, R371) -/

def rsFormat : Nat := 1
def rsCode : Nat := 2
def rsNoBound : Nat := 3
def rsTicket : Nat := 4
def rsRun : Nat := 5
def rsRank : Nat := 6
def rsRole : Nat := 7
def rsCapacity : Nat := 8
def rsKernelLimit : Nat := 9
def rsNoTime : Nat := 0x0A
def rsHedge : Nat := 0x0B
def rsV1Active : Nat := 0x0C
def rsVslot : Nat := 0x0D

/-- A manifest is refused: counted, shown in SUB_LAST_REFUSAL, and it ends. -/
def State.refuse (s : State) (id reason : Nat) : State :=
  match s.manifest? id with
  | none => s
  | some m =>
    let s := s.countReg R_SUB_REFUSED
    let s := s.setReg R_SUB_LAST_REFUSAL
      (BitVec.ofNat 64 (m.tag.toNat % 2 ^ 32 * 2 ^ 32 + reason * 2 ^ 24 + m.berth.val * 2 ^ 16 + m.queue.val))
    s.endManifest id stRefused reason

/-! ## Entries (R340 to R344) -/

def noDeadline : Nat := 2 ^ 64 - 1

/-- A manifest with nothing done yet, in a queue. -/
def Manifest.blank (id : Nat) (b : BerthId) (q : QueueId) (context : BitVec 16) : Manifest where
  id := id
  berth := b
  queue := q
  context := context
  version := 1
  promised := false
  replay := false
  running := false
  nodeliver := false
  vslot := 0
  vdev := 0
  code := 0
  tag := 0
  deadline := noDeadline
  seed := 0
  waitEvent := 0
  signalEvent := 0
  waitValue := 1
  run := 0
  rankBase := 0
  rankCount := 0
  chain := 1
  energyTag := 0
  bcount := 0
  bindings := []
  bindValues := []
  bound := []
  hedges := []
  phase := .waitEvent
  readyAt := 0
  readyBeat := 0
  obj := none
  runRec := none
  step := none
  ranks := []
  iter := 0
  tokens := 0
  replays := 0
  flags := 0
  void := 0
  firstBeat := 0
  lastBeat := 0
  booked := 0
  bookedParts := []
  bookM := 0
  bookMaxE := 0
  nowM := 0
  floor := 0
  excCode := 0
  excRank := 0
  excCore := 0
  excPc := 0
  faulted := false
  allowanceUsed := false
  waitedOn := []
  heldLines := []
  seqs := []
  effectsDone := []
  ignoreFault := false
  partner := none
  revoked := false
  started := false
  energy := 0

def byteAt (e : List Byte) (i : Nat) : Nat := (e.getD i 0).toNat
def natAt (e : List Byte) (i n : Nat) : Nat := leNat ((e.drop i).take n)
def laneAt (e : List Byte) (i : Nat) : Lane := BitVec.ofNat 32 (natAt e i 4)

/-- Bytes of an entry of a queue's format, and its continuation entries. -/
def entryBytes (format : Nat) : Nat := if format = 1 then 32 else 64
def entryConts (format : Nat) (e : List Byte) : Nat :=
  if format = 1 then ceilDiv (byteAt e 0x19) 8
  else ceilDiv (byteAt e 2) 16 + (if byteAt e 0x3C % 8 = 0 then 0 else 1)

/-- The tickets of the continuation entries, and whether those beyond BCOUNT are zero. -/
def contTickets (conts : List Byte) (n : Nat) : List Lane := (List.range n).map (fun i => laneAt conts (4 * i))
def contTailZero (conts : List Byte) (n per : Nat) : Bool :=
  (List.range (ceilDiv n per * per - n)).all (fun i => laneAt conts (4 * (n + i)) == 0)

/-- The hedge pairs of a hedge entry: PRIMARY and SHADOW, and whether its other bits are zero (R341). -/
def hedgePairs (h : List Byte) (n : Nat) : List (Nat × Nat) :=
  (List.range n).map (fun i => (natAt h (8 * i) 2, natAt h (8 * i + 2) 2))
def hedgeZero (h : List Byte) (n : Nat) : Bool :=
  (hedgePairs h n).all (fun p => decide (p.1 < 2 ^ 14) && decide (p.2 < 2 ^ 14)) &&
  (List.range n).all (fun i => natAt h (8 * i + 4) 4 == 0) && (h.drop (8 * n)).all (fun b => b == 0)

/-- A version 2 entry with its continuations: the manifest, and whether its format is right (R340 to R342). -/
def manifestV2 (m : Manifest) (e conts : List Byte) : Manifest × Bool :=
  let flags := byteAt e 1
  let bcount := byteAt e 2
  let h := byteAt e 0x3C % 8
  let hedge := conts.drop (64 * ceilDiv bcount 16)
  let m := { m with
    version := 2
    promised := bitAt flags 0, replay := bitAt flags 1, running := bitAt flags 2, nodeliver := bitAt flags 3
    bcount := bcount, vslot := slotOf (byteAt e 3), code := laneAt e 4, tag := BitVec.ofNat 64 (natAt e 8 8)
    deadline := natAt e 0x10 8, seed := BitVec.ofNat 64 (natAt e 0x18 8), waitEvent := laneAt e 0x20
    signalEvent := laneAt e 0x24, waitValue := BitVec.ofNat 64 (natAt e 0x28 8), run := laneAt e 0x30
    rankBase := natAt e 0x34 2 % 2 ^ 14, rankCount := natAt e 0x36 2 % 2 ^ 15, chain := natAt e 0x38 2
    energyTag := natAt e 0x3A 2, bindings := contTickets conts (min bcount 64), hedges := hedgePairs hedge h }
  let ok := byteAt e 0 == 2 && zeroBits flags 7 4 && decide (bcount ≤ 64) && zeroBits (byteAt e 3) 7 4 &&
    zeroBits (natAt e 0x34 2) 15 14 && zeroBits (natAt e 0x36 2) 15 15 && m.rankCount != 0 &&
    decide (m.rankBase + m.rankCount ≤ 16384) && m.chain != 0 && decide (h ≤ 4) && zeroBits (byteAt e 0x3C) 7 3 &&
    natAt e 0x3D 3 == 0 && ((m.run != 0) == m.running) && (!m.nodeliver || m.running) &&
    (!m.promised || m.deadline != noDeadline) && contTailZero conts bcount 16 && (h == 0 || hedgeZero (hedge.take 64) h)
  (m, ok)

/-- A version 1 entry (R344). -/
def manifestV1 (m : Manifest) (e conts : List Byte) : Manifest × Bool :=
  let bcount := byteAt e 0x19
  let flags := byteAt e 0x1A
  let m := { m with
    version := 1
    replay := bitAt flags 0, bcount := bcount, vslot := slotOf (byteAt e 0x18), code := laneAt e 8
    tag := BitVec.ofNat 64 (natAt e 0 8), waitEvent := laneAt e 0x0C, signalEvent := laneAt e 0x10, waitValue := 1
    rankBase := natAt e 0x14 2 % 2 ^ 14, rankCount := natAt e 0x16 2 % 2 ^ 15, bindings := contTickets conts (min bcount 64) }
  let ok := zeroBits flags 7 1 && decide (bcount ≤ 64) && zeroBits (byteAt e 0x18) 7 4 &&
    zeroBits (natAt e 0x14 2) 15 14 && zeroBits (natAt e 0x16 2) 15 15 && m.rankCount != 0 &&
    decide (m.rankBase + m.rankCount ≤ 16384) && natAt e 0x1B 5 == 0 && contTailZero conts bcount 8
  (m, ok)

/-! ## Binding (R327, R343) -/

/-- The type a ticket of the entry's own fields must have; a binding takes any type that names an object. -/
def State.bindingType (s : State) (t : Lane) : Nat := match s.ticketEntry t with
  | some e => if 1 ≤ e.type ∧ e.type ≤ 4 then e.type else 16
  | none => 16

/-- What SRD BIND reads of a binding (R343). -/
def State.bindingValue (s : State) (t : Lane) : Word := match s.ticketEntry t with
  | some e => if e.type = ldgEvent then t.setWidth 64 else BitVec.ofNat 64 e.loc
  | none => 0

/-- Bind tickets in turn: the tickets bound, and whether all were. -/
def State.bindAll (ctx : Nat) : State → List (Lane × Nat) → List Lane → State × List Lane × Bool
  | s, [], got => (s, got, true)
  | s, (t, want) :: rest, got =>
    match s.bindTicket want ctx t with
    | some s1 => State.bindAll ctx s1 rest (got ++ [t])
    | none => (s, got, false)

/-- Bind every ticket a manifest names; on a failure the counts taken are returned at once. -/
def State.bindManifest (s : State) (m : Manifest) : State × Option Manifest :=
  let event (t : Lane) : List (Lane × Nat) := if t = 0 then [] else [(t, ldgEvent)]
  let want := [(m.code, ldgCode)] ++ m.bindings.map (fun t => (t, s.bindingType t)) ++
    (if m.running then [(m.run, ldgRun)] else []) ++ event m.waitEvent ++ event m.signalEvent
  let values := m.bindings.map s.bindingValue
  match State.bindAll m.context.toNat s want [] with
  | (s1, got, true) => (s1, some { m with bound := got, bindValues := values })
  | (s1, got, false) => (got.foldl State.returnTicket s1, none)

/-! ## Waiting for the event (R347, R358) -/

/-- The wait condition has come to hold: the manifest takes its place in the order of admission. -/
def State.makeReady (s : State) (id : Nat) : State :=
  State.updManifest { s with admitOrder := s.admitOrder + 1 } id (fun m => { m with
    phase := .admissible, readyAt := s.admitOrder, readyBeat := s.beat })

/-- The device reads the WAIT_EVENT word. -/
def State.pollEvent (s : State) (id : Nat) : State :=
  match s.manifest? id with
  | none => s
  | some m =>
    if m.phase ≠ .waitEvent then s
    else if m.waitEvent = 0 then s.makeReady id
    else if !s.hostUp then s
    else match s.eventEntry m.waitEvent with
      | none => s.misuse .device
      | some e =>
        if e.abandoned then s.endManifest id stWaitAbandoned 0
        else match s.trouble e.place 8 false with
          | some .decode => s.decodeFault id 5 e.place.addr
          | some .waits => match e.place.part? with
            | some q => s.waitOn id q
            | none => s
          | some (.misuse r) => s.misuse r
          | some _ => s
          | none => match s.wordRead e.place with
            | (s1, .inl v) => if m.waitValue ≤ v then s1.makeReady id else s1
            | (s1, .inr line) =>
              let s2 := s1.addFault { FaultEntry.ofManifest (memFault 1 ((addrPart line).map (fun (p : PartId) => p.val)) line) m with
                flags := 1 }
              (s2.listUe line).endManifest id stFault 0

/-- WAIT_EVENT_POLL: the word is read again. -/
def execWaitEventPoll (manifest : Nat) (s : State) : Answer := whenChecked (fun s => s.pollEvent manifest) s

/-! ## Fetch (R321, R341) -/

/-- Fetched entries of a queue that have not started. -/
def State.unstarted (s : State) (b : BerthId) (q : QueueId) : Nat :=
  (s.manifests.filter (fun m => m.berth == b && m.queue == q && !m.started && m.phase != .recorded)).length

/-- Bytes of ring entries `i` to `i + n − 1`. -/
def State.ringEntries (s : State) (x : QueueSt) (i n : Nat) : List Byte :=
  (List.range n).flatMap (fun k =>
    s.hostRead (x.ringBase + entryBytes x.format * ((i + k) % 2 ^ x.ringLog2)) (entryBytes x.format))

/-- Whether a queue may fetch: resident, valid, neither revoked nor frozen, with room, and an entry to fetch. -/
def State.mayFetch (s : State) (b : BerthId) (q : QueueId) : Bool :=
  let x := (s.berth b).queue q
  (s.berth b).state == .resident && x.valid && !s.qRevoked b q && !s.qFrozen b q && s.hostUp &&
  decide (s.unstarted b q < 8) && decide (x.head < x.tail)

/-! ## Revocation (R333) -/

/-- A manifest of a revoked queue: it completes with REVOKED, at its kernel boundaries where it runs. -/
def State.revokeManifest (s : State) (id : Nat) : State :=
  let s1 := s.updManifest id (fun m => { m with revoked := true })
  s1.endAtBoundary id stRevoked 0

/-- Revoke queues of a berth. -/
def State.revoke (s : State) (b : BerthId) (mask : BitVec 16) : State :=
  let s1 := s.updBerth b (fun x => { x with revoked := x.revoked ||| mask })
  (s1.manifests.filter (fun m => m.berth == b && mask.getLsbD m.queue.val)).foldl (fun s m => s.revokeManifest m.id) s1

/-- BRT_QREVOKE; a berth that is not Resident is ignored. -/
def execBrtQrevoke (value : Lane) (s : State) : Answer :=
  hostWrite R_BRT_QREVOKE (fun s =>
    let b := bits value.toNat 21 16
    if h : b < 48 then
      if value.getLsbD 31 ∧ (s.berth ⟨b, h⟩).state = .resident then s.revoke ⟨b, h⟩ (value.setWidth 16) else s
    else s) s

/-! ## The LDG block (R332, R339) -/

/-- LDG_ABANDON: the event is abandoned, and waits on it complete with 1; a ticket that names no event sets BAD_TICKET. -/
def execLdgAbandon (ticket : Lane) (s : State) : Answer :=
  hostWrite R_LDG_ABANDON (fun s => match s.eventEntry ticket with
    | some e => (s.abandonEntry e).wakeAbandoned
    | none => s.setRegField R_LDG_STATUS 1 1 1) s

def execLdgCountRead (releases : Bool) (s : State) : Answer :=
  hostReadClear (if releases then R_LDG_RELEASES else R_LDG_BINDS) s

/-! ## Fences (R305 to R310) -/

/-- Whether a cached run overlaps `[lo, hi)`. -/
def CachedRun.overlaps (r : CachedRun) (lo hi : Nat) : Bool :=
  decide (r.base < hi) && decide (lo < r.base + r.pages * 2 ^ r.pageBits)

/-- The epoch of a context: that of the berth it is in. A context in no berth has none running. -/
def State.contextEpoch (s : State) (ctx : BitVec 16) : Nat :=
  match allBerths.find? (fun b => (s.berth b).state != .empty && (s.berth b).context == ctx) with
  | some b => (s.berth b).epoch
  | none => 0

/-- Issue a fence: the runs it names leave the caches, the context's epoch advances, and the fence waits its turn. -/
def State.issueFence (s : State) (ctx : BitVec 16) (gone : CachedRun → Bool) : State :=
  let seq : Lane := BitVec.ofNat 32 (s.regField R_XLT_FENCE_ISSUED 31 0 + 1)
  let s1 : State := { s with cache := s.cache.filter (fun (c : CachedRun) => !(c.context == ctx && gone c)) }
  let s2 : State := allBerths.foldl (fun (s : State) b =>
    if (s.berth b).state ≠ .empty ∧ (s.berth b).context = ctx then s.updBerth b (fun x => { x with epoch := x.epoch + 1 }) else s) s1
  State.setReg { s2 with fences := s2.fences ++ [⟨ctx, s2.contextEpoch ctx, seq⟩] } R_XLT_FENCE_ISSUED (seq.setWidth 64)

/-- XLT_FENCE_GO: steps 1 and 2 of R305. -/
def execXltFenceGo (value : Lane) (s : State) : Answer :=
  hostWrite R_XLT_FENCE_GO (fun s =>
    let r := s.reg R_XLT_FENCE_CTX
    let ctx : BitVec 16 := r.setWidth 16
    if !value.getLsbD 0 ∨ ctx = 0 then s
    else if 16 ≤ s.fences.length then s.setRegField R_XLT_STATUS 5 5 1
    else
      let lo := s.regField R_XLT_FENCE_BASE 47 16 * 65536
      let hi := (s.regField R_XLT_FENCE_LIMIT 47 16 + 1) * 65536
      s.issueFence ctx (fun c => r.getLsbD 31 || (decide (lo < hi) && c.overlaps lo hi))) s

def execXltCountRead (counter : Fin 5) (s : State) : Answer := hostReadClear (R_XLT_RC_HIT + 4 * counter.val) s

/-- Whether work of a context translated under an earlier epoch has still to retire (step 3 of R305). -/
def State.fenceWork (s : State) (f : Fence) : Bool :=
  s.moves.any (fun m => m.context == f.context && decide (m.epoch < f.epoch)) ||
  s.colls.any (fun l => match s.manifest? l.manifest with
    | some m => m.context == f.context && l.epoch.any (fun e => decide (e.2 < f.epoch) && !l.retired.any (fun c => c.val == e.1))
    | none => false) ||
  allCores.any (fun c => match (s.core c).phase with
    | .waiting (.flag _ _ _ _ e) => (match s.running c with
      | some (_, m) => m.context == f.context && decide (e < f.epoch)
      | none => false)
    | _ => false) ||
  s.manifests.any (fun m => m.context == f.context && !m.phase.over && (match m.runRec with
    | some r => decide (r.epoch < f.epoch)
    | none => false))

/-- FENCE_COMPLETE: the oldest fence, once its earlier work has retired. -/
def execFenceComplete (s : State) : Answer :=
  whenOn (fun s => match s.fences with
    | f :: rest => if s.fenceWork f then s
      else State.setReg { s with fences := rest } R_XLT_FENCE_DONE (f.seq.setWidth 64)
    | [] => s) s

end Sys2Proof.Machine
end

