-- ==== Sys2Proof/Machine/Admission.lean ====
section
/-! DEFINITION. Admission: reading code objects and run records, the checks in their order, execution bounds, bookings, the fit
test, and runs admitted afresh (R69, R70, R85 to R91, R234, R239, R290, R345, R353 to R363, R367, R370, R453, R463, R569). -/

namespace Sys2Proof.Machine

/-! ## Reading through a context's tables (R88, R290) -/

/-- What a read of a virtual range gives: the bytes; no valid translation; an unpopulated address or the Ferryman area (R248); an
uncorrectable line; a missing permission; or it has to wait, for the host link or for a partition that is Resetting. -/
inductive VRead where
  | ok (bytes : List Byte)
  | bad
  | decode (addr : Nat)
  | ue (line : Nat)
  | lacks
  | later
  deriving DecidableEq, Repr

/-- The bytes of one piece. Memory of another device is not this model's: its bytes are free. -/
def State.readPiece (s : State) (p : Piece) : State × VRead :=
  match p.place with
  | .remote _ a _ => (s.tick, .ok ((List.range p.bytes).map (fun i => Config.remoteByte s.free (a + i))))
  | q =>
    match s.trouble q p.bytes false with
    | some .hostDown => (s, .later)
    | some .resetting => (s, .later)
    | some .waits => (s, .later)
    | some (.misuse r) => (s.misuse r, .bad)
    | some .decode => (s, .decode q.addr)
    | some _ => (s, .bad)
    | none => match s.placeRead q p.bytes with
      | (s1, .inl bs) => (s1, .ok bs)
      | (s1, .inr line) => (s1.listUe line, .ue line)

def State.gatherPieces : State → List Piece → List Byte → State × VRead
  | s, [], got => (s, .ok got)
  | s, p :: rest, got =>
    match s.readPiece p with
    | (s1, .ok bs) => State.gatherPieces s1 rest (got ++ bs)
    | r => r

/-- Read `n` bytes at a virtual address of a manifest's context, with R, and X where `text` holds. -/
def State.readVirt (s : State) (cluster : Option Nat) (m : Manifest) (va n : Nat) (text : Bool) : State × VRead :=
  if 2 ^ 48 < va + n then (s, .bad)
  else match s.translate cluster m.context (s.rootOf m) va (va + n) with
    | (s1, x) =>
      match x.ue with
      | some line => (s1.listUe line, .ue line)
      | none =>
        if x.down then (s1, .later)
        else if x.missing then (s1, .bad)
        else if x.pieces.any (fun p => !p.r || (text && !p.x)) then (s1, .lacks)
        else s1.gatherPieces x.pieces []

/-- The MEM entry with reason UE of a line that a read for a manifest found uncorrectable; the line is listed (R257, R258). -/
def State.noteUe (s : State) (m : Manifest) (line : Nat) : State :=
  State.listUe (s.addFault { FaultEntry.ofManifest (memFault 1 ((addrPart line).map (fun (p : PartId) => p.val)) line) m with
    flags := 1 }) line

/-- A read at admission: an uncorrectable line of the range or of a table on its way has its entry (R88, R257, R308).
DEDUCED (log entry 77, unsafe). -/
def State.readAdmitted (s : State) (m : Manifest) (va n : Nat) : State × VRead :=
  match s.readVirt none m va n false with
  | (s1, .ue line) => (s1.noteUe m line, .ue line)
  | r => r

/-! ## The code object (R85 to R88, R91) -/

def codeMagic : Nat := 0x4C495243

/-- The fields of a header that R88 checks. -/
structure CodeHead where
  magic : Nat
  version : Nat
  size : Nat
  kcount : Nat
  bcount : Nat
  ktab : Nat
  btab : Nat
  text : Nat
  textSize : Nat
  objectId : Word
  deriving DecidableEq, Repr

def CodeHead.ofBytes (b : List Byte) : CodeHead :=
  ⟨natAt b 0 4, natAt b 4 2, natAt b 8 4, natAt b 0x0C 2, natAt b 0x0E 2, natAt b 0x10 4, natAt b 0x14 4, natAt b 0x18 4,
   natAt b 0x1C 4, BitVec.ofNat 64 (natAt b 0x20 8)⟩

/-- MAGIC, VERSION, the ranges of KCOUNT and BCOUNT, and the tables and the text within SIZE. -/
def CodeHead.known (h : CodeHead) : Bool := h.magic == codeMagic && (h.version == 1 || h.version == 2)
def CodeHead.ok (h : CodeHead) : Bool :=
  h.known && decide (1 ≤ h.kcount) && decide (h.kcount ≤ 256) && decide (h.bcount ≤ 64) &&
  decide (h.ktab + 16 * h.kcount ≤ h.size) && (h.version == 1 || decide (h.btab + 64 * h.kcount ≤ h.size)) &&
  decide (h.text + h.textSize ≤ h.size)

def boundOfBytes (b : List Byte) : BoundRec :=
  ⟨natAt b 0 8, natAt b 8 4, natAt b 0x0C 4, natAt b 0x10 8, natAt b 0x18 8, natAt b 0x20 8, natAt b 0x28 8, natAt b 0x30 8,
   natAt b 0x38 4, natAt b 0x3C 4⟩

/-- A kernel of the tables, with its CORE_MASK as written. -/
def kernelOf (h : CodeHead) (ktab btab : List Byte) (i : Nat) : KernelRec :=
  ⟨natAt ktab (16 * i) 4, natAt ktab (16 * i + 4) 2, natAt ktab (16 * i + 6) 2,
   if h.version = 1 then none else some (boundOfBytes ((btab.drop (64 * i)).take 64))⟩

/-- A kernel's text lies within the text, and TEXT_WORDS and CORE_MASK are valid (R86, R88). A CORE_MASK with a reserved bit set is not
valid. DESIGN CHOICE (log entry 109, unsafe). -/
def kernelOk (h : CodeHead) (k : KernelRec) : Bool :=
  decide (1 ≤ k.words) && decide (k.words ≤ 4096) && decide (8 * (k.start + k.words) ≤ h.textSize) &&
  k.mask != 0 && decide (k.mask < 4096)

/-- What admission finds of the code object: the object; a failed check, with the header's BCOUNT where it is known; an
unpopulated address; a missing permission; or a wait. -/
inductive CodeOut where
  | obj (o : CodeObj)
  | bad (bcount : Option Nat)
  | decode (addr : Nat)
  | lacks
  | later
  deriving DecidableEq, Repr

/-- Turn a read that did not succeed into its outcome. -/
def VRead.codeOut (r : VRead) (bcount : Option Nat) : CodeOut :=
  match r with
  | .lacks => .lacks
  | .later => .later
  | .decode a => .decode a
  | _ => .bad bcount

/-- Read and check the code object at a manifest's code ticket. -/
def State.readCode (s : State) (m : Manifest) : State × CodeOut :=
  match s.ticketEntry m.code with
  | none => (s, .bad none)
  | some e =>
    let base := bits e.loc 47 0
    match s.readAdmitted m base 64 with
    | (s1, .ok hb) =>
      let h := CodeHead.ofBytes hb
      let known := if h.known ∧ h.bcount ≤ 64 then some h.bcount else none
      if !h.ok then (s1, .bad known)
      else match s1.readAdmitted m (base + h.ktab) (16 * h.kcount) with
        | (s2, .ok kt) =>
          let (s3, rb) := if h.version = 1 then (s2, VRead.ok []) else s2.readAdmitted m (base + h.btab) (64 * h.kcount)
          match rb with
          | .ok bt =>
            let ks := (List.range h.kcount).map (kernelOf h kt bt)
            if ks.all (kernelOk h) then (s3, .obj ⟨h.version, h.bcount, h.text, h.objectId, base, ks⟩)
            else (s3, .bad known)
          | r => (s3, r.codeOut known)
        | (s2, r) => (s2, r.codeOut known)
    | (s1, r) => (s1, r.codeOut none)

/-- Whether the code object that a manifest with a ticket that does not bind names shows a BCOUNT above its own: FORMAT comes before
TICKET (R342, R569). DEDUCED (log entry 77, unsafe). -/
def State.shortOfCode (s : State) (m : Manifest) : State × Bool :=
  match s.bindTicket ldgCode m.context.toNat m.code, s.ticketEntry m.code with
  | some _, some e => match s.readAdmitted m (bits e.loc 47 0) 64 with
    | (s1, .ok hb) =>
      let h := CodeHead.ofBytes hb
      (s1, h.known && decide (h.bcount ≤ 64) && decide (m.bcount < h.bcount))
    | (s1, _) => (s1, false)
  | _, _ => (s, false)

/-- FETCH: the next manifest of the queue, once the tail covers its continuations: it is bound, HEAD advances past it, and
it waits for its event; a manifest of a wrong format or with a ticket that does not bind is refused, for the first of those reasons
that holds (R569).
DEDUCED (log entry 76, unsafe). -/
def execFetch (berth : BerthId) (queue : QueueId) (s : State) : Answer :=
  whenChecked (fun s =>
    let x := (s.berth berth).queue queue
    if !s.mayFetch berth queue then s
    else
      let e := s.ringEntries x x.head 1
      let k := entryConts x.format e
      if x.tail - x.head < 1 + k then s
      else
        let conts := s.ringEntries x (x.head + 1) k
        let blank := Manifest.blank s.nextManifest berth queue (s.berth berth).context
        let (m, ok) := if x.format = 1 then manifestV1 blank e conts else manifestV2 blank e conts
        let m := { m with vdev := match s.slotVdev m.vslot.val with
          | some v => v.number
          | none => 0 }
        let head := x.head + 1 + k
        let (s1, bound) := if ok then s.bindManifest m else (s, none)
        let s2 : State := { s1 with manifests := s1.manifests ++ [bound.getD m], nextManifest := s1.nextManifest + 1 }
        let s3 := State.publish (s2.updQueue berth queue (fun x => { x with head := head }))
          ((s.berth berth).record + 0x58 + 64 * queue.val) (leBytes 8 head) []
        if !ok then s3.refuse m.id rsFormat
        else if bound.isNone then
          match s3.shortOfCode m with
          | (s4, short) => s4.refuse m.id (if short then rsFormat else rsTicket)
        else s3.pollEvent m.id) s

/-- Whether a binding names a code object of another version (R91). -/
def State.otherVersion (s : State) (m : Manifest) (version : Nat) : Bool :=
  m.bindings.any (fun t => match s.ticketEntry t with
    | some e => e.type == ldgCode && (match s.readVirt none m (bits e.loc 47 0) 64 false with
      | (_, .ok hb) => (CodeHead.ofBytes hb).known && (CodeHead.ofBytes hb).version != version
      | _ => false)
    | none => false)

/-! ## The run record (R234, R290, R346) -/

inductive RunRead where
  | ok (r : RunRec)
  | bad
  | decode (addr : Nat)
  | lacks
  | later
  deriving DecidableEq, Repr

/-- What the translation of a range of the run record gives. -/
inductive RangeOut where
  | runs (rs : List Run)
  | bad
  | lacks
  | later
  deriving DecidableEq, Repr

/-- Translate a range of the run record, with R and W: its runs, all of classes that `ok` allows. -/
def State.runRange (s : State) (m : Manifest) (va n : Nat) (ok : Nat → Bool) : State × RangeOut :=
  if 2 ^ 48 < va + n then (s, .bad)
  else match s.translate none m.context (s.rootOf m) va (va + n) with
    | (s1, x) =>
      let s1 := match x.ue with
        | some line => s1.noteUe m line
        | none => s1
      if x.down then (s1, .later)
      else if x.missing || x.ue.isSome || x.pieces.any (fun p => !ok p.cls) then (s1, .bad)
      else if x.pieces.any (fun p => !p.r || !p.w) then (s1, .lacks)
      else (s1, .runs (x.pieces.map (fun p => ⟨p.place, p.bytes⟩)))

/-- Read and check the run record of a running manifest. -/
def State.readRun (s : State) (m : Manifest) : State × RunRead :=
  match s.ticketEntry m.run with
  | none => (s, .bad)
  | some e =>
    match s.readAdmitted m (bits e.loc 47 0) 96 with
    | (s1, .lacks) => (s1, .lacks)
    | (s1, .later) => (s1, .later)
    | (s1, .decode a) => (s1, .decode a)
    | (s1, .ok b) =>
      let stepVa := natAt b 8 8
      let ringVa := natAt b 0x10 8
      let log2 := byteAt b 0x18
      let count := byteAt b 4
      if natAt b 0 4 = 0 ∨ 16 < count ∨ stepVa % 64 ≠ 0 ∨ ringVa % 4096 ≠ 0 ∨ log2 < 6 ∨ 20 < log2 then (s1, .bad)
      else match s1.runRange m stepVa 272 (fun c => decide (c ≤ 1)) with
        | (s2, .lacks) => (s2, .lacks)
        | (s2, .later) => (s2, .later)
        | (s2, .bad) => (s2, .bad)
        | (s2, .runs steps) =>
          let mk (rings : List Run) : RunRec :=
            ⟨natAt b 0 4, (List.range count).map (fun i => laneAt b (0x20 + 4 * i)), stepVa, ringVa, log2, steps, rings, s.epochOf m⟩
          if m.nodeliver then (s2, .ok (mk []))
          else match s2.runRange m ringVa (0x40 + 16 * 2 ^ log2) (fun c => c == 3) with
            | (s3, .lacks) => (s3, .lacks)
            | (s3, .later) => (s3, .later)
            | (s3, .bad) => (s3, .bad)
            | (s3, .runs rings) => (s3, .ok (mk rings))
    | (s1, _) => (s1, .bad)

/-! ## Execution bounds (R69, R359 to R361) -/

/-- The slow-corner pace at a voltage step, in tenths of a million steps per second (R469). -/
def slowPace (step : Nat) : Nat := 14000 + 375 * step

/-- Array steps to beats at a pace (R8). -/
def stepsToBeats (n pace : Nat) : Nat := ceilDiv (n * 10000) pace

/-- A sum of fractions, rounded up. -/
def sumUp (fs : List (Nat × Nat)) : Nat :=
  let r := fs.foldl (fun acc f => (acc.1 * f.2 + f.1 * acc.2, acc.2 * f.2)) (0, 1)
  ceilDiv r.1 r.2

/-- X: the transfer time at the admission rates, in beats; the host rate is scaled by the link's bandwidth (R359, R440). -/
def State.transferBeats (s : State) (b : BoundRec) : Nat :=
  sumUp ([(b.store, 10000), (b.die * 100, 333000), (b.xdie, 667), (b.lpddr * 10, 427), (b.remote, 50)] ++
    (if b.hostKib = 0 then [] else [(b.hostKib * 1024 * 10240, (max s.linkBw 1) * 625)]))

def State.floorPace (s : State) (p : PartId) : Nat := slowPace (s.regField (R_PWR_PART + 16 * p.val) 20 16)

/-- The folded bound of a kernel for a fold factor (R69). -/
def foldedBound (b : BoundRec) (k pace : Nat) : Nat := roundUp (stepsToBeats (k * b.b) pace + k * (b.w + 1) * 1900) 64

/-- C: with `raise` for the replay's fold factor, one above the partition's. -/
def State.computeBeats (s : State) (p : PartId) (b : BoundRec) (raise : Bool) : Nat :=
  let w := (s.part p).working
  let k := foldFactor w + (if raise then 1 else 0)
  if activeCount w = 12 ∧ !raise then stepsToBeats b.b (s.floorPace p) else foldedBound b k (s.floorPace p)

/-- L: the latency of the farthest pair of the named partitions `parts`, or SUB_LINKLAT where they lie on several devices. -/
def State.linkBeats (s : State) (m : Manifest) (parts : List Nat) (oneDevice : Bool) : Nat :=
  if !oneDevice then s.regField (R_SUB_LINKLAT + 4 * m.vslot.val) 31 0
  else if parts.length ≤ 1 then 12
  else if parts.all (fun p => p < 8) || parts.all (fun p => 8 ≤ p) then 50 else 85

/-- D. -/
def State.delayBeats (s : State) (b : BoundRec) (rankCount l : Nat) : Nat :=
  let a := s.regField R_SUB_ADM_ALLOW 15 0
  b.serial * (2 * l + a) + b.collectives * (2 * clog2 rankCount) * (l + 18) + b.w * (128 + a)

/-- The bounds of one kernel on one partition: whether the folded bound passes 1 ms, T, and T of the replay. -/
structure KernelTime where
  exceeds : Bool
  t : Nat
  replayT : Nat
  deriving DecidableEq, Repr

def State.kernelTime (s : State) (p : PartId) (b : BoundRec) (rankCount l : Nat) : KernelTime :=
  let xd := s.transferBeats b + s.delayBeats b rankCount l
  let c := s.computeBeats p b false
  ⟨activeCount (s.part p).working != 12 && decide (1000000 < c), c + xd, s.computeBeats p b true + xd⟩

/-- The greatest of a list. -/
def maxOf (l : List Nat) : Nat := l.foldl max 0

/-- M, R and E* of a manifest from its kernels' bounds on every partition it names or uses as a shadow, with its L (R360 to R362). -/
structure Bounds where
  exceeds : Bool
  limit : Bool
  m : Nat
  r : Nat
  maxE : Nat
  deriving DecidableEq, Repr

def State.bounds (s : State) (m : Manifest) (o : CodeObj) (parts : List Nat) (l : Nat) : Bounds :=
  let ts := parts.flatMap (fun p => o.kernels.filterMap (fun k => k.bound.map (fun b => s.kernelTime (partOf p) b m.rankCount l)))
  let e := maxOf (ts.map (fun t => t.t + 2500))
  let er := maxOf (ts.map (fun t => t.replayT + 2500))
  let extra := if m.running then 3000 else 0
  ⟨ts.any (·.exceeds), ts.any (fun t => decide (1000000 < t.t)), m.chain * e + extra,
   if m.replay then m.chain * er + extra + 10050000 else 0, if m.replay then max e er else e⟩

/-- The booking: M + R in whole timetable units, in beats. -/
def Bounds.booking (b : Bounds) : Nat := roundUp (b.m + b.r) 64

/-! ## Timetables and the fit test (R353, R362) -/

def TtSlot.beats (t : TtSlot) : Nat := 64 * t.units
def Timetable.cycle (t : Timetable) : Nat := (t.slots.map TtSlot.beats).foldl (· + ·) 0

/-- Windows of a berth within a cycle as pairs of start and length, adjacent slots of the berth joined. -/
def windowsFrom (b : Nat) : List TtSlot → Nat → List (Nat × Nat)
  | [], _ => []
  | t :: rest, at_ =>
    let more := windowsFrom b rest (at_ + t.beats)
    if t.owner = some b then
      match more with
      | (o, l) :: r => if o = at_ + t.beats then (at_, t.beats + l) :: r else (at_, t.beats) :: more
      | [] => [(at_, t.beats)]
    else more

/-- Usable time of a window cut to `[lo, hi)`, once `cut` is taken off. -/
def usableCut (cut lo hi : Nat) : Nat := hi - lo - cut

/-- Usable time until `d` of the occurrences, one in each cycle from `base`, of a window of length `l`. -/
def usableWindow (cut cycle base l now d : Nat) : Nat :=
  if d ≤ base ∨ cycle = 0 then 0
  else
    let k0 := if now < base + l then 0 else (now - base - l) / cycle + 1
    let k1 := (d - base - 1) / cycle
    let one (k : Nat) : Nat := usableCut cut (max (base + k * cycle) now) (min (base + k * cycle + l) d)
    if k1 < k0 then 0
    else if k0 = k1 then one k0
    else one k0 + one k1 + (k1 - k0 - 1) * (l - cut)

/-- Usable time of berth `b`'s windows between `now` and `d`: an unbroken window where it owns every slot; otherwise each
window of the cycle, a run joined across the cycle's end counted once. -/
def Timetable.usable (t : Timetable) (b cut now d : Nat) : Nat :=
  let cycle := t.cycle
  let ws := windowsFrom b t.slots 0
  if !t.enable then 0
  else if t.slots.all (fun x => x.owner == some b) then usableCut cut (max now t.anchor) d
  else match ws, ws.getLast? with
    | (0, l0) :: rest@(_ :: _), some (o, l) =>
      if o + l = cycle then
        usableCut cut (max now t.anchor) (min (t.anchor + l0) d) +
        ((rest.dropLast.map (fun w => usableWindow cut cycle (t.anchor + w.1) w.2 now d)).foldl (· + ·) 0) +
        usableWindow cut cycle (t.anchor + o) (l + l0) now d
      else (ws.map (fun w => usableWindow cut cycle (t.anchor + w.1) w.2 now d)).foldl (· + ·) 0
    | _, _ => (ws.map (fun w => usableWindow cut cycle (t.anchor + w.1) w.2 now d)).foldl (· + ·) 0

/-- A candidate of the fit test: deadline, booking, greatest E, and whether the skew allowance applies to it. -/
structure Candidate where
  deadline : Nat
  booking : Nat
  maxE : Nat
  deriving DecidableEq, Repr

/-- The test on one table: for each candidate's deadline the bookings due by it fit the usable time until it. -/
def fits (t : Timetable) (b now z : Nat) (cs : List Candidate) : Bool :=
  let cut := maxOf (cs.map (·.maxE)) + 64 + z
  cs.all (fun c => decide (((cs.filter (fun x => decide (x.deadline ≤ c.deadline))).map (·.booking)).foldl (· + ·) 0 ≤
    t.usable b cut now c.deadline))

/-- The admitted promised manifests of a berth booked on a partition, other than one. DEDUCED (log entry 78, unsafe). -/
def State.candidates (s : State) (p b other : Nat) : List Candidate :=
  (s.manifests.filter (fun m => m.promised && m.berth.val == b && m.id != other && m.bookedParts.contains p)).map
    (fun m => ⟨m.deadline, m.booked, m.bookMaxE⟩)

/-- The total booking held on a partition: TTB_BOOKED. -/
def State.bookedOn (s : State) (p : Nat) : Nat :=
  ((s.manifests.filter (fun m => m.bookedParts.contains p)).map (·.booked)).foldl (· + ·) 0

/-- The fit test on a partition, against the table in force and one that waits to take effect (R373). -/
def State.fitsOn (s : State) (m : Manifest) (p z : Nat) (c : Candidate) : Bool :=
  let x := s.part (partOf p)
  let cs := c :: s.candidates p m.berth.val m.id
  fits x.timetable m.berth.val s.beat z cs &&
  (match x.ttPending with
   | some t => fits t m.berth.val s.beat z cs
   | none => true)

/-! ## Naming ranks (R345, R367, R453) -/

def Manifest.names (m : Manifest) (rank : Nat) : Bool := decide (m.rankBase ≤ rank) && decide (rank < m.rankBase + m.rankCount)

/-- The members of the named ranks. -/
def VDev.named (v : VDev) (m : Manifest) : List Member := v.members.filter (fun x => m.names x.rank)

/-- The partition of this device that carries a member. -/
def Member.hereOn (x : Member) (me : Landing) : Option Nat := match x.host with
  | some (l, p) => if l = me then some p else none
  | none => none

/-- Whether a hedge pair meets R367. -/
def State.hedgeOk (s : State) (m : Manifest) (v : VDev) (h : Nat × Nat) : Bool :=
  m.names h.1 && !m.names h.2 && (match v.member? h.2 with
    | some x => !x.store && (match x.hereOn s.landing with
      | some p => (s.part (partOf p)).state == .active
      | none => false)
    | none => false) &&
  decide ((m.hedges.filter (fun g => g.2 == h.2)).length ≤ 1)

/-- The partitions of this device that the manifest names or uses as a shadow. -/
def State.localParts (s : State) (m : Manifest) (v : VDev) : List Nat :=
  ((v.named m).filterMap (fun x => x.hereOn s.landing) ++
   m.hedges.filterMap (fun h => (v.member? h.2).bind (fun x => x.hereOn s.landing))).eraseDups

/-- Whether every named rank with a host lies on this device. -/
def State.oneDevice (s : State) (m : Manifest) (v : VDev) : Bool :=
  (v.named m).all (fun x => match x.host with
    | some (l, _) => l == s.landing
    | none => true)

/-- L of a manifest: shadows are no named partitions (R359). -/
def State.linkOf (s : State) (m : Manifest) (v : VDev) : Nat :=
  s.linkBeats m ((v.named m).filterMap (fun x => x.hereOn s.landing)).eraseDups (s.oneDevice m v)

/-- Whether a version 1 kernel is queued or running on a partition (R356). -/
def State.v1Active (s : State) (p : Nat) : Bool :=
  let isV1 (k : KernelSlot) : Bool := match s.manifest? k.manifest with
    | some m => (match m.obj with
      | some o => o.version == 1
      | none => false)
    | none => false
  (partCores (partOf p)).any (fun c =>
    let x := s.core c
    x.engine.any isV1 || (match x.kernel with
      | some k => isV1 k && x.phase != .stopped
      | none => false))

/-! ## Admission (R357, R358, R569) -/

/-- The members of the named ranks that run here, and the hedge shadows: as they stood, or as first built. -/
def State.rankRuns (s : State) (m : Manifest) (v : VDev) : List RankRun :=
  let primary := (v.named m).filterMap (fun x => (x.hereOn s.landing).map (fun p => (⟨x.rank, p, false, false, 0, false, 0⟩ : RankRun)))
  let shadow := m.hedges.filterMap (fun h => ((v.member? h.2).bind (fun x => x.hereOn s.landing)).map (fun p =>
    (⟨h.1, p, true, false, 0, false, 0⟩ : RankRun)))
  let was (r : RankRun) : Bool := m.ranks.any (fun q => q.rank == r.rank && q.part == r.part && q.dropped)
  (primary ++ shadow).map (fun (r : RankRun) => { r with dropped := was r })

/-- Freeze the queue of a manifest whose code object, run record or kernel text lacks a permission: it completes with FAULT
(R88, R507, R509). -/
def State.freezeQueueOf (s : State) (m : Manifest) : State :=
  let s := s.updBerth m.berth (fun x => { x with frozen := x.frozen ||| ((1 : BitVec 16) <<< m.queue.val) })
  let s := s.violation { FaultEntry.ofManifest (FaultEntry.bare 8 2) m with flags := 5 }
  s.endManifest m.id stFault 0

/-- FLOOR_SHORT: the estimate of NEED_W exceeds the held floor (R479). -/
def State.showShort (s : State) : State :=
  s.setRegField R_PWR_STATUS 30 30 (if s.regField R_PWR_GRANT 63 48 < s.regField R_PWR_POWER 31 16 then 1 else 0)

/-- The held floor: the greater of F and every floor a promised manifest not yet retired recorded; BELOW_FLOOR clears where
G is again at least that (R463). -/
def State.holdFloor (s : State) : State :=
  let f := s.regField R_PWR_GRANT 31 16
  let h := maxOf (f :: (s.manifests.filter (fun m => m.promised)).map (·.floor))
  let s := if h = s.regField R_PWR_GRANT 63 48 then s else s.refillAll.setRegField R_PWR_GRANT 63 48 h
  let s := if h ≤ s.regField R_PWR_GRANT 15 0 then s.setRegField R_PWR_STATUS 31 31 0 else s
  s.showShort

/-- The first cause of refusal in the order of R569, once the objects have been read; 0 for none. -/
def State.cause (s : State) (m : Manifest) (code : CodeOut) (run : Option RunRead) (vdev : Option VDev) : Nat :=
  let short (n : Nat) : Bool := decide (m.bcount < n)
  let format : Bool := match code with
    | .obj o => short o.bcount
    | .bad (some n) => short n
    | _ => false
  if format then rsFormat
  else match vdev, code with
    | none, _ => rsVslot
    | some v, .obj o =>
      let parts := s.localParts m v
      let one := s.oneDevice m v
      let b := s.bounds m o parts (s.linkOf m v)
      let z := if one then 0 else 2000
      let inst := (s.berthInst m.berth).getD 0
      let outside := parts.any (fun p => !(s.instParts inst).testBit p)
      let missing := decide ((v.named m).length < m.rankCount)
      let hostless := (v.named m).any (fun x => x.host.isNone && !x.store)
      if s.otherVersion m o.version then rsCode
      else if m.promised ∧ o.version = 1 then rsNoBound
      else if run = some .bad then rsRun
      else if missing || (m.promised && hostless) || outside then rsRank
      else if (v.named m).any (·.store) then rsRole
      else if m.hedges.any (fun h => !s.hedgeOk m v h) then rsHedge
      else if m.promised && parts.any (fun p => s.v1Active p) then rsV1Active
      else if parts.any (fun p => activeCount (s.part (partOf p)).working == 0) || b.exceeds then rsCapacity
      else if b.limit then rsKernelLimit
      else if m.promised && (decide (m.deadline ≤ s.beat) || (z != 0 && !s.regBit R_LNK_TIME 31) ||
          parts.any (fun p => !s.fitsOn m p z ⟨m.deadline, b.booking, b.maxE⟩)) then rsNoTime
      else 0
    | some _, _ => rsCode

/-- Whether an open manifest waits for the host of a named rank (R38). -/
def State.waitsForHost (m : Manifest) (v : VDev) : Bool :=
  !m.promised && (v.named m).any (fun x => x.host.isNone)

/-- The bytes of a list of runs, at an offset. -/
def runPlaceAt : List Run → Nat → Option Place
  | [], _ => none
  | r :: rest, k => if k < r.bytes then some (r.place.plus k) else runPlaceAt rest (k - r.bytes)

/-- Read the 272 bytes of a step record: the bytes, an uncorrectable line, or a partition in the way. -/
def State.readStep (s : State) (r : RunRec) : State × VRead :=
  let ps : List Piece := r.stepPlaces.map (fun x => plainPiece x.bytes x.place)
  s.gatherPieces ps []

/-- The manifest or the run is admitted: bookings and floor are recorded; the copy of the step record that a repeated run
starts from is taken with the first run. -/
def State.admitRun (s : State) (m : Manifest) (o : CodeObj) (run : Option RunRec) (v : VDev) : State :=
  let parts := s.localParts m v
  let b := s.bounds m o parts (s.linkOf m v)
  let (s1, save) : State × Option StepSave := match run, m.step with
    | some r, none => match s.readStep r with
      | (s1, .ok bs) => (s1, some ⟨bs, true⟩)
      | (s1, _) => (s1, some ⟨[], false⟩)
    | _, st => (s, st)
  let runs := s1.rankRuns m v
  let s2 := s1.updManifest m.id (fun m => { m with
    vdev := v.number
    obj := some o
    runRec := run
    step := save
    ranks := runs
    effectsDone := []
    booked := if m.promised then b.booking else 0
    bookedParts := if m.promised then parts else []
    bookM := b.m
    bookMaxE := b.maxE
    nowM := b.m
    floor := if m.promised ∧ m.iter = 0 then s1.regField R_PWR_GRANT 31 16 else m.floor
    iter := if runs.isEmpty ∧ !m.running then 1 else m.iter
    phase := if runs.isEmpty ∧ !m.running then .ending stOk 0 else .admitted })
  State.holdFloor (s2.countReg R_SUB_ADMITTED)

/-- The manifests whose wait conditions hold; a later run also waits for trailing work to end (R369). -/
def State.admissible (s : State) : List Manifest := s.manifests.filter (fun m => m.phase == .admissible && m.trailersDone)

/-- Whether an admissible manifest waits for a host, and leaves its place in the order to others meanwhile (R38). -/
def State.standsBack (s : State) (m : Manifest) : Bool := match s.slotVdev m.vslot.val with
  | some v => State.waitsForHost m v
  | none => false

/-- The manifests that ask for admission, with `m` among them. -/
def State.seekers (s : State) (m : Manifest) : List Manifest := s.admissible.filter (fun x => x.id == m.id || !s.standsBack x)

/-- The order of admission: the beat at which the wait condition came to hold, and of those that came to hold in one arbitration the
expired counter, PRIORITY and the rotated index of their queues (R358, R383). -/
def admissionKey (s : State) (a : ArbSt) (x : Manifest) : List Nat :=
  [x.readyBeat] ++ a.step2 x.requester ++ [15 - ((s.berth x.berth).queue x.queue).priority, a.rotated 768 x.requester, x.readyAt]

/-- Whether no other manifest comes before this one. -/
def State.nextAdmitted (s : State) (m : Manifest) : Bool :=
  let a := (s.arbNow 0x180).settle
  (s.seekers m).all (fun x => !decide (admissionKey s a x < admissionKey s a m))

/-- A turn of the admission arbiter, taken by a manifest's queue. -/
def State.admissionTurn (s : State) (m : Manifest) : State :=
  s.setArb 0x180 ((s.arbNow 0x180).workTurn (((s.seekers m).map Manifest.requester).eraseDups) m.requester true)

/-- A manifest or a later run is refused: a promised run that no longer fits ends with DEADLINE (R239). -/
def State.refuseRun (s : State) (m : Manifest) (reason : Nat) : State :=
  if reason = rsNoTime ∧ 0 < m.iter then s.endManifest m.id stDeadline 0 else s.refuse m.id reason

/-- ADMISSION: of the manifests whose wait conditions hold, the first in the order of admission. An open one that passes every check and
waits for a host keeps its place. DEDUCED (log entry 77, unsafe). -/
def execAdmission (manifest : Nat) (s : State) : Answer :=
  whenChecked (fun s => match s.manifest? manifest with
    | none => s
    | some m =>
      if m.phase ≠ .admissible ∨ !m.trailersDone ∨ !s.nextAdmitted m then s
      else
        let vdev := s.slotVdev m.vslot.val
        match s.readCode m with
        | (_, .later) => s
        | (s1, .lacks) => (s1.admissionTurn m).freezeQueueOf m
        | (s1, .decode a) => (s1.admissionTurn m).decodeFault m.id 5 a
        | (s1, code) =>
          let (s2, run) : State × Option RunRead := if m.running then
              let r := s1.readRun m
              (r.1, some r.2)
            else (s1, none)
          if run = some .later then s
          else
            let s3 := s2.admissionTurn m
            let reason := s3.cause m code run vdev
            if run = some .lacks ∧ (reason = 0 ∨ reason = rsRun) then s3.freezeQueueOf m
            else match reason == 0 || reason == rsRun, run with
            | true, some (.decode a) => s3.decodeFault m.id 5 a
            | _, _ =>
            if reason ≠ 0 then s3.refuseRun m reason
            else match vdev, code, run with
              | some v, .obj o, some (.ok r) => if State.waitsForHost m v then s2 else s3.admitRun m o (some r) v
              | some v, .obj o, _ => if State.waitsForHost m v then s2 else s3.admitRun m o none v
              | _, _, _ => s3) s

def execSubCountRead (counter : Fin 3) (s : State) : Answer := hostReadClear (R_SUB_ADMITTED + 4 * counter.val) s

/-! ## Committing timetables (R373) -/

def ttBase (p : PartId) : Nat := 0x1000 * p.val

/-- The shadows of a partition's timetable, or none where a commit of them is refused for their own values. -/
def State.ttShadow (s : State) (p : PartId) : Option Timetable :=
  let o := ttBase p
  let count := wbits (s.shad (R_TTB_COUNT + o)) 8 0
  let slots : List TtSlot := (List.range count).map (fun i =>
    let w := s.shad (R_TTB_SLOT + o + 4 * i)
    ⟨if w.getLsbD 23 then none else some (wbits w 29 24), wbits w 11 0 + 1⟩)
  if count = 0 ∨ 256 < count ∨ slots.any (fun t => match t.owner with
      | some b => decide (47 < b)
      | none => false) then none
  else some ⟨(s.shad (R_TTB_CTRL + o)).getLsbD 0, wbits (s.shad (R_TTB_ANCHOR + o)) 63 6 * 64, slots⟩

/-- Whether every booking on a partition fits a new table. -/
def State.retest (s : State) (p : PartId) (t : Timetable) : Bool :=
  let ms := s.manifests.filter (fun m => m.promised && m.bookedParts.contains p.val)
  (ms.map (fun m => m.berth.val)).eraseDups.all (fun b =>
    let z := if ms.any (fun m => m.berth.val == b && (match s.vdev? m.vdev with
      | some v => !s.oneDevice m v
      | none => false)) then 2000 else 0
    fits t b s.beat z ((ms.filter (fun m => m.berth.val == b)).map (fun m => ⟨m.deadline, m.booked, m.bookMaxE⟩)))

def State.ttRefuse (s : State) (p : PartId) : State := s.setRegField (R_TTB_STATUS + ttBase p) 30 30 1

/-- A commit takes effect, unless a booking does not fit the new table. -/
def State.ttEffect (s : State) (p : PartId) (t : Timetable) : State :=
  let s1 := s.updPart p (fun x => { x with ttPending := none })
  if s.retest p t then s1.updPart p (fun x => { x with timetable := t }) else s1.ttRefuse p

/-- TTB_COMMIT. -/
def execTtbCommit (part : PartId) (value : Lane) (s : State) : Answer :=
  hostWrite (R_TTB_COMMIT + ttBase part) (fun s =>
    let x := s.part part
    if !value.getLsbD 0 then s
    else if x.ttPending.isSome then s.ttRefuse part
    else match s.ttShadow part with
      | none => s.ttRefuse part
      | some t =>
        if !x.timetable.enable ∨ s.beat < x.timetable.anchor then s.ttEffect part t
        else
          let c := x.timetable.cycle
          let ends := x.timetable.anchor + ((s.beat - x.timetable.anchor) / c + 1) * c
          s.updPart part (fun x => { x with ttPending := some t, ttPendingAt := ends })) s

/-- TTB_COMMIT_EFFECT: the cycle in force has ended. DEDUCED (log entry 45, unsafe). -/
def execTtbCommitEffect (part : PartId) (s : State) : Answer :=
  whenOn (fun s =>
    let x := s.part part
    match x.ttPending with
    | some t => if x.ttPendingAt ≤ s.beat then s.ttEffect part t else s
    | none => s) s

end Sys2Proof.Machine
end

