-- ==== Sys2Proof/Machine/Issue.lean ====
section
/-! DEFINITION. Kernel issue, the ends of runs, completion, retirement and replay of manifests (R83, R84, R235 to R240, R286,
R346 to R356, R366, R369, R383, R446, R481, R482, R509, R532). -/

namespace Sys2Proof.Machine

/-! ## Timetables at an instant (R352, R353) -/

def Timetable.offsetAt (t : Timetable) (now : Nat) : Nat := if t.cycle = 0 then 0 else (now - t.anchor) % t.cycle

def ownerAtOffset : List TtSlot → Nat → Option Nat
  | [], _ => none
  | x :: rest, o => if o < x.beats then x.owner else ownerAtOffset rest (o - x.beats)

/-- The berth that owns the slot in force; none in an open slot, before TTB_ANCHOR and while the timetable is off. -/
def Timetable.owner (t : Timetable) (now : Nat) : Option Nat :=
  if t.enable ∧ t.anchor ≤ now then ownerAtOffset t.slots (t.offsetAt now) else none

/-- Starts of the slots owned by the berths that `hit` selects, as offsets in the cycle. -/
def slotStarts (hit : Nat → Bool) : List TtSlot → Nat → List Nat
  | [], _ => []
  | x :: rest, o =>
    let more := slotStarts hit rest (o + x.beats)
    match x.owner with
    | some b => if hit b then o :: more else more
    | none => more

/-- The next such start after `now`. -/
def Timetable.nextStart (t : Timetable) (now : Nat) (hit : Nat → Bool) : Option Nat :=
  if !t.enable then none
  else ((slotStarts hit t.slots 0).map (fun o =>
    if now < t.anchor + o then t.anchor + o
    else t.anchor + o + ((now - t.anchor - o) / t.cycle + 1) * t.cycle)).min?

/-! ## Choosing a kernel (R351, R352, R356, R369, R383) -/

/-- A kernel ready on a partition: its manifest, and the member of a rank that runs it next. -/
structure Ready where
  m : Manifest
  r : RankRun
  k : KernelRec
  o : CodeObj
  deriving DecidableEq, Repr

/-- Whether a manifest dispatches kernels: admitted or running, or with trailing work after the end of its leaders (R369). -/
def Manifest.dispatches (m : Manifest) : Bool := match m.phase with
  | .admitted => true
  | .running => true
  | .runEnd _ _ _ => true
  | .admissible => true
  | .ending _ _ => true
  | .recorded => true
  | _ => false

/-- Whether a member still has trailing work on a partition for a manifest whose leaders have ended (R369). -/
def Manifest.trailsOn (m : Manifest) (p : Nat) : Bool :=
  m.leadersDone && !m.trailersDone && m.ranks.any (fun r => r.part == p && !r.dropped && (match m.obj with
    | some o => decide (r.kindex < o.kernels.length)
    | none => false))

/-- Whether a composition change that waits for the rank's boundary holds back its next kernel (R34, R35): a REHOST, which
alone affects a rank that manifests name (R32, R36). -/
def State.rankHeld (s : State) (m : Manifest) (rank : Nat) : Bool :=
  s.proposals.any (fun x => x.record.op == BitVec.ofNat 8 opRehost && x.record.vdev == m.vdev && x.record.rank.toNat == rank)

/-- E of a kernel at the partition's present capability (R360); none for a version 1 kernel. -/
def State.execBound (s : State) (p : PartId) (m : Manifest) (k : KernelRec) : Option Nat :=
  match k.bound, s.vdev? m.vdev with
  | some b, some v =>
    some ((s.kernelTime p b m.rankCount (s.linkOf m v)).t + 2500)
  | _, _ => none

/-- Whether the kernel's bound ends before the next slot of another berth that has a booked manifest here (R352). -/
def State.slotFits (s : State) (p : PartId) (m : Manifest) (k : KernelRec) : Bool :=
  let booked (b : Nat) : Bool := b != m.berth.val &&
    s.manifests.any (fun x => x.promised && x.berth.val == b && x.bookedParts.contains p.val)
  match (s.part p).timetable.nextStart s.beat booked, s.execBound p m k with
  | some t, some e => decide (s.beat + e < t)
  | some _, none => false
  | none, _ => true

/-- Whether a version 1 kernel is kept off the partition by an admitted promised manifest that names it, or uses it as a shadow, as
its ranks are hosted now (R356). -/
def State.v1Barred (s : State) (p : PartId) (o : CodeObj) : Bool :=
  o.version == 1 && s.manifests.any (fun x => x.promised && x.ranks.any (fun r => r.part == p.val))

/-- Whether a partition takes kernels at all now. -/
def State.issues (s : State) (p : PartId) : Bool :=
  let x := s.part p
  x.state == .active && !x.store && !x.noKernels && (s.reg (R_KEY_FROZEN + 4 * p.val)).toNat == 0 &&
  !mapGet false s.power.hotDie (p.val / 8)

/-- The kernels a partition could place now. DEDUCED (log entry 32, unsafe). -/
def State.readyKernels (s : State) (p : PartId) : List Ready :=
  let trailing := s.manifests.filter (fun m => m.trailsOn p.val)
  s.manifests.flatMap (fun m => match m.obj with
    | none => []
    | some o =>
      if !m.dispatches || (!trailing.isEmpty && !trailing.any (fun t => t.id == m.id)) then []
      else m.ranks.filterMap (fun r => match o.kernels[r.kindex]? with
        | none => none
        | some k =>
          let room := (partCores p).all (fun c => !k.mask.testBit (coreNum c) || decide ((s.core c).engine.length < 4))
          if r.part = p.val ∧ !r.dropped ∧ !r.inFlight ∧ room ∧ !s.rankHeld m r.rank ∧ !s.v1Barred p o ∧ s.slotFits p m k then
            some ⟨m, r, k, o⟩
          else none))

/-- The order of R351 and R383: the slot owner's promised kernels by deadline and tag, then its open ones; then promised
kernels; then open ones by expired counter, queue priority and rotated index. -/
def issueKey (s : State) (a : ArbSt) (owner : Option Nat) (x : Ready) : List Nat :=
  let mine := owner == some x.m.berth.val
  let q := x.m.requester
  let class_ := (if mine then 0 else 2) + (if x.m.promised then 0 else 1)
  (class_ :: (if x.m.promised then [x.m.deadline, x.m.tag.toNat] else
    a.step2 q ++ [15 - ((s.berth x.m.berth).queue x.m.queue).priority, a.rotated 768 q])) ++
    [x.m.id, x.r.rank, if x.r.shadow then 1 else 0]

def State.pickKernel (s : State) (p : PartId) : Option Ready :=
  let ks := s.readyKernels p
  let a := (s.arbNow (0x170 + p.val)).settle
  let owner := (s.part p).timetable.owner s.beat
  let key (i : Nat) : List Nat := match ks[i]? with
    | some x => issueKey s a owner x
    | none => []
  match minByKey key (List.range ks.length) with
  | some i => ks[i]?
  | none => none

/-! ## Placing a kernel (R84, R351) -/

/-- The arbiter's turn: the counters of other queues with a ready open kernel rise (R383). -/
def State.issueTurn (s : State) (p : PartId) (x : Ready) : State :=
  let openQs := ((s.readyKernels p).filter (fun y => !y.m.promised)).map (fun y => y.m.requester)
  let step2 := !x.m.promised && (s.part p).timetable.owner s.beat != some x.m.berth.val
  s.setArb (0x170 + p.val) ((s.arbNow (0x170 + p.val)).workTurn openQs.eraseDups x.m.requester step2)

/-- The 64-bit words of a byte list. -/
def wordsOf (b : List Byte) : List Word := (List.range (b.length / 8)).map (fun i => BitVec.ofNat 64 (natAt b (8 * i) 8))

/-- The kernel goes to the engine queues of every core of CORE_MASK at one instant. -/
def State.placeKernel (s : State) (p : PartId) (x : Ready) (text : List Word) : State :=
  let slot : KernelSlot := ⟨x.m.id, x.r.kindex, x.r.rank, x.r.shadow, text⟩
  let s1 := s.mapCores (fun c y => if corePart c = p ∧ x.k.mask.testBit (coreNum c) then { y with engine := y.engine ++ [slot] } else y)
  let s2 := s1.updManifest x.m.id (fun m => { m with
    started := true
    ignoreFault := false
    firstBeat := if m.started then m.firstBeat else s.beat
    phase := match m.phase with
      | .admitted => .running
      | ph => ph
    ranks := m.ranks.map (fun (r : RankRun) =>
      if r.part = p.val then { r with inFlight := true, left := popCount x.k.mask 12 } else r) })
  s2.startAll (partCores p)

/-- The KERNEL entry of an exception met at dispatch, on no core yet. -/
def dispatchEntry (p : PartId) (x : Ready) (code : Nat) : FaultEntry :=
  { FaultEntry.ofManifest (FaultEntry.bare 2 code) x.m with
    flags := 1, part := some p.val, rank := some x.r.rank, objectId := x.o.objectId, kindex := x.r.kindex }

/-- KERNEL_ISSUE: the kernel the arbiter chooses has its text read, and is placed. DEDUCED (log entry 81, unsafe). -/
def execKernelIssue (part : PartId) (s : State) : Answer :=
  whenChecked (fun s =>
    if !s.issues part then s
    else match s.pickKernel part with
      | none => s
      | some x =>
        let t := s.issueTurn part x
        match s.readVirt (some part.val) x.m (x.o.base + x.o.textOff + 8 * x.k.start) (8 * x.k.words) true with
        | (_, .later) => s
        | (s1, .ok bs) => State.placeKernel { s1 with arbs := t.arbs } part x (wordsOf bs)
        | (s1, .lacks) => State.freezeQueueOf { s1 with arbs := t.arbs } x.m
        | (s1, .decode a) => State.decodeFault { s1 with arbs := t.arbs } x.m.id 5 a
        | (s1, .ue line) => State.memUe (State.addFault { s1 with arbs := t.arbs } (dispatchEntry part x exTextUe)) x.m.id
            (some part.val) line
        | (s1, .bad) =>
          let s2 := State.addFault { s1 with arbs := t.arbs } (dispatchEntry part x exTranslate)
          let s3 := s2.updManifest x.m.id (fun m => { m with excCode := exTranslate, excRank := x.r.rank })
          s3.endJob x.m.id stException exTranslate) s

/-! ## The end of a run (R235 to R239, R346) -/

/-- The c of R237 step 2, and whether a stop token was met. -/
def scanStops (stops : List Lane) : List Lane → Nat × Bool
  | [] => (0, false)
  | t :: rest => if stops.contains t then (1, true) else
    match scanStops stops rest with
    | (c, st) => (c + 1, st)

/-- The end of a manifest that keeps its trailing work: no kernel is stopped. -/
def State.finish (s : State) (id status : Nat) : State :=
  s.updManifest id (fun m => { m with phase := .ending status 0 })

/-- Whether this copy lies on the lowest landing number of the copies (R346). -/
def State.lowestCopy (s : State) (m : Manifest) : Bool := (s.partnerDevices m).all (fun l => decide (s.landing.toNat ≤ l.toNat))

/-- Step 4: STOP, LIMIT, DEADLINE, the status of another copy, or the next run, which waits for trailing work to end (R237, R346,
R369). -/
def State.runOutcome (s : State) (m : Manifest) (r : RunRec) (stop : Bool) (saved : List Byte) : State :=
  if stop then s.finish m.id stStop
  else if m.iter + 1 = r.stepLimit then s.finish m.id stLimit
  else if s.lowestCopy m ∧ m.deadline ≠ noDeadline ∧ m.deadline ≤ s.beat then s.finish m.id stDeadline
  else match m.partner with
    | some st => s.finish m.id st
    | none => State.makeReady (s.updManifest m.id (fun m => { m with step := some ⟨saved, true⟩ })) m.id

/-- The token ring's counts. -/
def State.ringCount (s : State) (r : RunRec) (off : Nat) : Nat := match runPlaceAt r.ringPlaces off with
  | some (.host a) => s.hostNat a 8
  | _ => 0

/-- Publish bytes of the token ring. -/
def State.ringPut (s : State) (r : RunRec) (off : Nat) (bs : List Byte) : State := match runPlaceAt r.ringPlaces off with
  | some (.host a) => s.publish a bs []
  | _ => s

/-- Steps 3 and 4 for a run whose c entries are known: they are delivered once the ring has room. -/
def State.deliverRun (s : State) (m : Manifest) (r : RunRec) (c : Nat) (stop : Bool) (rec272 : List Byte) : State :=
  let iter := m.iter
  let counted (s : State) : State := s.updManifest m.id (fun m => { m with tokens := m.tokens + c, iter := m.iter + 1 })
  if m.nodeliver then (counted s).runOutcome m r stop rec272
  else
    let waits := s.updManifest m.id (fun m => { m with phase := .runEnd c stop rec272 })
    if !s.hostUp then waits
    else
      let produced := s.ringCount r 0
      if 2 ^ r.ringLog2 - c < produced - s.ringCount r 8 then waits
      else
        let pos := natAt rec272 8 8
        let entry (i : Nat) : List Byte := (rec272.drop (0x10 + 4 * i)).take 4 ++ leBytes 4 iter ++ leBytes 8 (pos + i)
        let s1 := (List.range c).foldl (fun s i => s.ringPut r (0x40 + 16 * ((produced + i) % 2 ^ r.ringLog2)) (entry i)) s
        (counted (s1.ringPut r 0 (leBytes 8 (produced + c)))).runOutcome m r stop rec272

/-- What stands in the way of the step record, and where. -/
def State.stepTrouble (s : State) (r : RunRec) (write : Bool) : Option (Trouble × Place) :=
  r.stepPlaces.findSome? (fun x => (s.trouble x.place x.bytes write).map (fun t => (t, x.place)))

/-- What follows where the step record cannot be reached: it waits for a reset, an address with no memory ends the manifest with DECODE
(R248, R249), and a lost partition with FAULT. -/
def State.stepBarred (s : State) (id : Nat) (t : Trouble × Place) : State :=
  match t.1 with
  | .resetting => s
  | .waits => match t.2.part? with
    | some q => s.waitOn id q
    | none => s
  | .decode => s.decodeFault id 5 t.2.addr
  | .window => s.decodeFault id 6 t.2.addr
  | .misuse r => s.misuse r
  | .stranded => s.endManifest id stFault 0
  | .hostDown => s

/-- RUN_END: steps 1 to 4 of R237 for a run whose last kernel has ended on every named rank. -/
def execRunEnd (manifest : Nat) (s : State) : Answer :=
  whenChecked (fun s => match s.manifest? manifest with
    | none => s
    | some m => match m.runRec with
      | none => s
      | some r =>
        if m.phase ≠ .running ∨ !m.leadersDone then s
        else match s.stepTrouble r false with
          | some t => s.stepBarred m.id t
          | none => match s.readStep r with
            | (s1, .ok bs) =>
              let count := natAt bs 0 4
              if count = 0 ∨ 64 < count then s1.endManifest m.id stStepRecord 0
              else
                let (c, stop) := scanStops r.stops ((List.range count).map (fun i => laneAt bs (0x10 + 4 * i)))
                s1.deliverRun m r c stop bs
            | (s1, .ue line) => s1.memUe m.id none line
            | _ => s) s

/-- TOKEN_RING_POLL: CONSUMED is read again, and nothing else (R237). -/
def execTokenRingPoll (manifest : Nat) (s : State) : Answer :=
  whenChecked (fun s => match s.manifest? manifest with
    | none => s
    | some m => match m.phase, m.runRec with
      | .runEnd c stop bs, some r => s.deliverRun m r c stop bs
      | _, _ => s) s

/-! ## Completion (R286, R347 to R349) -/

/-- The 64 bytes of a completion record. -/
def completionRecord (m : Manifest) (status detail now energy : Nat) : List Byte :=
  let late := if m.deadline ≠ noDeadline ∧ m.deadline < now then 8 else 0
  let exc := status == stException
  leBytes 8 m.tag.toNat ++ leBytes 1 status ++ leBytes 1 detail ++ leBytes 1 (m.void.toNat % 32 ||| late) ++
  leBytes 1 m.flags.toNat ++ leBytes 1 m.replays ++
  leBytes 1 ((if m.promised then 1 else 0) + (if m.hedges.isEmpty then 0 else 2) + 4 * m.version) ++
  leBytes 2 (if exc then m.excRank else 0) ++ leBytes 8 m.firstBeat ++ leBytes 8 m.lastBeat ++ leBytes 8 energy ++
  leBytes 8 m.tokens ++ leBytes 4 m.iter ++ leBytes 4 (if exc then m.excPc else 0) ++ leBytes 4 (m.booked / 64) ++
  leBytes 1 (if exc then m.excCore else 0) ++ leBytes 3 0

/-- Add to a 64-bit energy register. -/
def State.addEnergy (s : State) (off : Nat) (e : Word) : State := s.setReg off (s.reg off + e)

/-- The manifest's energy, which the specification gives by measurement alone, is accounted (R482). -/
def State.accountEnergy (s : State) (m : Manifest) (e : Word) : State :=
  State.addEnergy (State.addEnergy (s.addEnergy (R_PWR_TAG + 8 * (m.energyTag % 64)) e) (R_PWR_BERTH_ENERGY + 8 * m.berth.val) e)
    R_PWR_ENERGY_DEVICE e

/-- Statuses after which SIGNAL_EVENT is incremented. -/
def signals (status : Nat) : Bool := status == stOk || status == stStop || status == stLimit || status == stDeadline

/-- SIGNAL_EVENT: incremented with a release at system scope, or marked abandoned. -/
def State.signalNow (s : State) (m : Manifest) (status : Nat) : State :=
  match s.eventEntry m.signalEvent with
  | none => s
  | some e =>
    if signals status then
      match s.trouble e.place 8 true with
      | some (.misuse r) => s.misuse r
      | some _ => s
      | none => match s.wordAdd e.place 1 with
        | (s1, none) => s1
        | (s1, some line) =>
          State.listUe (s1.addFault { FaultEntry.ofManifest (memFault 1 ((addrPart line).map (fun (p : PartId) => p.val)) line) m with
            flags := 0 }) line
    else (s.abandonEntry e).wakeAbandoned

/-- The ledger lies in host memory: while the link is down the signal is held behind the completion record (R347, R442). -/
def State.signal (s : State) (m : Manifest) (status : Nat) : State :=
  if s.hostUp then s.signalNow m status else { s with hostHeld := s.hostHeld ++ [.signal m status] }

/-- Whether the completion ring of a queue is full as CONSUMED was last read. -/
def QueueSt.cringFull (x : QueueSt) : Bool := decide (2 ^ x.cringLog2 ≤ x.cringProduced - x.cringConsumed)

/-- The device reads CRING_CONSUMED, where the link is up. -/
def State.readCringConsumed (s : State) (b : BerthId) (q : QueueId) : State :=
  if s.hostUp then s.updQueue b q (fun x => { x with cringConsumed := s.hostNat ((s.berth b).record + 0x78 + 64 * q.val) 8 }) else s

/-- Whether the event a manifest signals lies in a partition that is Resetting, so that completion waits. -/
def State.signalWaits (s : State) (m : Manifest) (status : Nat) : Bool :=
  signals status && (match s.eventEntry m.signalEvent with
    | some e => s.trouble e.place 8 true == some .resetting
    | none => false)

/-- Write a completion record and what follows it: the count, the vector, the event, and PARTNER to the other copies.
DEDUCED (log entry 80, unsafe). -/
def State.complete (s : State) (m : Manifest) (status detail : Nat) : State :=
  let x := (s.berth m.berth).queue m.queue
  let e := Config.energyUj s.free
  let s := State.accountEnergy s.tick m e
  let s := s.publish (x.cringBase + 64 * (x.cringProduced % 2 ^ x.cringLog2)) (completionRecord m status detail s.beat e.toNat) []
  let s := s.updQueue m.berth m.queue (fun x => { x with cringProduced := x.cringProduced + 1 })
  let vectors := if s.regBit (berthReg m.berth.val) 31 then [16 + m.berth.val] else []
  let s := s.publish ((s.berth m.berth).record + 0x70 + 64 * m.queue.val) (leBytes 8 (x.cringProduced + 1)) vectors
  let s := s.updManifest m.id (fun m => { m with phase := .recorded, energy := e.toNat })
  let s := s.signal m status
  if status = stOk then s else s.sendPartner m status

/-- A manifest that has ended completes, unless the ring is full or earlier records of its queue wait: it then waits behind
them (R348). -/
def State.tryComplete (s : State) (m : Manifest) (status detail : Nat) : State :=
  let s := if ((s.berth m.berth).queue m.queue).cringFull then s.readCringConsumed m.berth m.queue else s
  let x := (s.berth m.berth).queue m.queue
  if x.cringFull || !x.waiting.isEmpty then
    s.updQueue m.berth m.queue (fun x => { x with waiting := if x.waiting.contains m.id then x.waiting else x.waiting ++ [m.id] })
  else s.complete m status detail

/-- MANIFEST_COMPLETE. -/
def execManifestComplete (manifest : Nat) (s : State) : Answer :=
  whenChecked (fun s => match s.manifest? manifest with
    | none => s
    | some m => match m.phase with
      | .ending st dt => if s.signalWaits m st then s else s.tryComplete m st dt
      | _ => s) s

/-- Records that wait are written in order while the ring has room. -/
def State.drainRecords : Nat → State → BerthId → QueueId → State
  | 0, s, _, _ => s
  | fuel + 1, s, b, q =>
    let x := (s.berth b).queue q
    match x.waiting with
    | [] => s
    | id :: rest =>
      if x.cringFull then s
      else match s.manifest? id with
        | none => State.drainRecords fuel (s.updQueue b q (fun x => { x with waiting := rest })) b q
        | some m => match m.phase with
          | .ending st dt =>
            State.drainRecords fuel (State.complete (s.updQueue b q (fun x => { x with waiting := rest })) m st dt) b q
          | _ => State.drainRecords fuel (s.updQueue b q (fun x => { x with waiting := rest })) b q

/-- CRING_POLL: CRING_CONSUMED is read again. -/
def execCringPoll (berth : BerthId) (queue : QueueId) (s : State) : Answer :=
  whenChecked (fun s =>
    let x := (s.berth berth).queue queue
    if x.waiting.isEmpty ∨ !s.hostUp then s
    else State.drainRecords (x.waiting.length + 1) (s.readCringConsumed berth queue) berth queue) s

/-- One count is returned, once the completion record is written (R327); while the link is down it is held. -/
def State.giveBack (s : State) (t : Lane) : State :=
  if s.hostUp then s.returnTicket t else { s with hostHeld := s.hostHeld ++ [.count t] }

/-- A manifest retires: its counts are returned, and its booking with it (R327, R347, R362). -/
def State.retireManifest (s : State) (m : Manifest) : State :=
  let s1 := m.bound.foldl State.giveBack s
  let s2 : State := { s1 with
    manifests := s1.manifests.filter (fun x => x.id != m.id)
    moves := s1.moves.filter (fun v => v.manifest != m.id)
    colls := s1.colls.filter (fun l => l.manifest != m.id) }
  State.leaveChecks s2.holdFloor

/-- MANIFEST_RETIRE: once the record is written, and the trailing work of a hedged manifest has ended. -/
def execManifestRetire (manifest : Nat) (s : State) : Answer :=
  whenOn (fun s => match s.manifest? manifest with
    | none => s
    | some m => if m.phase = .recorded ∧ m.trailersDone then s.retireManifest m else s) s

/-! ## Replay (R240, R258, R366, R532) -/

/-- Restore a step record: its first four lines whole and the last sixteen bytes by a partial write; the line, where the read of the
partial line failed. -/
def State.restoreStep (s : State) (r : RunRec) (bs : List Byte) : State × Option Nat :=
  [(0, 64), (64, 64), (128, 64), (192, 64), (256, 16)].foldl (fun acc (p : Nat × Nat) =>
    match runPlaceAt r.stepPlaces p.1 with
    | some q => match acc.1.placeWrite q ((bs.drop p.1).take p.2) with
      | (s1, none) => (s1, acc.2)
      | (s1, some line) => (s1, some line)
    | none => acc) (s, none)

/-- Whether a listed line holds a replay: while UE_HOLD is 1 (R258). -/
def State.replayHeld (s : State) (m : Manifest) : Bool := !m.heldLines.isEmpty && s.regBit R_MEM_CTRL 0

/-- The manifest is issued again under its booking. -/
def State.reissue (s : State) (id : Nat) : State :=
  s.updManifest id (fun m => { m with phase := .admitted, replays := m.replays + 1, heldLines := [] })

/-- REPLAY_REISSUE: no listed line holds the replay; a running manifest's step record is restored first. -/
def execReplayReissue (manifest : Nat) (s : State) : Answer :=
  whenChecked (fun s => match s.manifest? manifest with
    | none => s
    | some m =>
      if m.phase ≠ .abandoned ∨ s.replayHeld m then s
      else match m.runRec, m.step with
        | some r, some st => match s.stepTrouble r true with
          | some t => s.stepBarred m.id t
          | none =>
            if !st.readable then s.endManifest m.id stFault 0
            else match s.restoreStep r st.bytes with
              | (s1, none) => s1.reissue m.id
              | (s1, some line) => (s1.noteUe m line).endManifest m.id stFault 0
        | some _, none => s.endManifest m.id stFault 0
        | none, _ => s.reissue m.id) s

end Sys2Proof.Machine
end

