-- ==== Sys2Proof/Machine/Links.lean ====
section
/-! DEFINITION. The optical ports: enabling, training and lasers; associations, their advance, and the acceptance of protected
frames; transport streams; forwarding, counters and IEEE 1588 (R389 to R407, R424, R425, R501, R502, R565). -/

namespace Sys2Proof.Machine

/-! ## Ports (R389, R391, R404) -/

def portCtrl (p : Nat) : Nat := R_LNK_PORT_CTRL + 0x100 * p
def portStatus (p : Nat) : Nat := R_LNK_PORT_STATUS + 0x100 * p

def State.portEnabled (s : State) (p : Nat) : Bool := s.regBit (portCtrl p) 0
def State.portTraining (s : State) (p : Nat) : Bool := s.regBit (portStatus p) 0
def State.laserOk (s : State) (p : Nat) : Bool := s.regBit (portStatus p) 31
def State.laneFailed (s : State) (p n : Nat) : Bool := s.regBit (portStatus p) (16 + n)

/-- Lanes of each interface of a port (R389). -/
def State.lanesPer (s : State) (p : Nat) : Nat := 8 / s.portIfs p

/-- Whether some lane of an interface has failed training. -/
def State.ifFailed (s : State) (p i : Nat) : Bool :=
  (List.range (s.lanesPer p)).any (fun n => s.laneFailed p (i * s.lanesPer p + n))

/-- Power limits of the laser input in 0.01 dBm (R565). -/
def laserLow : Int := 1600
def laserGood : Int := 1650
def State.laserPower (s : State) (p : Nat) : Int := (BitVec.ofNat 16 (s.regField (R_LNK_LASER_PWR + 0x100 * p) 15 0)).toInt

/-- Every interface of a port goes down; frames on it are lost (R391). -/
def State.portDown (s : State) (p : Nat) : State := (s.setRegField (portStatus p) 15 8 0).setRegField (portStatus p) 0 0 0

/-- Training begins: no lane has failed yet and no interface is up (R391). -/
def State.portTrain (s : State) (p : Nat) : State :=
  ((s.setRegField (portStatus p) 23 16 0).setRegField (portStatus p) 15 8 0).setRegField (portStatus p) 0 0 1

/-- TRAINING clears once every interface is up or contains a failed lane. -/
def State.trainCheck (s : State) (p : Nat) : State :=
  if (List.range (s.portIfs p)).all (fun i => s.ifUp p i || s.ifFailed p i) then s.setRegField (portStatus p) 0 0 0 else s

/-- A write of LNK_PORT_CTRL while the port is enabled that changes MODE or GEN is ignored (R391). -/
def portIgnored (old value : Nat) : Bool := bitAt old 0 && bits old 3 1 != bits value 3 1

/-- ENABLE changes from 0 to 1: the port reads MODE, GEN, ETHERTYPE and UDP_PORT and starts training; the monitored laser power
then shows in LASER_OK (R391, R407). DEDUCED (log entry 47, unsafe). -/
def State.enablePort (s : State) (p : Nat) : State :=
  let s1 := s.setPort p ⟨s.regField (portCtrl p) 2 1, s.regField (portCtrl p) 3 3,
    BitVec.ofNat 16 (s.regField R_LNK_GLOBAL 31 16), BitVec.ofNat 16 (s.regField R_LNK_GLOBAL 15 0)⟩
  State.portTrain (if laserGood ≤ s1.laserPower p then s1.setRegField (portStatus p) 31 31 1 else s1) p

/-- PORT_ENABLE: a write of LNK_PORT_CTRL that changes ENABLE. -/
def execPortEnable (port : Fin 4) (value : Lane) (s : State) : Answer :=
  hostWrite (portCtrl port.val) (fun s =>
    let p := port.val
    let old := (s.reg (portCtrl p)).toNat
    if bitAt old 0 = value.getLsbD 0 then s
    else if portIgnored old value.toNat then s.setRegField (portStatus p) 30 30 1
    else
      let s1 := s.setRegField (portCtrl p) 3 0 (bits value.toNat 3 0)
      if value.getLsbD 0 then s1.enablePort p else s1.portDown p) s

/-- PORT_TRAINED: an interface whose lanes have all trained comes up; the first marks the beat discovery counts from. -/
def execPortTrained (port : Fin 4) (iface : Fin 8) (s : State) : Answer :=
  whenOn (fun s =>
    let p := port.val
    let i := iface.val
    if !s.portTraining p || !s.laserOk p || decide (s.portIfs p ≤ i) || s.ifFailed p i || s.ifUp p i then s
    else
      let s1 := s.setRegField (portStatus p) (8 + i) (8 + i) 1
      let s2 := s1.trainCheck p
      { s2 with discovery := { s2.discovery with trainedAt := match s2.discovery.trainedAt with
          | some t => some t
          | none => some s.beat } }) s

/-- LANE_TRAINING_TIMEOUT: a lane not trained in 500 ms; its interface stays down. -/
def execLaneTrainingTimeout (port : Fin 4) (lane : Fin 8) (s : State) : Answer :=
  whenOn (fun s =>
    let p := port.val
    if !s.portTraining p || s.ifUp p (lane.val / s.lanesPer p) then s
    else State.trainCheck (s.setRegField (portStatus p) (16 + lane.val) (16 + lane.val) 1) p) s

/-- The engine's monitor reads a laser power. -/
def State.showLaser (s : State) (p : Nat) (power : BitVec 16) : State :=
  s.setRegField (R_LNK_LASER_PWR + 0x100 * p) 15 0 power.toNat

/-- An entry of source LINK; ADDR is a landing number where one applies (R516, R517). -/
def State.linkFault (s : State) (reason : Nat) (l : Landing) : State :=
  s.addFault { FaultEntry.bare 7 reason with addr := l.setWidth 64 }

/-- LASER_LOSS: the power falls below 16.0 dBm; it has not fallen where it was below already. -/
def execLaserLoss (port : Fin 4) (power : BitVec 16) (s : State) : Answer :=
  whenOn (fun s =>
    let p := port.val
    if laserLow ≤ power.toInt then s
    else
      let s1 := s.showLaser p power
      if !s.laserOk p && decide (s.laserPower p < laserLow) then s1
      else
        let s2 := State.portDown (s1.setRegField (portStatus p) 31 31 0) p
        State.linkFault { s2 with alerts := s2.alerts ||| ((1 : BitVec 16) <<< (2 + p)) } 4 0) s

/-- LASER_RESTORE: the power is 16.5 dBm or above again; an enabled port retrains. -/
def execLaserRestore (port : Fin 4) (power : BitVec 16) (s : State) : Answer :=
  whenOn (fun s =>
    let p := port.val
    if power.toInt < laserGood then s
    else
      let s1 := s.showLaser p power
      if !s1.portEnabled p || s1.laserOk p then s1
      else State.portTrain (s1.setRegField (portStatus p) 31 31 1) p) s

/-! ## Counters, discarding and forwarding (R393, R395, R397, R407, R412) -/

/-- LNK_COUNT_READ: a counter in the order LNK_FEC_CW, FEC_UCW, RX_DROP, AUTH_FAIL, OLDAN_DROP. -/
def execLnkCountRead (port : Fin 4) (counter : Fin 5) (s : State) : Answer :=
  hostReadClear (R_LNK_FEC_CW + 0x100 * port.val + 4 * counter.val) s

/-- The types of R422 that are not reserved. -/
def frameTypes : List Nat :=
  [tyCount, tyClaim, tyDefend, tyHello, tyWrite, tyRead, tyRdata, tyAtomic, tyWack, tySack, tyRequest, tyPropose, tyVote, tyCommit,
    tyAbort, tyReply, tySync, tyOffer, tyTake, tyAck, tyDone, tyRefuse, tyReport, tyDecide, tyGrant, tyPartner]

/-- FRAME_DISCARDED: an uncorrectable codeword is counted before any other check; a frame that the interface does not take counts
in LNK_RX_DROP, as one of another VERSION or a reserved TYPE does (R393, R397, R421, R422). What another row takes is that
row's. -/
def execFrameDiscarded (arr : Arrival) (frame : Discarded) (s : State) : Answer :=
  whenOn (fun s =>
    if frame.uncorrectable then
      (if s.ifUp arr.port.val arr.iface.val then (s.countCorrected arr).countLink arr.port.val ctrFecUcw else s)
    else if isPtp arr then (s.receive arr true).1
    else (s.receive arr (s.takes arr && frame.version == 1 && frameTypes.contains frame.type.toNat)).1) s

/-- Whether a broadcast of another type has been seen within 2 ms; if not it is noted (R412). -/
def State.sawBroadcast (s : State) (src : Landing) (seq : Lane) : State × Bool :=
  let recent := s.discovery.broadcasts.filter (fun b => decide (s.beat < b.beat + 2000000))
  if recent.any (fun b => b.src == src && b.seq == seq) then (s, true)
  else ({ s with discovery := { s.discovery with broadcasts := recent ++ [⟨src, seq, s.beat⟩] } }, false)

/-- Whether a frame is one of discovery, whose broadcasts have rows of their own (R422). -/
def isDiscovery (f : Frame) : Bool := decide (1 ≤ f.type.toNat) && decide (f.type.toNat ≤ 3)

/-- FRAME_FORWARD: a unicast frame for another device leaves by the route's interface, or is dropped where no valid route
exists (R395); a broadcast not yet seen goes out with one hop less on every other interface (R412). A frame for this device is
another row's. An unnumbered or duplicate device sends on discovery frames alone (R408, R411). -/
def execFrameForward (link : LinkEnd) (env : Envelope) (frame : Frame) (s : State) : Answer :=
  let arr : Arrival := ⟨link, env⟩
  whenOn (fun s => match s.receive arr (s.takes arr) with
    | (s1, false) => s1
    | (s1, true) =>
      if frame.dst = s1.landing ∨ !(s1.sendsAll || isDiscovery frame) then s1
      else if frame.dst = broadcast then
        (if isDiscovery frame then s1
        else match s1.sawBroadcast frame.src frame.seq with
          | (s2, true) => s2
          | (s2, false) =>
            if frame.hops = 0 then s2
            else ((List.range 32).filter (fun k => s2.ifUp (k / 8) (k % 8) && k != 8 * arr.port.val + arr.iface.val)).foldl
              (fun s k => s.emit (.forward (k / 8) (k % 8) { frame with hops := frame.hops - 1 })) s2)
      else match s1.egress? frame.dst with
        | some e => s1.emit (.forward e.1 e.2 frame)
        | none => s1.countLink arr.port.val ctrRxDrop) s

/-- NEIGHBOUR_SOLICITATION: answered for the interface's own address; any other is discarded and counted (R397). -/
def execNeighbourSolicitation (link : LinkEnd) (env : Envelope) (target : BitVec 128) (s : State) : Answer :=
  let arr : Arrival := ⟨link, env⟩
  whenOn (fun s => match s.receive arr (target == s.ip6 arr.port.val arr.iface.val) with
    | (s1, true) => s1.emit (.neighbourAdvert arr.port.val arr.iface.val)
    | (s1, false) => s1) s

/-! ## Peers (R501, R403, R395) -/

/-- A fresh association 0. -/
def Assoc.fresh : Assoc := ⟨0, ⟨0, []⟩, []⟩

/-- A route to a device that a frame has told of, unless one is known (R395). -/
def State.noteRoute (s : State) (l : Landing) (port iface hops : Nat) : State :=
  if l = 0 ∨ l = broadcast ∨ l = s.landing then s
  else match mapGet none s.routes l.toNat with
    | some _ => s
    | none => { s with routes := mapPut none s.routes l.toNat (some ⟨port, iface, hops⟩) }

/-- A peer is first heard from: with the fabric secret installed and a landing number, association 0 is installed with it
(R501). A protected frame does not tell how far it came, so a route first learnt from one has a free number of hops.
DEDUCED (log entry 49, unsafe). -/
def State.meet (s : State) (l : Landing) (mac : BitVec 48) (port iface : Nat) : State :=
  if s.key.fabric.isNone ∨ s.landing = 0 ∨ l = 0 ∨ l = s.landing ∨ l = broadcast then s
  else
    let s1 := s.tick.noteRoute l port iface (if Config.choice s.free then 1 else 2 + Config.farHops s.free % 254)
    let adj := match mapGet none s1.routes l.toNat with
      | some r => r.hops == 1
      | none => false
    match s1.peer? l with
    | some p => if p.assoc.isSome then s else s1.updPeer l (fun p =>
        { p with assoc := some Assoc.fresh, live := true, lastHeard := s.beat, port := port, iface := iface })
    | none => { s1 with peers := s1.peers ++ [{ Peer.fresh l mac port iface with
        adjacent := adj, live := true, lastHeard := s.beat, assoc := some Assoc.fresh }] }

/-- Hops of the route to a peer. -/
def State.hopsTo (s : State) (l : Landing) : Nat := match mapGet none s.routes l.toNat with
  | some r => r.hops
  | none => 0

/-- A peer's entry of the link-latency table: LNK_PEER_DELAY plus the ARB_BOUND of every egress interface on the route
(R420). -/
def State.latencyTo (s : State) (l : Landing) : Nat :=
  match mapGet none s.routes l.toNat with
  | some r => s.delayTo l + s.arbBound (0x140 + 8 * r.port + r.iface) + (if 1 < r.hops then Config.farBound s.free else 0)
  | none => 0

/-! ## Accepting a protected frame (R398, R399, R422, R501) -/

/-- Whether a packet number passes the replay check: above the highest accepted, or within 65,536 of it and not yet seen. -/
def RxWin.fresh (w : RxWin) (pn : Nat) : Bool :=
  decide (0 < pn) && (decide (w.high < pn) || (decide (w.high < pn + 65536) && !w.seen.contains pn))

/-- Record an accepted packet number. -/
def RxWin.take (w : RxWin) (pn : Nat) : RxWin :=
  let h := max w.high pn
  ⟨h, (pn :: w.seen).filter (fun x => decide (h < x + 65536))⟩

/-- Which association a received frame names. -/
inductive RxAssoc where
  | current
  | old
  | deleted
  | none
  deriving DecidableEq, Repr

/-- The association before the one in use that an AN names. -/
def Assoc.oldOf (a : Assoc) (an : Fin 4) : Option OldAssoc := a.olds.find? (fun o => o.counter % 4 == an.val)

def Assoc.names (a : Assoc) (beat : Nat) (an : Fin 4) : RxAssoc :=
  if an.val = a.an then .current
  else match a.oldOf an with
    | some o => (match o.expires with
      | some t => if beat < t then .old else .none
      | none => .deleted)
    | none => .none

/-- Change the window of the old association an AN names. -/
def Assoc.takeOld (a : Assoc) (an : Fin 4) (pn : Nat) : Assoc :=
  { a with olds := a.olds.map (fun o => if some o = a.oldOf an then { o with win := o.win.take pn } else o) }

/-- The link flow authentication check fails: the frame is counted and the flow frozen (R399, R507). -/
def State.authFail (s : State) (p : Nat) (l : Landing) : State :=
  State.violation (State.updPeer (s.countLink p ctrAuthFail) l (fun x => { x with frozen := true }))
    { FaultEntry.bare 8 4 with flags := 4, addr := l.setWidth 64 }

/-- Frame types that carry a stream sequence number (R422). -/
def sequencedType (ty : Nat) : Bool := decide (0x10 ≤ ty) && ty != 0x15

/-- A frame with no valid association is discarded; a sequenced type counts (R398, R422). -/
def State.noAssoc (s : State) (p ty : Nat) : State := if sequencedType ty then s.countLink p ctrRxDrop else s

/-- Whether the device accepts a protected frame that the interface takes, and the state after the check: the arrival refreshes
the peer (R413). -/
def State.authentic (s : State) (rx : Rx) (ty : Nat) : State × Bool :=
  let p := rx.port.val
  if s.discState = discDuplicate then (s, false)
  else match s.peer? rx.src with
    | none => (s.noAssoc p ty, false)
    | some x =>
      match x.assoc with
      | none => (s.noAssoc p ty, false)
      | some a =>
        if x.frozen then (s, false)
        else
          let good (w : RxWin) : Bool := rx.icvOk && w.fresh rx.pn.toNat
          let heard (s : State) (f : Assoc → Assoc) : State :=
            s.updPeer rx.src (fun x => { x with lastHeard := s.beat, assoc := x.assoc.map f })
          match a.names s.beat rx.an with
          | .current =>
            if good a.win then (heard s (fun a => { a with win := a.win.take rx.pn.toNat }), true) else (s.authFail p rx.src, false)
          | .old =>
            if (a.oldOf rx.an).any (fun o => good o.win) then (heard s (fun a => a.takeOld rx.an rx.pn.toNat), true)
            else (s.authFail p rx.src, false)
          | .deleted => (s.countLink p ctrOldAn, false)
          | .none => (s.noAssoc p ty, false)

/-- Whether the device accepts a protected frame, and the state after every check of its arrival (R393, R397 to R399). -/
def State.accept (s : State) (rx : Rx) (ty : Nat) : State × Bool :=
  match s.receive rx.toArrival (s.takes rx.toArrival) with
  | (s1, false) => (s1, false)
  | (s1, true) => s1.authentic rx ty

/-! ## The reliable transport (R424, R425) -/

/-- Whether a sequence number is at or above another, modulo 2^32. -/
def seqGe (a b : Lane) : Bool := decide ((a - b).toNat < 2 ^ 31)

/-- Whether a peer's frame has arrived before. -/
def Peer.hasSeq (p : Peer) (q : Lane) : Bool := !seqGe q p.rxCum || p.rxAhead.contains q

/-- CUM moves past the frames that have arrived in a row. -/
def sweep : Nat → Lane → List Lane → Lane × List Lane
  | 0, cum, ahead => (cum, ahead)
  | fuel + 1, cum, ahead => if ahead.contains cum then sweep fuel (cum + 1) (ahead.filter (· != cum)) else (cum, ahead)

/-- A frame has arrived; it is to be acknowledged. -/
def Peer.arrive (p : Peer) (q : Lane) (beat : Nat) : Peer :=
  let (cum, ahead) := if p.hasSeq q then (p.rxCum, p.rxAhead) else sweep (p.rxAhead.length + 1) p.rxCum (q :: p.rxAhead)
  { p with
    rxCum := cum
    rxAhead := ahead
    rxUnacked := p.rxUnacked + 1
    rxSince := match p.rxSince with
      | some t => some t
      | none => some beat }

/-- Send SACK for everything that has arrived. -/
def State.sendSack (s : State) (l : Landing) : State :=
  match s.peer? l with
  | none => s
  | some p =>
    let bitmap := (List.range 64).foldl (fun b i => if p.rxAhead.contains (p.rxCum + 1 + BitVec.ofNat 32 i) then b + 2 ^ i else b) 0
    let s1 := s.sendUnseq l tySack (leBytes 4 p.rxCum.toNat ++ leBytes 8 bitmap)
    s1.updPeer l (fun p => { p with rxUnacked := 0, rxSince := none })

/-- The receiving side of a stream starts afresh: its count, and the writes held for frames of the count before (R425). -/
def State.restartRx (s : State) (l : Landing) : State :=
  State.dropHeld (s.updPeer l (fun p => { p with rxCum := 0, rxAhead := [], rxUnacked := 0, rxSince := none, mstreams := [], refusals := [] }))
    (fun h => h.fromDevice != some l)

/-- A frame that is no retransmission, under a number that has arrived: the sender counts from 0 again (R424, R425).
DESIGN CHOICE (log entry 111, unsafe). -/
def State.restarted (s : State) (rx : Rx) : Bool := !rx.retx && (match s.peer? rx.src with
  | some p => p.hasSeq rx.seq
  | none => false)

/-- An accepted frame of a sequenced type takes its place in the stream: what remains is whether it is to be performed, being no
repeat. The sixteenth frame not yet acknowledged is answered at once. -/
def State.takeSeq (s : State) (rx : Rx) : State × Bool :=
  let s1 := if s.restarted rx then s.restartRx rx.src else s
  let isNew := match s1.peer? rx.src with
    | some p => !p.hasSeq rx.seq
    | none => false
  let s2 := s1.updPeer rx.src (fun p => p.arrive rx.seq s1.beat)
  let s3 := match s2.peer? rx.src with
    | some p => if 16 ≤ p.rxUnacked then s2.sendSack rx.src else s2
    | none => s2
  (s3, isNew)

/-- A sequenced frame is accepted, and is to be performed unless it is a repeat. -/
def State.acceptSeq (s : State) (rx : Rx) (ty : Nat) : State × Bool :=
  match s.accept rx ty with
  | (s1, false) => (s1, false)
  | (s1, true) => s1.takeSeq rx

/-- Whether a collective under way has a participant on a device. -/
def State.collOn (s : State) (l : Coll) (d : Landing) : Bool :=
  !l.team && (match s.manifest? l.manifest with
    | none => false
    | some m => match s.vdev? m.vdev with
      | none => false
      | some v => v.members.any (fun x => decide (m.rankBase ≤ x.rank) && decide (x.rank < m.rankBase + m.rankCount) &&
          (match x.host with
           | some h => h.1 == d
           | none => false)))

/-- The jobs a stream's reset strikes: movements with an unacknowledged frame or an outstanding WACK or RDATA on it, and
collectives that wait for the device; of a collective whose sources have all arrived the state of its frames is free. -/
def State.streamVictims (s : State) (l : Landing) : List (Nat × CoreId) :=
  ((s.moves.filter (fun m => m.readsOut.any (fun r => r.1 == l) || mapGet 0 m.writesOut l.toNat != 0)).map
    (fun m => (m.manifest, m.core))) ++
  (s.colls.filter (fun c => s.collOn c l && (c.sources.isNone || Config.choice s.free))).flatMap (fun c =>
    (c.parts.filter (fun p => !c.retired.contains p.core)).map (fun p => (c.manifest, p.core)))

/-- A transport stream resets (R425): frames are discarded, SEQ starts from 0, and what used the stream is squashed. `both`
where the device at the other end starts afresh too. -/
def State.resetStream (s : State) (l : Landing) (both : Bool) : State :=
  let victims := s.streamVictims l
  let s1 := s.tick.updPeer l (fun p =>
    { p with txNext := 0, txUnacked := [], txOrds := [] })
  let s2 : State := if both then s1.restartRx l else s1
  let s3 : State := { s2 with moves := s2.moves.filter (fun m =>
    !(m.readsOut.any (fun r => r.1 == l) || mapGet 0 m.writesOut l.toNat != 0)) }
  s3.moverFaults (victims.map (fun v => (v.1, v.2, 2)))

/-- SACK_TIMER: 2 µs after the first frame not yet acknowledged. DESIGN CHOICE (log entry 86, safe). -/
def execSackTimer (peer : Landing) (s : State) : Answer :=
  whenOn (fun s => match s.peer? peer with
    | some p => if 0 < p.rxUnacked then s.sendSack peer else s
    | none => s) s

/-- Frames that waited for room or for a packet number are sent. -/
def State.sendWaiting (s : State) (l : Landing) : State :=
  match s.peer? l with
  | none => s
  | some p => (p.txUnacked.filter (fun t => !t.sent)).foldl (fun s t =>
      match s.peer? l with
      | none => s
      | some q =>
        if (q.txUnacked.filter (·.sent)).length < 4096 && q.canTx then
          State.transmit (s.updPeer l (fun x => { x.countTx with
            txUnacked := x.txUnacked.map (fun u => if u.seq = t.seq then { u with sent := true, sentAt := s.beat } else u) })) l t.frame
        else s) s

/-- SACK: frames below CUM and those the bitmap names are acknowledged; waiting frames go out. -/
def execSack (rx : Rx) (cum : Lane) (bitmap : Word) (s : State) : Answer :=
  whenOn (fun s => match s.accept rx tySack with
    | (s1, false) => s1
    | (s1, true) =>
      let acked (q : Lane) : Bool := !seqGe q cum || (let d := (q - cum - 1).toNat; decide (d < 64) && bitmap.getLsbD d)
      let s2 := s1.updPeer rx.src (fun p => { p with txUnacked := p.txUnacked.filter (fun t => !(t.sent && acked t.seq)) })
      s2.sendWaiting rx.src) s

/-- The beats after which an unacknowledged frame is sent again. -/
def State.retransmitAfter (s : State) (l : Landing) : Nat := 2 * s.delayTo l + 5000

/-- RETRANSMIT_TIMER: an unacknowledged frame is sent again with RETX, once a route is available (R405); the eighth unacknowledged
retransmission resets the stream (R424, R425). DEDUCED (log entry 50, unsafe). -/
def execRetransmitTimer (peer : Landing) (seq : Lane) (s : State) : Answer :=
  whenOn (fun s => match s.peer? peer with
    | none => s
    | some p => match p.txUnacked.find? (fun t => t.sent && t.seq == seq) with
      | none => s
      | some t =>
        if s.beat < t.sentAt + s.retransmitAfter peer ∨ !p.canTx ∨ (s.egress? peer).isNone then s
        else if 8 ≤ t.retries then s.resetStream peer false
        else
          let f := { t.frame with flags := t.frame.flags ||| 2 }
          State.transmit (s.updPeer peer (fun x => { x.countTx with
            txUnacked := x.txUnacked.map (fun u => if u.seq = seq then { u with frame := f, sentAt := s.beat, retries := u.retries + 1 } else u) }))
            peer f) s

/-! ## Key association advance (R400, R405, R501, R502) -/

/-- The next association with a peer: the old one is accepted for 1 ms after a soft advance; a hard one deletes it, with any other
still accepted, and resets the stream. Of the ANs only those other than the new one can name an old association. Frames that
waited for a packet number go out. DEDUCED (log entry 98, unsafe). -/
def State.advanceAssoc (s : State) (l : Landing) (hard : Bool) : State :=
  let s1 := s.updPeer l (fun p => { p with assoc := p.assoc.map (fun a =>
    { counter := (a.counter + 1) % 2 ^ 32
      win := ⟨0, []⟩
      olds := (if hard then ⟨a.counter, a.win, none⟩ :: a.olds.map (fun o => { o with expires := none })
        else ⟨a.counter, a.win, some (s.beat + 1000000)⟩ :: a.olds).take 3 }) })
  if hard then s1.resetStream l true else s1.sendWaiting l

/-- The peers an advance names that have an association. -/
def State.advanceNames (s : State) (l : Landing) : List Landing :=
  (s.peers.filter (fun p => p.assoc.isSome && (l == broadcast || p.landing == l))).map (·.landing)

/-- Start an advance with some peers. It completes at once where none is named. -/
def State.startAdvance (s : State) (ls : List Landing) (hard auto : Bool) : State :=
  let lat := (ls.map s.latencyTo).foldl max 0
  let s1 := ls.foldl (fun s l => s.advanceAssoc l hard) s.tick
  if ls.isEmpty then s1.setRegField R_LNK_SA_STATUS 15 0 0
  else State.setRegField { s1 with saPending := some ⟨hard, auto, s.beat, s.beat + 2 * lat + 50000, ls⟩ } R_LNK_SA_STATUS 31 31 1

/-! Steps 1 to 3 of tenant removal (R511) as KeySt.removal counts them: 1 its work is ending, 2 the hard advance is pending,
3 the wait of twice Lmax. -/

/-- A pending soft advance that started by itself becomes the hard advance that falls together with it (R405). -/
def State.hardenAdvance (s : State) (ls : List Landing) : State :=
  match s.saPending with
  | some a => ls.foldl (fun s l =>
      if a.peers.contains l then
        State.resetStream (s.updPeer l (fun p => { p with assoc := p.assoc.map (fun x =>
          { x with olds := x.olds.map (fun o => { o with expires := none }) }) })) l true
      else s.advanceAssoc l true)
      { s with saPending := some { a with hard := true, peers := (a.peers ++ ls).eraseDups } }
  | none => s

/-- Step 1 is complete once no instance command, manifest or berth remains; the hard advance with every associated peer then
starts, one with a pending automatic advance (R405), and with no peer the wait begins at once. A commanded advance is waited
for. -/
def State.removalCheck (s : State) : State :=
  let auto := match s.saPending with
    | some a => a.auto && !a.hard
    | none => false
  if s.key.removal ≠ 1 ∨ !s.instCmds.isEmpty ∨ !s.manifests.isEmpty ∨ allBerths.any (fun b => (s.berth b).state != .empty) ∨
      (s.saPending.isSome ∧ !auto) then s
  else
    let ls := s.advanceNames broadcast
    let t := if auto then s.hardenAdvance ls else s.startAdvance ls true false
    if t.saPending.isSome then { t with key := { t.key with removal := 2 } }
    else { t with key := { t.key with removal := 3, removalWaitFrom := t.beat } }

/-- A pending advance completes; peers that have not confirmed are counted. Tenant removal goes on. -/
def State.endAdvance (s : State) (missing : Nat) : State :=
  let t := State.setRegField (State.setRegField { s with saPending := none } R_LNK_SA_STATUS 31 31 0) R_LNK_SA_STATUS 15 0 missing
  if t.key.removal = 2 then { t with key := { t.key with removal := 3, removalWaitFrom := t.beat } } else t.removalCheck

/-- A write of LNK_SA_ADVANCE. -/
def saWrite (value : Lane) (hard : Bool) (s : State) : State :=
  let ls := s.advanceNames (BitVec.ofNat 16 (bits value.toNat 15 0))
  if !value.getLsbD 31 ∨ value.getLsbD 30 ≠ hard then s
  else match s.saPending with
    | some a =>
      if hard && a.auto && !a.hard && a.start == s.beat then s.hardenAdvance ls else s.setRegField R_LNK_SA_STATUS 30 30 1
    | none => s.startAdvance ls hard false

def execSoftAdvance (value : Lane) (s : State) : Answer := hostWrite R_LNK_SA_ADVANCE (saWrite value false) s
def execHardAdvance (value : Lane) (s : State) : Answer := hostWrite R_LNK_SA_ADVANCE (saWrite value true) s

/-- PN_THRESHOLD: bits [31:0] of the packet number in use reach 0xC000_0000 and a soft advance starts, unless an advance is
pending. -/
def execPnThreshold (peer : Landing) (s : State) : Answer :=
  whenOn (fun s => match s.peer? peer with
    | some p => if p.assoc.isSome ∧ 0xC0000000 ≤ p.pnUsed ∧ s.saPending.isNone then s.startAdvance [peer] false true else s
    | none => s) s

/-- ADVANCE_CONFIRMED: a named peer confirms; PENDING clears with the last. -/
def execAdvanceConfirmed (peer : Landing) (s : State) : Answer :=
  whenOn (fun s => match s.saPending with
    | some a =>
      if !a.peers.contains peer then s
      else
        let rest := a.peers.filter (· != peer)
        if rest.isEmpty then s.endAdvance 0 else { s with saPending := some { a with peers := rest } }
    | none => s) s

/-- ADVANCE_TIMEOUT: the advance completes at its bound. -/
def execAdvanceTimeout (s : State) : Answer :=
  whenOn (fun s => match s.saPending with
    | some a => if a.deadline ≤ s.beat then s.endAdvance a.peers.length else s
    | none => s) s

/-- PEER_ADVANCE: a peer advances the association; this end installs the next key. -/
def execPeerAdvance (peer : Landing) (hard : Bool) (s : State) : Answer :=
  whenOn (fun s => match s.peer? peer with
    | some p => if p.assoc.isSome then s.advanceAssoc peer hard else s
    | none => s) s

/-- Whether an old association is still remembered at a beat: it is accepted, or its key was deleted. -/
def OldAssoc.lives (o : OldAssoc) (beat : Nat) : Bool := match o.expires with
  | some t => decide (beat < t)
  | none => true

/-- OLD_AN_EXPIRE: the millisecond in which the association before a soft advance is accepted ends. -/
def execOldAnExpire (peer : Landing) (s : State) : Answer :=
  whenOn (fun s => s.updPeer peer (fun p => { p with assoc := p.assoc.map (fun a =>
    { a with olds := a.olds.filter (fun o => o.lives s.beat) }) })) s

/-! ## IEEE 1588 (R401, R402) -/

/-- Fixed delays of an interface's sending and receiving ends in 1/256 ns (R394): typical figures. At GEN 1 the table gives their sum. -/
def State.sendDelay (s : State) (p : Nat) : Nat := if (s.port p).gen = 0 then 50 * 256 else min (250 * 256) Config.sendDelayGen1
def State.recvDelay (s : State) (p : Nat) : Nat := if (s.port p).gen = 0 then 130 * 256 else 250 * 256 - s.sendDelay p

/-- LNK_ASYM, in 1/256 ns. -/
def State.asym (s : State) (p : Nat) : Int := (BitVec.ofNat 32 (s.regField (R_LNK_ASYM + 0x100 * p) 31 0)).toInt

/-- The timestamps of an event message received, or sent, that starts at the MAC a fraction into the present beat: at the fibre
face, in 1/256 beat (R401). DEDUCED (log entry 95, unsafe). -/
def State.recvStamp (s : State) (p : Nat) (fraction : BitVec 8) : Int :=
  (256 * s.beat + fraction.toNat : Nat) - (s.recvDelay p : Int) - s.asym p
def State.sendStamp (s : State) (p : Nat) (fraction : BitVec 8) : Int :=
  (256 * s.beat + fraction.toNat : Nat) + (s.sendDelay p : Int) - s.asym p

def State.ptpDomain (s : State) : Nat := s.regField R_LNK_TIME 23 16

/-- The servo takes a rate from an offset, within ±200 ppm (R402). DESIGN CHOICE (log entry 96, safe). -/
def State.servo (s : State) : State :=
  { s with ptp := { s.ptp with rate := max (-200) (min 200 (Config.servoRate s.free)) } }

/-- The beat counter is disciplined by an estimate of the reference's lead over it, in 1/256 ns: one forward step before the device
first joins a roster, slewing afterwards (R402). DESIGN CHOICE (log entry 53, unsafe). -/
def State.discipline (s : State) (offset : Int) : State :=
  let s1 := s.setReg R_LNK_TIME_OFFSET (BitVec.ofNat 64 (BitVec.ofInt 32 offset).toNat)
  let s2 : State :=
    if !s1.ptp.joined && !s1.regBit R_LNK_TIME 30 && decide (256000 < offset) && Config.choice s1.free then
      State.setRegField { s1 with beat := s1.beat + (offset / 256).toNat } R_LNK_TIME 30 30 1
    else s1.servo
  let near := decide (offset.natAbs ≤ 20 * 256)
  let s3 : State := { s2.tick with ptp := { s2.ptp with lockCount := if near then s2.ptp.lockCount + 1 else 0 } }
  if s3.regBit R_LNK_TIME 31 then
    if 256000 < offset.natAbs then State.linkFault (s3.setRegField R_LNK_TIME 31 31 0) 3 0 else s3
  else if 16 ≤ s3.ptp.lockCount then s3.setRegField R_LNK_TIME 31 31 1 else s3

/-- As `whenOn`, for the one effect that moves the beat counter: the forward step of R402. -/
def whenTimed (f : State → State) (s : State) : Answer :=
  if s.supplyBroken then .fault .outsideLimits
  else if s.powered then .next { s.framed (f s) with beat := (f s).beat } else .next s

/-- A request is answered at once with the times it came and the answer leaves; an answer to the request sent last gives the mean path delay of the interface; a
Sync through the interface of the source in use, once the delay is measured, gives the offset estimate (R402). -/
def State.ptpTake (s : State) (p i : Nat) (fraction : BitVec 8) (body : PtpBody) : State :=
  let k := 8 * p + i
  let now := s.recvStamp p fraction
  match body with
  | .delayReq => s.tick.emit (.ptp p i s.ptpDomain (.delayResp now (s.sendStamp p (Config.sendFraction s.free))))
  | .delayResp received sent => match mapGet none s.ptp.sentAt k with
    | none => s
    | some t => { s with ptp := { s.ptp with
        delays := mapPut none s.ptp.delays k (some ((now - t - (sent - received)) / 2).toNat)
        sentAt := mapPut none s.ptp.sentAt k none
        round := s.ptp.round + 1 } }
  | .sync origin => match mapGet none s.ptp.delays k with
    | none => s
    | some d => if s.regBit R_LNK_TIME 7 ∧ s.regField R_LNK_TIME 4 0 = k then s.discipline (origin + d - now) else s

/-- PTP_MESSAGE: a message that is none of IEEE 1588 is discarded and counted; one of another domain has no effect. -/
def execPtpMessage (arr : Arrival) (domain : Byte) (fraction : BitVec 8) (body : PtpBody) (s : State) : Answer :=
  whenTimed (fun s => match s.receive arr (isPtp arr) with
    | (s1, false) => s1
    | (s1, true) => if domain.toNat = s1.ptpDomain then s1.ptpTake arr.port.val arr.iface.val fraction body else s1) s

/-- A delay request and a Sync leave on an interface, the request's timestamp kept for its answer (R401, R402). -/
def State.ptpSend (s : State) (k : Nat) : State :=
  let p := k / 8
  let t := s.sendStamp p (Config.sendFraction s.free)
  let s1 : State := { s.tick with ptp := { s.ptp with sentAt := mapPut none s.ptp.sentAt k (some t) } }
  (s1.emit (.ptp p (k % 8) s.ptpDomain .delayReq)).emit (.ptp p (k % 8) s.ptpDomain (.sync t))

/-- PTP_SYNC_INTERVAL: peer-delay and sync messages leave on every interface that is up. -/
def execPtpSyncInterval (s : State) : Answer :=
  whenOn (fun s => ((List.range 32).filter (fun k => s.ifUp (k / 8) (k % 8))).foldl State.ptpSend s) s

end Sys2Proof.Machine
end

