-- ==== Sys2Proof/Machine/Mailbox.lean ====
section
/-! DEFINITION. The Ferryman's mailbox: request blocks, acceptance and answers (R542, R550, R552 to R556). -/

namespace Sys2Proof.Machine

def mailOk : Nat := 0
def mailAborted : Nat := 1
def mailBadArg : Nat := 2
def mailState : Nat := 3

def accAccepted : Nat := 0
def accBusy : Nat := 1
def accBadOp : Nat := 2
def accBadBlock : Nat := 3

/-- The address of the request block. -/
def State.mailBlock (s : State) : Nat := s.regField R_FER_REQ_ADDR 51 8 * 256

/-- FER_ACCEPT answers. -/
def State.ferAccept (s : State) (result retry : Nat) : State :=
  State.setRegField (State.setRegField (s.setRegField R_FER_ACCEPT 31 31 0) R_FER_ACCEPT 29 16 retry) R_FER_ACCEPT 3 0 result

/-- A field of ARGS by its block offset. -/
def State.arg (s : State) (block off n : Nat) : Nat := s.hostNat (block + off) n

/-- Bytes of ARGS not listed by a command are zero; `listed` gives the offset and size of each field. -/
def State.argsClear (s : State) (block : Nat) (listed : List (Nat × Nat)) : Bool :=
  (List.range 240).all (fun i => listed.any (fun f => decide (f.1 ≤ 0x10 + i) && decide (0x10 + i < f.1 + f.2)) ||
    s.hostNat (block + 0x10 + i) 1 == 0)

/-- A host physical address of 52 bits with an alignment. -/
def hostAddrOk (a align : Nat) : Bool := decide (a < 2 ^ 52) && a % align == 0

/-- Commands the boot ROM serves in FAILED (R542). -/
def bootCommand (op : Nat) : Bool := decide (7 ≤ op) && decide (op ≤ 10)

/-- Whether the bytes of a block that are to be zero are zero: FLAGS has bit 0 only. -/
def State.blockOk (s : State) (block : Nat) : Bool := decide (s.hostNat (block + 2) 2 ≤ 1) && s.hostNat (block + 0x0B) 5 == 0

/-- GO for a block whose OP is `op`: discarded while an answer is pending; left unanswered while the Ferryman is down; else
answered, and an accepted command runs. A block with another OP is another command. DEDUCED (log entry 73, unsafe). -/
def State.mailGo (s : State) (op : Nat) (busy : Option (BitVec 14)) (run : State → Nat → State) : State :=
  let block := s.mailBlock
  if s.hostNat block 2 ≠ op then s
  else if s.regBit R_FER_ACCEPT 31 then s.setRegField R_FER_ACCEPT 30 30 1
  else if s.devState = devFailed ∧ !bootCommand op then s.ferAccept accBadOp 0
  else if s.ferryDown ∧ s.devState ≠ devFailed then s.setRegField R_FER_ACCEPT 31 31 1
  else if !s.blockOk block then s.ferAccept accBadBlock 0
  else match busy with
    | some us => s.ferAccept accBusy us.toNat
    | none => run (s.ferAccept accAccepted 0) block

/-- A mailbox command: a write of FER_REQ with GO. -/
def mailCommand (op : Nat) (busy : Option (BitVec 14)) (run : State → Nat → State) (s : State) : Answer :=
  hostWrite R_FER_REQ (fun s => s.mailGo op busy run) s

/-- A command that answers at once: bad arguments give BAD_ARG. -/
def mailNow (ok : State → Nat → Bool) (act : State → Nat → State × Nat × List (Nat × List Byte)) (s : State) (block : Nat) :
    State :=
  if !ok s block then s.mailReply block mailBadArg []
  else match act s block with
    | (s1, result, outs) => s1.mailReply block result outs

end Sys2Proof.Machine
end

