-- ==== Sys2Proof/Machine/Roster.lean ====
section
/-! DEFINITION. Landing numbers, discovery, HELLO, the time reference, keepers and latencies (R408 to R420, R423). -/

namespace Sys2Proof.Machine

/-! ## Discovery (R408 to R412) -/

/-- Whether a landing number is usable. -/
def usable (l : Landing) : Bool := l != 0 && l != broadcast

/-- The lowest-numbered interface that is up, other than one. -/
def State.lowestUp (s : State) (skip : Option Nat) : Option Nat :=
  (List.range 32).find? (fun k => s.ifUp (k / 8) (k % 8) && skip != some k)

/-- A discovery frame. -/
def discFrame (s : State) (ty hops : Nat) (dst : Landing) (payload : List Byte) : Frame :=
  ⟨BitVec.ofNat 8 ty, BitVec.ofNat 8 hops, 0, dst, s.landing, 0, payload⟩

/-- The payload of CLAIM and DEFEND. -/
def claimBytes (number : Landing) (mac : Nat) : List Byte := leBytes 2 number.toNat ++ leBytes 6 mac

def State.setDisc (s : State) (st : Nat) : State := s.setRegField R_ROS_DISC 18 16 st

/-! ### The time reference (R414) -/

/-- References that live peers announce, each with its peer. -/
def State.references (s : State) : List Peer := s.peers.filter (fun p => p.live && p.reference != 0)

/-- Adopt the lowest candidate. A device with TIME_REF clear that has live peers counts itself where no device of the fabric
sets TIME_REF, which it does not see. -/
def State.adoptReference (s : State) : State :=
  if s.landing = 0 then s.setRegField R_ROS_STATUS 31 16 0
  else
    let peers := s.references
    let self := s.regBit R_ROS_CTRL 4 || peers.isEmpty || Config.choice s.free
    let best := ((if self then [s.landing.toNat] else []) ++ peers.map (fun p => p.reference.toNat)).min?.getD s.landing.toNat
    let s1 := s.tick.setRegField R_ROS_STATUS 31 16 best
    match peers.find? (fun p => p.reference.toNat == best), best == s.landing.toNat with
    | some p, false => (s1.setRegField R_LNK_TIME 7 7 1).setRegField R_LNK_TIME 4 0 (8 * p.port + p.iface)
    | _, _ => (s1.setRegField R_LNK_TIME 7 7 0).setRegField R_LNK_TIME 4 0 0

/-- The device settles on a landing number. -/
def State.settleOn (s : State) (l : Landing) : State :=
  State.adoptReference (State.setDisc (s.setRegField R_ROS_STATUS 15 0 l.toNat) discSettled)

/-! ### Counting off (R409) -/

/-- Send COUNT carrying a number on the lowest-numbered interface that is up. -/
def State.sendCount (s : State) (n : Nat) (skip : Option Nat) : State :=
  match s.lowestUp skip with
  | some k => s.sendOn (k / 8) (k % 8) none (discFrame s tyCount 16 0 (leBytes 2 n))
  | none => s

/-- A frame without protection comes from the number it names: its sender has been heard from (R413). -/
def State.hearFrom (s : State) (l : Landing) : State :=
  s.updPeer l (fun p => { p with lastHeard := s.beat })

/-- COUNT: an unnumbered device that is counting off takes the number and passes on the next; any other discards it. -/
def execCountOff (link : LinkEnd) (env : Envelope) (number : Landing) (s : State) : Answer :=
  let arr : Arrival := ⟨link, env⟩
  whenOn (fun s => match s.receive arr (s.takes arr) with
    | (s1, false) => s1
    | (s1, true) =>
      let s2 := s1.hearFrom (number - 1)
      if s2.landing != 0 || s2.discState != discCounting || !usable number then s2
      else
        let s3 := (s2.settleOn number).noteRoute (number - 1) arr.port.val arr.iface.val 1
        s3.sendCount (number.toNat + 1) (some (8 * arr.port.val + arr.iface.val))) s

/-! ### Claim and collision (R410) -/

/-- The first candidate: PREFERRED where it is a usable number, else from the MAC address. -/
def State.firstCandidate (s : State) : Landing :=
  let pref := BitVec.ofNat 16 (s.regField R_ROS_CTRL 31 16)
  let m := s.macBase
  if usable pref then pref
  else BitVec.ofNat 16 (1 + ((bits m 47 32) ^^^ (bits m 31 16) ^^^ (bits m 15 0)) % 65534)

def nextCandidate (c : Landing) : Landing := BitVec.ofNat 16 (1 + (c.toNat - 1 + 0x9E37) % 65534)

/-- Broadcast CLAIM of the candidate. -/
def State.sendClaim (s : State) : State :=
  let s1 : State := { s with discovery := { s.discovery with claims := s.discovery.claims + 1, lastClaim := s.beat } }
  s1.flood (discFrame s1 tyClaim 16 broadcast (claimBytes s1.discovery.candidate s1.macBase)) none

/-- Start claiming a candidate. -/
def State.claimFrom (s : State) (c : Landing) : State :=
  State.sendClaim (State.setDisc { s with discovery := { s.discovery with candidate := c, claims := 0 } } discClaiming)

/-- A collision moves the device to its next candidate. -/
def State.collide (s : State) : State :=
  let n := s.regField R_ROS_DISC 15 8
  State.claimFrom (s.setRegField R_ROS_DISC 15 8 (satAdd n 0xFF)) (nextCandidate s.discovery.candidate)

/-- Whether a discovery frame has been seen within 2 ms; if not it is noted. -/
def State.seenBefore (s : State) (ty : Nat) (number : Landing) (mac : BitVec 48) : State × Bool :=
  let recent := s.discovery.seen.filter (fun f => decide (s.beat < f.beat + 2000000))
  if recent.any (fun f => f.type == ty && f.number == number.toNat && f.mac == mac.toNat) then (s, true)
  else ({ s with discovery := { s.discovery with seen := recent ++ [⟨ty, number.toNat, mac.toNat, s.beat⟩] } }, false)

/-- A broadcast discovery frame arrives: one seen within 2 ms is discarded, another is sent on with one hop less and then
handled here (R412). -/
def State.broadcastIn (s : State) (arr : Arrival) (ty : Nat) (hops : Byte) (number : Landing) (mac : BitVec 48)
    (here : State → State) : State :=
  match s.receive arr (s.takes arr) with
  | (s0, false) => s0
  | (s0, true) => match s0.seenBefore ty number mac with
    | (s1, true) => s1
    | (s1, false) =>
      let s1 := if ty = tyDefend then s1.hearFrom number else s1
      let s2 := if hops = 0 then s1
        else s1.flood { discFrame s1 ty (hops.toNat - 1) broadcast (claimBytes number mac.toNat) with
            src := if ty = tyDefend then number else 0 } (some (8 * arr.port.val + arr.iface.val))
      here s2

/-- CLAIM: a claim of the candidate from a lower MAC address is a collision, and a numbered device defends its number. -/
def execClaim (link : LinkEnd) (env : Envelope) (hops : Byte) (number : Landing) (mac : BitVec 48) (s : State) : Answer :=
  let arr : Arrival := ⟨link, env⟩
  whenOn (fun s => s.broadcastIn arr tyClaim hops number mac (fun s =>
    if s.landing ≠ 0 then
      if number = s.landing then s.flood (discFrame s tyDefend 16 broadcast (claimBytes number s.macBase)) none else s
    else if s.discState = discClaiming ∧ number = s.discovery.candidate ∧ mac.toNat < s.macBase then s.collide
    else s)) s

/-- A settled device meets a duplicate of its number: both write an entry, and the device with the higher MAC address stops
everything but discovery (R411). -/
def State.duplicateNumber (s : State) (mac : BitVec 48) : State :=
  if s.discState ≠ discSettled ∨ mac.toNat = s.macBase then s
  else
    let s1 := s.linkFault 1 s.landing
    if mac.toNat < s.macBase then s1.setDisc discDuplicate else s1

/-- DEFEND: of the candidate, a collision; of the own number with another MAC address, a duplicate. -/
def execDefend (link : LinkEnd) (env : Envelope) (hops : Byte) (number : Landing) (mac : BitVec 48) (s : State) : Answer :=
  let arr : Arrival := ⟨link, env⟩
  whenOn (fun s => s.broadcastIn arr tyDefend hops number mac (fun s =>
    if s.landing ≠ 0 then
      if number = s.landing then s.duplicateNumber mac else s.noteRoute number arr.port.val arr.iface.val (17 - min hops.toNat 16)
    else if s.discState = discClaiming ∧ number = s.discovery.candidate then s.collide
    else s.noteRoute number arr.port.val arr.iface.val (17 - min hops.toNat 16))) s

/-- CLAIM_TIMER: the claim is repeated until it has been sent three times, 200 µs apart; after 2 ms without a collision the
device settles. -/
def execClaimTimer (s : State) : Answer :=
  whenOn (fun s =>
    if s.discState ≠ discClaiming then s
    else if s.discovery.claims < 3 then
      if s.discovery.lastClaim + 200000 ≤ s.beat then s.sendClaim else s
    else if s.discovery.lastClaim + 2000000 ≤ s.beat then s.settleOn s.discovery.candidate else s) s

/-- DISCOVERY_FALLBACK: 100 ms after training a device still counting off falls back to claiming. -/
def execDiscoveryFallback (s : State) : Answer :=
  whenOn (fun s => match s.discovery.trainedAt with
    | some t => if s.landing = 0 ∧ s.discState = discCounting ∧ t + 100000000 ≤ s.beat then s.claimFrom s.firstCandidate else s
    | none => s) s

/-- Discovery starts by the method of ROS_CTRL.TOPO (R409). DEDUCED (log entry 52, unsafe). -/
def State.startDiscovery (s : State) : State :=
  match s.regField R_ROS_CTRL 1 0 with
  | 0 =>
    if s.regBit R_ROS_CTRL 3 then
      let pref := BitVec.ofNat 16 (s.regField R_ROS_CTRL 31 16)
      let n := if usable pref then pref else 1
      (s.settleOn n).sendCount (n.toNat + 1) none
    else s.setDisc discCounting
  | 1 => s.claimFrom s.firstCandidate
  | _ => s

/-- The landing number is given up: associations made under it end, and nothing is known of other devices. -/
def State.unnumber (s : State) : State :=
  let s1 := (s.peers.map (·.landing)).foldl (fun s l => s.resetStream l true) s
  let s2 : State := { s1 with
    peers := s1.peers.map (fun p => { p with assoc := none, live := false })
    routes := []
    discovery := { s1.discovery with candidate := 0, claims := 0 } }
  ((s2.setRegField R_ROS_STATUS 31 0 0).setRegField R_ROS_DISC 18 8 0)

/-- REDISCOVER: ignored while any partition is a member. -/
def execRediscover (value : Lane) (s : State) : Answer :=
  hostWrite R_ROS_CMD (fun s =>
    if !value.getLsbD 0 ∨ s.parts.toList.any (fun p => p.slot.isSome) ∨ s.ferryDown then s
    else if s.discState = discDuplicate then s
    else s.unnumber.startDiscovery) s

/-! ## Keepers (R415, R416) -/

/-- Whether a device is live in this device's view. -/
def State.isLive (s : State) (l : Landing) : Bool := l == s.landing || (match s.peer? l with
  | some p => p.live
  | none => false)

/-- The live devices that contribute members. -/
def State.liveDevices (s : State) (v : VDev) : List Landing := v.devices.filter s.isLive

/-- The lowest landing number of a list. -/
def lowest (l : List Landing) : Option Landing := (l.map (·.toNat)).min?.map (BitVec.ofNat 16)

/-- The keeper of a virtual device in this device's view. -/
def State.keeper (s : State) (v : VDev) : Option Landing := lowest (s.liveDevices v)
def State.isKeeper (s : State) (v : VDev) : Bool := s.keeper v == some s.landing

/-- The devices a quorum counts: those that contributed at the last commit, as a device declared dead contributes until a
commit leaves it out (R416). DEDUCED (log entry 94, unsafe). -/
def VDev.counted (v : VDev) : List Landing := if v.devicesAtCommit.isEmpty then v.devices else v.devicesAtCommit

/-- Whether a keeper may act. -/
def State.quorate (s : State) (v : VDev) : Bool :=
  let n := v.counted.length
  let live := v.counted.filter s.isLive
  decide (n < 2 * live.length) || (n == 2 * live.length && (match lowest v.counted with
    | some l => live.contains l
    | none => true))

def State.updVdev (s : State) (n : BitVec 24) (f : VDev → VDev) : State :=
  { s with vdevs := s.vdevs.map (fun v => if v.number = n then f v else v) }

/-- The payload of SYNC. -/
def syncBytes (vdev : BitVec 24) (epoch : Lane) (rec : Option CompRecord) : List Byte :=
  leBytes 4 vdev.toNat ++ leBytes 4 epoch.toNat ++ (match rec with
    | some r => compBytes r
    | none => List.replicate 32 0)

/-- A new keeper asks every live contributing device for its epoch. -/
def State.sendSync (s : State) (v : VDev) : State :=
  let ds := (s.liveDevices v).filter (· != s.landing)
  let s1 := s.sendAll ds tySync (syncBytes v.number v.epoch none)
  s1.updVdev v.number (fun v => { v with syncOut := ds })

/-- What follows a change of liveness, against the state before it: severing, and SYNC where this device has become
keeper. -/
def State.afterLiveness (s old : State) : State :=
  s.vdevs.foldl (fun s v =>
    let s1 := s.updVdev v.number (fun v => { v with severed := !s.quorate v, syncOut := v.syncOut.filter s.isLive })
    let was := match old.vdev? v.number with
      | some w => old.isKeeper w
      | none => false
    if s.isKeeper v && !was then s1.sendSync v else s1) s

/-! ## Latencies and HELLO (R413, R419, R420, R423) -/

/-- This device's MYLAT for a virtual device. -/
def State.myLat (s : State) (v : VDev) : Nat :=
  ((v.devices.filter (· != s.landing)).map s.latencyTo).foldl max 0

/-- The largest latency of a virtual device takes effect here. -/
def State.setVdLat (s : State) (v : VDev) (lat : Nat) : State :=
  let s1 := s.updVdev v.number (fun v => { v with vdLat := lat })
  match v.slot with
  | some i => s1.setReg (R_SUB_LINKLAT + 4 * i.val) (BitVec.ofNat 64 (lat % 2 ^ 32))
  | none => s1

/-- What each contributing device last reported as MYLAT, this one included. -/
def State.reportedLat (s : State) (v : VDev) : Nat :=
  ((v.devices.filter (· != s.landing)).map (fun l => match s.peer? l with
    | some p => (match p.myLats.find? (fun x => x.1 == v.number) with
      | some x => x.2
      | none => 0)
    | none => 0)).foldl max (s.myLat v)

/-- KEEPER_LATENCY_UPDATE: every millisecond the keeper publishes the greatest MYLAT. -/
def execKeeperLatencyUpdate (slot : SlotId) (s : State) : Answer :=
  whenOn (fun s => match s.vdevs.find? (fun v => v.slot == some slot) with
    | some v => if s.isKeeper v && !s.ferryDown then State.tick (s.setVdLat v (s.reportedLat v)) else s
    | none => s) s

/-- The payload of HELLO: a record for each virtual device that has not been dissolved. -/
def State.helloBytes (s : State) : List Byte :=
  let vs := s.vdevs.filter (fun v => v.number != 0)
  leBytes 2 (s.regField R_ROS_STATUS 31 16) ++ leBytes 1 vs.length ++ leBytes 5 0 ++
  vs.flatMap (fun v => leBytes 4 v.number.toNat ++ leBytes 4 v.epoch.toNat ++ leBytes 4 (s.myLat v) ++
    leBytes 4 (if s.isKeeper v then v.vdLat else 0))

/-- The devices HELLO goes to: those that share a virtual device, and those at the far end of a link. -/
def State.helloTargets (s : State) : List Landing :=
  ((s.vdevs.flatMap VDev.devices) ++ (s.peers.filter (·.adjacent)).map (·.landing) ++
    (s.routes.filterMap (fun r => match r.2 with
      | some x => if x.hops = 1 then some (BitVec.ofNat 16 r.1) else none
      | none => none))).eraseDups.filter (· != s.landing)

/-- HELLO_TIMER: every 20 µs. A device that discovery has told of, or that the roster names, is met first. -/
def execHelloTimer (s : State) : Answer :=
  whenOn (fun s =>
    if s.landing = 0 ∨ s.key.fabric.isNone then s
    else
      let s1 := s.helloTargets.foldl (fun s l => match s.peer? l, mapGet none s.routes l.toNat with
        | none, some r => s.meet l 0 r.port r.iface
        | _, _ => s) s
      s1.helloTargets.foldl (fun s l => s.sendUnseq l tyHello s.helloBytes) s1.tick) s

/-- One record of a HELLO. -/
def State.takeRecord (s : State) (src : Landing) (r : HelloRecord) : State :=
  let s1 := s.updPeer src (fun p => { p with
    myLats := p.myLats.filter (fun x => x.1 != r.vdev) ++ [(r.vdev, r.myLat.toNat)]
    epochs := p.epochs.filter (fun x => x.1 != r.vdev) ++ [(r.vdev, r.epoch)] })
  match s1.vdev? r.vdev with
  | some v => if s1.keeper v = some src then s1.setVdLat v r.vdLat.toNat else s1
  | none => s1

/-- HELLO: from the own landing number with another MAC address, a duplicate; else the peer is live and its records are
kept. -/
def execHello (rx : Rx) (mac : BitVec 48) (reference : Landing) (records : List HelloRecord) (s : State) : Answer :=
  whenOn (fun s =>
    if !s.ifUp rx.port.val rx.iface.val ∨ !s.takes rx.toArrival then (s.receive rx.toArrival false).1
    else if rx.src = s.landing ∧ s.landing ≠ 0 then (s.receive rx.toArrival true).1.duplicateNumber mac
    else
      let s0 := if s.discState = discDuplicate then s else s.meet rx.src mac rx.port.val rx.iface.val
      match s0.accept rx tyHello with
      | (s1, false) => s1
      | (s1, true) =>
        let s2 := s1.updPeer rx.src (fun p => { p with
          live := true, mac := mac, reference := reference, port := rx.port.val, iface := rx.iface.val })
        let s3 := records.foldl (fun s r => s.takeRecord rx.src r) s2
        State.afterLiveness s3.adoptReference s) s

end Sys2Proof.Machine
end

