-- ==== Sys2Proof/Machine/Compose.lean ====
section
/-! DEFINITION. Composition: requests, proposals, votes, commits and their replies, and the keeper's SYNC (R22 to R41, R415
to R418, R427, R428, R554). -/

namespace Sys2Proof.Machine

/-! ## Preconditions (R26, R32, R39) -/

/-- Whether a queued or running manifest of this device names a rank; one whose record is written runs on while it has
trailing work (R369). -/
def State.rankNamed (s : State) (vdev : BitVec 24) (rank : Nat) : Bool :=
  s.manifests.any (fun m => m.vdev == vdev && (!m.phase.over || !m.trailersDone) && decide (m.rankBase ≤ rank) &&
    decide (rank < m.rankBase + m.rankCount))

/-- Whether a storage word lies in a partition of a device of the fabric. -/
def State.inPool (s : State) (l : Landing) (part : Nat) (w : Word) : Bool :=
  (storageLanding w == l.toNat || (storageLanding w == 0 && l == s.landing)) &&
  (match addrKind (storageAddr w) with
   | .store c => c == part
   | .data c => c == part
   | _ => false)

/-- The map pages that the map index of a slot names. -/
def State.mapPages (s : State) (slot : Nat) : List Nat :=
  let lo := bucketAddr slot 0
  ((s.mem.filter (fun p => decide (lo ≤ p.1) && decide (p.1 < lo + 0x800000))).map (fun p => p.1 / 16 * 16)).eraseDups.filterMap
    (fun a => if bitAt (leNat (mapRead 0 s.mem a 8)) 63 then some (leNat (mapRead 0 s.mem (a + 8) 8)) else none)

/-- Whether a block-map entry, a second copy or a map page is located in a member (R32). -/
def State.stateHeld (s : State) (v : VDev) (l : Landing) (part : Nat) : Bool :=
  match v.slot with
  | none => false
  | some i =>
    s.mapEntries.any (fun e => e.1.slot == i.val && (s.inPool l part e.2.storage || (e.2.mirrored && (match s.entryMirror e.1 e.2 with
      | some w => s.inPool l part w
      | none => false)))) ||
    (s.mapPages i.val).any (fun w => s.inPool l part (BitVec.ofNat 64 w) || (match mapGet none s.pageMirrors w with
      | some m => s.inPool l part (BitVec.ofNat 64 m)
      | none => false))

/-- The member that a change's partition is. -/
def VDev.at? (v : VDev) (l : Landing) (part : Nat) : Option Member := v.members.find? (fun m => m.host == some (l, part))

/-- The slots in use on this device. -/
def State.slotUsed (s : State) (i : SlotId) : Bool :=
  s.parts.toList.any (fun p => p.slot == some i) || s.vdevs.any (fun v => v.slot == some i)
def State.freeSlot (s : State) : Option SlotId := (List.finRange 16).find? (fun i => !s.slotUsed i)

/-- JOINs of this device's partitions that are under way for other virtual devices: each holds its partition, and its
virtual device's slot where it has none yet, until it commits or aborts (R23, R26). DEDUCED (log entry 93, unsafe). -/
def State.joinsHere (s : State) (vdev : BitVec 24) : List CompRecord :=
  (s.proposals.map (fun (q : Proposal) => q.record)).filter (fun r =>
    r.op == BitVec.ofNat 8 opJoin && r.landing == s.landing && r.vdev != vdev)

/-- Whether this device can hold one more virtual device, beside those and the ones that JOINs under way bring (R26). -/
def State.slotLeft (s : State) (vdev : BitVec 24) : Bool :=
  let coming := ((s.joinsHere vdev).map (fun r => r.vdev)).filter (fun n => (match s.vdev? n with
    | some v => v.slot.isNone
    | none => true))
  decide (coming.eraseDups.length < ((List.finRange 16).filter (fun i => !s.slotUsed i)).length)

/-- What stands against a JOIN at the device that carries the partition (R23, R26, R39, R70); `slotless` where the virtual
device has no slot here. -/
def State.joinRefusal (s : State) (slotless : Bool) (r : CompRecord) : Option Nat :=
  if slotless && !s.slotLeft r.vdev then some coLimit
  else if 16 ≤ r.part.toNat ∨ (s.part (partOf r.part.toNat)).state ≠ .free ∨ (s.joinsHere r.vdev).any (fun q => q.part == r.part) then
    some coNotFree
  else if r.role = 0 ∧ activeCount (s.part (partOf r.part.toNat)).working = 0 then some coRole
  else none

/-- The members after a change (R32). -/
def membersAfter (r : CompRecord) (ms : List Member) : List Member :=
  let at_ := some (r.landing, r.part.toNat)
  let rank := r.rank.toNat
  if r.op = BitVec.ofNat 8 opJoin then ms ++ [⟨rank, at_, r.role == 1, .staging⟩]
  else if r.op = BitVec.ofNat 8 opActivate then ms.map (fun m => if m.host = at_ then { m with state := .active } else m)
  else if r.op = BitVec.ofNat 8 opRehost then
    (ms.filter (fun m => m.host != at_ || m.rank == rank)).map (fun m => if m.rank = rank then { m with host := at_, state := .active } else m)
  else if r.op = BitVec.ofNat 8 opLeave then
    ms.filter (fun m => if r.landing = 0 then !(m.rank == rank && m.host.isNone) else m.host != at_)
  else []

/-- Whether the members after a change lie within the limits of R26. A rank without a host is no member (R24), so that its
release takes none away; dissolving leaves none. -/
def withinLimits (r : CompRecord) (ms : List Member) : Bool :=
  let hosted := ms.filter (fun m => m.host.isSome)
  r.op == BitVec.ofNat 8 opDissolve || (r.op == BitVec.ofNat 8 opLeave && r.landing == 0) ||
  (decide (1 ≤ hosted.length) && decide (hosted.length ≤ 16384) && hosted.any (fun m => !m.store) &&
   decide (((hosted.filterMap (fun m => m.host.map (·.1))).eraseDups).length ≤ 1024))

/-- The first precondition that is false for a change, against a roster; what a device can tell of its own partitions,
manifests and block map counts in it. A LEAVE or DISSOLVE of an unknown virtual device, a LEAVE that names no member and a
REHOST of a rank the virtual device does not have answer LIMIT; a REHOST of Q's own rank, or of a rank a Staging member
carries, is accepted. DEDUCED (log entry 54, unsafe). -/
def State.compRefusal (s : State) (v : Option VDev) (r : CompRecord) : Option Nat :=
  let ms := match v with
    | some v => v.members
    | none => []
  let op := r.op.toNat
  let rank := r.rank.toNat
  let target := ms.find? (fun m => m.host == some (r.landing, r.part.toNat))
  let named (k : Nat) : Bool := s.rankNamed r.vdev k
  let slotless := match v with
    | some v => v.slot.isNone
    | none => true
  let here := if r.landing = s.landing then s.joinRefusal slotless r else none
  let staging (m : Member) : Bool := m.state == .staging &&
    (r.landing != s.landing || (s.part (partOf r.part.toNat)).state == .staging)
  if op < 1 ∨ 5 < op ∨ r.vdev = 0 ∨ (v.isNone ∧ (op = opLeave ∨ op = opDissolve)) then some coLimit
  else if op = opJoin then
    if 16384 ≤ rank ∨ 1 < r.role.toNat ∨ !withinLimits r (membersAfter r ms) ∨ here = some coLimit then some coLimit
    else if 16 ≤ r.part.toNat ∨ target.isSome ∨ here = some coNotFree then some coNotFree
    else if ms.any (fun m => m.rank == rank) then some coRankUsed
    else here
  else if op = opActivate then
    match target with
    | some m => if staging m then none else some coNotStaging
    | none => some coNotStaging
  else if op = opRehost then
    match target, ms.find? (fun m => m.rank == rank) with
    | some q, some k =>
      if !staging q then some coNotStaging
      else if named q.rank then some coRankBusy
      else if q.store ≠ k.store then some coRole
      else if withinLimits r (membersAfter r ms) then none else some coLimit
    | none, _ => some coNotStaging
    | _, none => some coLimit
  else if op = opLeave then
    let gone := if r.landing = 0 then ms.find? (fun m => m.rank == rank && m.host.isNone) else target
    match gone, v with
    | some m, some v =>
      if named m.rank then some coRankBusy
      else if m.store && m.host.isSome && s.stateHeld v r.landing r.part.toNat then some coStateHeld
      else if withinLimits r (membersAfter r ms) then none else some coLimit
    | _, _ => some coLimit
  else if ms.any (fun m => named m.rank) then some coRankBusy
  else none

/-! ## Applying a commit (R24, R32, R35, R38, R418) -/

/-- A partition of this device takes its part in a change; one that has meanwhile become stranded leaves at once (R24, R41). -/
def State.takePart (s : State) (p : PartId) (slot : SlotId) (rank : Nat) (store : Bool) (st : PartState) : State :=
  if (s.part p).state = .stranded then s.unhost s.landing p.val
  else s.updPart p (fun x => { x with
    slot := some slot
    rank := rank
    store := store
    state := if x.state = .resetting then x.state else st
    returnTo := if x.state = .resetting then st else x.returnTo })

/-- A partition of this device leaves: it finishes its kernel and its transfers and is then Free; one in reset becomes Free
when the reset completes. -/
def State.leavePart (s : State) (p : PartId) : State :=
  match (s.part p).state with
  | .resetting => s.updPart p (fun x => { x with rehosted := true })
  | .stranded => s
  | .free => s
  | _ => State.leaveCheck (s.updPart p (fun x => { x with state := .leaving })) p

/-- The partitions of this device among the members of a list. -/
def State.ownParts (s : State) (ms : List Member) : List (PartId × Member) :=
  ms.filterMap (fun m => match m.host with
    | some (l, p) => if l = s.landing then some (partOf p, m) else none
    | none => none)

/-- The manifest whose rank has a new host: a rank of this device whose new host is elsewhere goes on there, and one that
comes here from elsewhere goes on, where the manifest has not ended, at kernel `next`, which this device does not know. -/
def Manifest.rehosted (m : Manifest) (here : Bool) (rank part next : Nat) : Manifest :=
  if !here then { m with ranks := m.ranks.filter (fun r => r.rank != rank || r.shadow) }
  else if m.ranks.any (fun r => r.rank == rank && !r.shadow) then
    { m with ranks := m.ranks.map (fun (r : RankRun) => if r.rank = rank ∧ !r.shadow then { r with part := part } else r) }
  else if m.phase.over then m
  else
    let n := match m.obj with
      | some o => o.kernels.length
      | none => 0
    { m with ranks := m.ranks ++ [⟨rank, part, false, false, min n next, false, 0⟩] }

/-- Manifests that name a re-hosted rank go on at its new host (R35, R38); a copy whose last unfinished rank has left reaches
its end. -/
def State.moveRank (s : State) (v : VDev) (rank : Nat) : State :=
  match v.member? rank with
  | some ⟨_, some (l, p), _, _⟩ =>
    let named := s.manifests.filter (fun m => m.vdev == v.number && decide (m.rankBase ≤ rank) &&
      decide (rank < m.rankBase + m.rankCount) && !m.ranks.isEmpty)
    named.foldl (fun s m =>
      (s.updManifest m.id (fun m => m.rehosted (l == s.landing) rank p (Config.nextKernel s.free))).boundaryCheck m.id m.leadersDone) s.tick
  | _ => s

/-- The next epoch of a virtual device (R417). -/
def nextEpoch (e : Lane) : Lane := if e = 0xFFFFFFFF then 1 else e + 1
/-- Whether an epoch is newer than another (R417). -/
def epochNewer (a b : Lane) : Bool := a != b && seqGe a b

/-- A virtual device as this device first comes to know it. -/
def VDev.fresh (n : BitVec 24) (ms : List Member) : VDev where
  number := n
  slot := none
  epoch := 0
  members := ms
  devicesAtCommit := []
  severed := false
  lastCommit := none
  vdLat := 0
  syncOut := []

/-- A virtual device takes a slot: the device has joined a roster, and the manifests fetched for the slot and not yet admitted
name it from here on (R32, R402, R418). -/
def State.nameSlot (s : State) (taken : Bool) (v : VDev) : State :=
  { s with
    ptp := { s.ptp with joined := s.ptp.joined || taken && v.slot.isSome }
    manifests := s.manifests.map (fun m =>
      if taken ∧ v.slot = some m.vslot ∧ (m.phase = .waitEvent ∨ m.phase = .admissible) then { m with vdev := v.number } else m) }

/-- Carry out a committed change in this device's roster and partitions. -/
def State.applyCommit (s : State) (r : CompRecord) (roster : List RosterEntry) : State :=
  let learnt : List Member := roster.map (fun e => ⟨e.rank.val, some (e.landing, e.part.val), e.store, if e.active then .active else .staging⟩)
  let s0 : State := match s.vdev? r.vdev with
    | some _ => s
    | none => { s with vdevs := s.vdevs ++ [VDev.fresh r.vdev learnt] }
  match s0.vdev? r.vdev with
  | none => s0
  | some v =>
    let after := membersAfter r v.members
    let dissolved := r.op = BitVec.ofNat 8 opDissolve
    let joins := (s0.ownParts after).any (fun m => !(s0.ownParts v.members).any (fun o => o.1 == m.1))
    let slot := match v.slot with
      | some i => some i
      | none => if joins then s0.freeSlot else none
    let w : VDev := { v with
      members := after
      slot := slot
      epoch := r.epoch
      severed := false
      lastCommit := some r
      devicesAtCommit := (after.filterMap (fun m => m.host.map (·.1))).eraseDups }
    let s1 := State.nameSlot (s0.updVdev r.vdev (fun _ => w)) v.slot.isNone w
    let s2 := (s1.ownParts after).foldl (fun s m => match slot with
      | some i => (match m.2.state with
        | .staging => s.takePart m.1 i m.2.rank m.2.store .staging
        | _ => s.takePart m.1 i m.2.rank m.2.store .active)
      | none => s) s1
    let gone := (s0.ownParts v.members).filter (fun o => !(s0.ownParts after).any (fun m => m.1 == o.1))
    let s3 := (gone.map (·.1)).foldl State.leavePart s2
    let s4 := if r.op = BitVec.ofNat 8 opRehost then s3.moveRank w r.rank.toNat else s3
    let s5 : State := { s4 with proposals := s4.proposals.filter (fun q => q.record.vdev != r.vdev) }
    let s6 := s5.setVdLat w r.vdLat.toNat
    if dissolved then s6.updVdev r.vdev (fun v => { v with number := 0 })
    else if (w.devices).contains s.landing || slot.isSome then s6
    else { s6 with vdevs := s6.vdevs.filter (fun d => d.number != r.vdev) }

/-! ## The requester (R40, R427, R554) -/

/-- The outcome of a request of this device's host is written to its block. -/
def State.finishCompose (s : State) (tag : Lane) (result : Nat) (epoch : Lane) : State :=
  match s.composeWaits.find? (fun w => w.1 == tag) with
  | some w => State.mailReply { s with composeWaits := s.composeWaits.filter (fun x => x != w) } w.2.block
      (if result = coOk then 0 else 0x100 + result) (if result = coOk then [(0x30, leBytes 4 epoch.toNat)] else [])
  | none => s

/-- A reply to the device that requested a change. -/
def State.replyTo (s : State) (requester : Landing) (r : CompRecord) (result : Nat) : State :=
  if requester = s.landing then s.finishCompose r.tag result r.epoch
  else s.sendSeq requester tyReply 0 (compBytes { r with result := BitVec.ofNat 8 result, vdLat := 0 }) none

/-! ## The keeper (R34, R40, R41, R427) -/

/-- Devices a change is proposed to: those that contribute, and that of a joining partition. -/
def changeDevices (v : Option VDev) (r : CompRecord) : List Landing :=
  ((match v with
    | some v => v.devices
    | none => []) ++ (if r.op = BitVec.ofNat 8 opJoin then [r.landing] else [])).eraseDups

/-- Remove a change from the keeper's list. -/
def State.dropChange (s : State) (c : CompChange) : State := { s with comps := s.comps.filter (fun x => x != c) }

/-- The request next in order for a virtual device: by arrival, then requester, then tag; those of the beat in progress are
not yet all known (R40). -/
def State.nextRequest (s : State) (vdev : BitVec 24) : Option CompChange :=
  let l := s.comps.filter (fun c => c.record.vdev == vdev && !c.takenUp && decide (c.arrived < s.beat))
  l.find? (fun c => l.all (fun d => decide (c.arrived < d.arrived) || (c.arrived == d.arrived &&
    (decide (c.requester.toNat < d.requester.toNat) || (c.requester == d.requester && decide (c.record.tag.toNat ≤ d.record.tag.toNat))))))

/-- A change taken up is proposed to a list of devices, this one among them (R427, phase 2). -/
def State.proposeTo (s : State) (c : CompChange) (ds : List Landing) : State :=
  let s1 : State := { s with
    comps := s.comps.map (fun (x : CompChange) => if x = c then { c with votesOut := ds, consulting := false } else x)
    proposals := s.proposals ++ [⟨c.record, s.landing, false⟩] }
  State.castVotes (s1.sendAll ds tyPropose (compBytes c.record))

/-- Whether the device of a joining partition is another, which the keeper consults first (R427, phase 1). -/
def State.consults (s : State) (r : CompRecord) : Bool := r.op == BitVec.ofNat 8 opJoin && r.landing != s.landing

/-- Take up waiting requests of a virtual device until one is under way: each is checked against the roster as it stands. A
JOIN of another device's partition is proposed to that device first, whose vote answers the consultation; one of a device that
is not live is answered ABORTED. While the Ferryman defers class 3 nothing is taken up (R42). DEDUCED (log entry 93, unsafe). -/
def State.takeUp : Nat → State → BitVec 24 → State
  | 0, s, _ => s
  | fuel + 1, s, vdev =>
    if s.comps.any (fun c => c.record.vdev == vdev && c.takenUp) || s.deferred3 then s
    else match s.nextRequest vdev with
      | none => s
      | some c =>
        let v := s.vdev? vdev
        let severed := match v with
          | some v => !s.quorate v || !s.isKeeper v
          | none => false
        let busy := match v with
          | some v => !v.syncOut.isEmpty
          | none => false
        if busy then s
        else match (if severed then some coAborted else match s.compRefusal v c.record with
            | some reason => some reason
            | none => if s.consults c.record && !s.isLive c.record.landing then some coAborted else none) with
          | some reason => State.takeUp fuel ((s.dropChange c).replyTo c.requester c.record reason) vdev
          | none =>
            let epoch := match v with
              | some v => nextEpoch v.epoch
              | none => 1
            let r : CompRecord := { c.record with epoch := epoch, result := 0, vdLat := 0 }
            let first : CompChange := ⟨r, c.requester, c.arrived, true, [r.landing], true, false⟩
            let s1 : State := { s with comps := s.comps.map (fun (x : CompChange) => if x = c then first else x) }
            if s.consults r then s1.sendAll [r.landing] tyPropose (compBytes r)
            else s1.proposeTo first (changeDevices v r)

/-- A request reaches the keeper, and waits until every request of its beat is there (R40). -/
def State.compRequest (s : State) (r : CompRecord) (requester : Landing) : State :=
  { s with comps := s.comps ++ [⟨r, requester, s.beat, false, [], false, false⟩] }

/-- The device consulted about a JOIN refuses: the requester gets its reason (R39, R427). -/
def State.refuseChange (s : State) (c : CompChange) (reason : Nat) : State :=
  State.takeUp (s.comps.length + 1) ((s.dropChange c).replyTo c.requester c.record reason) c.record.vdev

/-- A change is abandoned: ABORT to the devices it was proposed to, ABORTED to the requester, and the next is taken up. -/
def State.abortChange (s : State) (c : CompChange) : State :=
  let r : CompRecord := { c.record with result := BitVec.ofNat 8 coAborted }
  let s1 := s.dropChange c
  let s2 : State := { s1 with proposals := s1.proposals.filter (fun q => q.record.vdev != r.vdev) }
  let s3 := s2.sendAll (changeDevices (s.vdev? r.vdev) r) tyAbort (compBytes r)
  State.takeUp (s.comps.length + 1) (s3.replyTo c.requester r coAborted) r.vdev

/-- Requests at a device that is keeper no longer are abandoned (R41). -/
def State.dropForeign (s : State) : State :=
  (s.comps.filter (fun c => match s.vdev? c.record.vdev with
    | some v => !s.isKeeper v
    | none => false)).foldl State.abortChange s

/-- Phase 5: the change commits under the new epoch, with the largest latency any device has reported. -/
def State.commitChange (s : State) (c : CompChange) : State :=
  let old := s.vdev? c.record.vdev
  let ds := changeDevices old c.record
  let lat := match old with
    | some v => s.reportedLat { v with members := membersAfter c.record v.members }
    | none => 0
  let r : CompRecord := { c.record with vdLat := BitVec.ofNat 32 lat }
  let s1 := (s.tick.dropChange c).applyCommit r []
  let s2 := s1.sendAll ds tyCommit (compBytes r)
  let s3 := s2.replyTo c.requester { r with vdLat := 0 } coOk
  State.takeUp (s.comps.length + 1) (s3.afterLiveness s).dropForeign r.vdev

/-- A composition operation at the keeper: the request of that kind which is next in order is taken up, and once every vote
is in the change is carried out; one whose partition has faulted is abandoned. The Ferryman does neither while it is down or
defers class 3 (R40 to R42). -/
def compose (op : Nat) (vdev : BitVec 24) (s : State) : Answer :=
  whenOn (fun s =>
    if s.ferryDown || s.deferred3 then s
    else match s.comps.find? (fun c => c.record.vdev == vdev && c.takenUp && c.record.op == BitVec.ofNat 8 op) with
    | none =>
      (match s.nextRequest vdev with
       | some c => if c.record.op = BitVec.ofNat 8 op then State.takeUp (s.comps.length + 1) s vdev else s
       | none => s)
    | some c =>
      if c.failed then s.abortChange c
      else if c.votesOut.isEmpty && !c.consulting then s.commitChange c else s) s

def execJoin (vdev : BitVec 24) (s : State) : Answer := compose opJoin vdev s
def execActivate (vdev : BitVec 24) (s : State) : Answer := compose opActivate vdev s
def execRehost (vdev : BitVec 24) (s : State) : Answer := compose opRehost vdev s
def execLeave (vdev : BitVec 24) (s : State) : Answer := compose opLeave vdev s
def execDissolve (vdev : BitVec 24) (s : State) : Answer := compose opDissolve vdev s

/-- A sequenced frame of the roster protocol: performed where it is accepted and new. -/
def rosterFrame (rx : Rx) (ty : Nat) (f : State → State) (s : State) : Answer :=
  whenOn (fun s => match s.acceptSeq rx ty with
    | (s1, true) => f s1
    | (s1, false) => s1) s

/-- REQUEST: arrives at the keeper; a device that is not keeper answers ABORTED. -/
def execRequest (rx : Rx) (r : CompRecord) (s : State) : Answer :=
  rosterFrame rx tyRequest (fun s => match s.vdev? r.vdev with
    | some v => if s.isKeeper v then s.compRequest r rx.src else s.replyTo rx.src r coAborted
    | none => s.compRequest r rx.src) s

/-- PROPOSE: one older than the epoch held is discarded; a precondition found false is voted at once; else the vote waits
for the affected ranks' kernel boundaries. -/
def execPropose (rx : Rx) (r : CompRecord) (s : State) : Answer :=
  rosterFrame rx tyPropose (fun s =>
    let v := s.vdev? r.vdev
    let old := match v with
      | some v => epochNewer v.epoch r.epoch
      | none => false
    let refusal := match v with
      | some _ => s.compRefusal v r
      | none => if s.consults r then none else s.joinRefusal true r
    if old then s
    else match refusal with
      | some reason => s.castVote rx.src r reason
      | none => State.castVotes { s with
          proposals := s.proposals.filter (fun (q : Proposal) => q.record.vdev != r.vdev) ++ [(⟨r, rx.src, false⟩ : Proposal)] }) s

/-- VOTE: counted at the keeper; a negative one aborts the change, also from a device that has voted for it, whose partition
has faulted since (R41). The vote of the device consulted about a JOIN refuses it, or lets it be proposed to the others. -/
def execVote (rx : Rx) (r : CompRecord) (s : State) : Answer :=
  rosterFrame rx tyVote (fun s =>
    match s.comps.find? (fun c => c.takenUp && c.record.vdev == r.vdev && c.record.epoch == r.epoch &&
        (c.votesOut.contains rx.src || r.result != 0)) with
    | none => s
    | some c =>
      if r.result ≠ 0 then if c.consulting then s.refuseChange c r.result.toNat else s.abortChange c
      else if c.consulting then s.proposeTo c ((changeDevices (s.vdev? r.vdev) c.record).filter (· != rx.src))
      else { s with comps := s.comps.map (fun (x : CompChange) => if x = c then { x with votesOut := x.votesOut.filter (· != rx.src) } else x) }) s

/-- COMMIT: one older than the epoch held is discarded; the device that first carries a member learns the roster with it. -/
def execCompCommit (rx : Rx) (r : CompRecord) (roster : List RosterEntry) (s : State) : Answer :=
  rosterFrame rx tyCommit (fun s =>
    let news := match s.vdev? r.vdev with
      | some v => epochNewer r.epoch v.epoch
      | none => true
    if !news then s
    else
      let s1 := s.applyCommit r roster
      let s2 : State := { s1 with vdevs := s1.vdevs.map (fun v => if v.number = r.vdev then { v with vdLat := r.vdLat.toNat } else v) }
      State.dropForeign (s2.afterLiveness s)) s

/-- ABORT: the proposal is dropped and its ranks go on. -/
def execCompAbort (rx : Rx) (r : CompRecord) (s : State) : Answer :=
  rosterFrame rx tyAbort (fun s => { s with proposals := s.proposals.filter (fun q => q.record.vdev != r.vdev) }) s

/-- REPLY: the outcome reaches the requester. -/
def execReply (rx : Rx) (r : CompRecord) (s : State) : Answer :=
  rosterFrame rx tyReply (fun s => s.finishCompose r.tag r.result.toNat r.epoch) s

/-! ## SYNC (R41, R415) -/

/-- A new keeper that has every answer: changes its predecessor had not committed are reported as abandoned, and requests
are taken up. -/
def State.finishSync (s : State) (vdev : BitVec 24) : State :=
  match s.vdev? vdev with
  | none => s
  | some v =>
    let open_ := s.proposals.filter (fun q => q.record.vdev == vdev && q.keeper != s.landing)
    let s1 : State := { s with proposals := s.proposals.filter (fun q => !open_.contains q) }
    let s2 := open_.foldl (fun s q =>
      let r : CompRecord := { q.record with result := BitVec.ofNat 8 coAborted, vdLat := 0 }
      let s := s.sendAll v.devices tyAbort (compBytes r)
      State.finishCompose (s.sendAll v.devices tyReply (compBytes r)) r.tag coAborted r.epoch) s1
    State.takeUp (s2.comps.length + 1) s2 vdev

/-- SYNC: at a new keeper an answer, which brings the highest epoch and a commit to deliver on; elsewhere a question,
answered with the epoch and a newer commit held. -/
def execRosterSync (rx : Rx) (vdev : BitVec 24) (epoch : Lane) (rec : Option CompRecord) (s : State) : Answer :=
  rosterFrame rx tySync (fun s => match s.vdev? vdev with
    | none => s
    | some v =>
      if s.isKeeper v ∧ v.syncOut.contains rx.src then
        let s1 := s.updVdev vdev (fun v => { v with syncOut := v.syncOut.filter (· != rx.src) })
        let s2 := match rec with
          | some r => if epochNewer r.epoch v.epoch then
              let t := s1.applyCommit r []
              (match t.vdev? vdev with
               | some w => t.sendAll w.devices tyCommit (compBytes r)
               | none => t)
            else s1
          | none =>
            if epochNewer epoch v.epoch then s1.updVdev vdev (fun v => { v with epoch := epoch })
            else if epochNewer v.epoch epoch then
              (match v.lastCommit with
               | some c => s1.sendSeq rx.src tyCommit 0 (compBytes c) none
               | none => s1)
            else s1
        match s2.vdev? vdev with
        | some w => if w.syncOut.isEmpty then s2.finishSync vdev else s2
        | none => s2
      else
        let held := match v.lastCommit with
          | some c => if epochNewer c.epoch epoch then some c else none
          | none => none
        s.sendSeq rx.src tySync 0 (syncBytes vdev v.epoch held) none) s

/-! ## COMPOSE (R554) -/

/-- The composition record of a block. -/
def State.composeRec (s : State) (b : Nat) : CompRecord where
  op := BitVec.ofNat 8 (s.arg b 0x10 1)
  role := BitVec.ofNat 8 (s.arg b 0x11 1)
  landing := BitVec.ofNat 16 (s.arg b 0x12 2)
  part := BitVec.ofNat 8 (s.arg b 0x14 1)
  rank := BitVec.ofNat 16 (s.arg b 0x16 2)
  vdev := BitVec.ofNat 24 (s.arg b 0x18 4)
  tag := BitVec.ofNat 32 (s.arg b 0x1C 4)
  epoch := 0
  result := 0
  vdLat := 0

/-- COMPOSE: the record goes to the keeper, or is handled here where this device is keeper or a virtual device is created by
a partition of its own. The answer follows with the outcome; a device without a landing number joins no roster, and answers
ABORTED (R408; log entry 54). -/
def State.runCompose (s : State) (b : Nat) : State :=
  let r := s.composeRec b
  if s.arg b 0x15 1 ≠ 0 ∨ 2 ^ 24 ≤ s.arg b 0x18 4 ∨ s.arg b 0x20 16 ≠ 0 ∨ !s.argsClear b [(0x10, 0x20), (0x30, 4)] then
    s.mailReply b mailBadArg []
  else
    let s1 : State := { s with composeWaits := s.composeWaits ++ [(r.tag, ⟨b, BitVec.ofNat 32 (s.arg b 4 4)⟩)] }
    let keeper := if s.landing = 0 then none else match s.vdev? r.vdev with
      | some v => s.keeper v
      | none => if r.op = BitVec.ofNat 8 opJoin then some r.landing else some s.landing
    match keeper with
    | some k =>
      if k = s.landing then s1.compRequest r s.landing
      else if (match s.peer? k with
        | some p => p.assoc.isSome
        | none => false) then s1.sendSeq k tyRequest 0 (compBytes r) none
      else s1.finishCompose r.tag coAborted 0
    | none => s1.finishCompose r.tag coAborted 0

def execCompose (busy : Option (BitVec 14)) (s : State) : Answer := mailCommand 5 busy State.runCompose s

end Sys2Proof.Machine
end

