-- ==== Sys2Proof/Machine/Fabric.lean ====
section
/-! DEFINITION. Data frames of the reliable transport and the notices between copies of a manifest (R257, R278, R279, R281,
R346, R426, R525, R531). -/

namespace Sys2Proof.Machine

/-- A data frame of another device: discarded and counted where it is none of the protocol, discarded during tenant removal; not
taken, so that its device sends it again, where it waits for a reserved region or for room to be held (R247, R281); otherwise
performed where it is accepted and new. -/
def dataFrame (rx : Rx) (ty : Nat) (valid : Bool) (waits : State → Bool) (f : State → State) (s : State) : Answer :=
  whenChecked (fun s =>
    if !valid then (s.receive rx.toArrival false).1
    else if s.key.tenant = .removing then s
    else match s.accept rx ty with
      | (s1, false) => s1
      | (s1, true) =>
        if waits s1 then s1
        else match s1.takeSeq rx with
          | (s2, true) => f s2
          | (s2, false) => s2) s

/-- A frame of a movement stream has been performed here. -/
def State.performed (s : State) (l : Landing) (e : DataExt) : State :=
  s.updPeer l (fun p => p.perform e.mstream (addrPartNat e.addr.toNat) e.ord.toNat)

/-- What a frame meets at its home, if anything stops it. -/
def State.frameTrouble (s : State) (e : DataExt) (n : Nat) (write : Bool) : Option Trouble :=
  s.trouble (.dev e.addr.toNat e.edom.toNat) n write

/-- A frame performed nowhere: answered with WACK of zero bytes; an unpopulated address or a write to the window leaves an
entry; last-off writes held behind it go with it (R248, R249, R281, R525). DEDUCED (log entry 51, unsafe). -/
def State.refuseFrame (s : State) (l : Landing) (e : DataExt) (t : Trouble) : State :=
  let a := e.addr.toNat
  let entry (reason : Nat) : State := s.addFault (memFault reason ((addrPart a).map (·.val)) (lineOf a))
  let s1 := match t with
    | .decode => entry 5
    | .window => entry 6
    | .misuse r => s.misuse r
    | _ => s
  State.sendWack (s1.squashFrame l e.mstream (addrPartNat a) e.ord.toNat) l e.move.toNat 0

/-- Whether a frame waits for a reserved region, or for room to be held (R247, R281). -/
def State.notTaken (s : State) (rx : Rx) (e : DataExt) (n : Nat) (write : Bool) : Bool :=
  s.frameTrouble e n write == some .waits ||
  (rx.lastOff && s.holdFull ((Place.dev e.addr.toNat 0).dest s.landing) 0 && (match s.peer? rx.src with
    | some p => !p.performedBelow e.mstream (addrPartNat e.addr.toNat) e.prior.toNat &&
        !p.refusedBelow e.mstream (addrPartNat e.addr.toNat) e.prior.toNat
    | none => false))

/-- Perform a write of another device at its home, or hold it behind the earlier frames of its stream; it is discarded where one of those
was squashed (R279, R281). -/
def State.frameStore (s : State) (rx : Rx) (e : DataExt) (data : List Byte) (kind : HeldKind) : State :=
  let place : Place := .dev e.addr.toNat e.edom.toNat
  let part := addrPartNat e.addr.toNat
  match s.frameTrouble e data.length true with
  | some t => s.refuseFrame rx.src e t
  | none =>
    let early := match s.peer? rx.src with
      | some p => !p.performedBelow e.mstream part e.prior.toNat
      | none => false
    let lost := match s.peer? rx.src with
      | some p => p.refusedBelow e.mstream part e.prior.toNat
      | none => false
    if rx.lastOff && lost then State.sendWack (s.squashFrame rx.src e.mstream part e.ord.toNat) rx.src e.move.toNat 0
    else if rx.lastOff && early then
      { s with
        held := s.held ++ [⟨s.nextHeld, some rx.src, ⟨coreIdOf 0 0, 0, 0, 0, 0⟩, e.mstream, e.prior.toNat, place, data, kind,
          e.move.toNat, e.ord.toNat⟩]
        nextHeld := s.nextHeld + 1 }
    else s.homeWrite rx.src e.mstream e.ord.toNat e.move.toNat place data kind

/-- Whether the data of a WRITE or RDATA has a length the frame admits (R422). -/
def dataLenOk (n : Nat) : Bool := decide (64 ≤ n) && decide (n ≤ 4064) && n % 64 == 0

/-- WRITE. -/
def execFrameWrite (rx : Rx) (ext : DataExt) (data : List Byte) (s : State) : Answer :=
  dataFrame rx tyWrite (dataLenOk data.length) (fun s => s.notTaken rx ext data.length true) (fun s => s.frameStore rx ext data .data) s

/-- An event word gains the operand; a flag takes it (R422, R426). -/
def State.atomicStore (s : State) (rx : Rx) (e : DataExt) (operand : Word) : State :=
  s.frameStore rx e (leBytes 8 operand.toNat) (if e.op = 0 then .eventAdd else .flag)

/-- ATOMIC: an OP other than event add and flag write is no frame of the protocol. -/
def execAtomic (rx : Rx) (ext : DataExt) (operand : Word) (s : State) : Answer :=
  dataFrame rx tyAtomic (decide (ext.op.toNat ≤ 1)) (fun s => s.notTaken rx ext 8 true) (fun s => s.atomicStore rx ext operand) s

/-- Send read data back in frames of at most `writeLines` lines. -/
def State.sendRdata (s : State) (l : Landing) (e : DataExt) (data : List Byte) : State :=
  (indexed (chunksOf (64 * writeLines) (data.length / 64 + 1) data)).foldl (fun s c =>
    let x : DataExt := { e with addr := e.addr + BitVec.ofNat 48 (64 * writeLines * c.1), ord := 0, prior := 0, len := 0 }
    s.sendSeq l tyRdata 0 (dataExtBytes x ++ c.2) none) s

/-- READ: LEN is a multiple of 64 up to 65,536. -/
def execFrameRead (rx : Rx) (ext : DataExt) (s : State) : Answer :=
  let n := ext.len.toNat
  dataFrame rx tyRead (decide (0 < n) && decide (n ≤ 65536) && n % 64 == 0) (fun s => s.notTaken rx ext n false) (fun s =>
    match s.frameTrouble ext n false with
    | some t => s.refuseFrame rx.src ext t
    | none => match s.placeRead (.dev ext.addr.toNat ext.edom.toNat) n with
      | (s1, .inl bs) => State.sendRdata (s1.performed rx.src ext) rx.src ext bs
      | (s1, .inr line) =>
        let s2 := State.listUe (s1.addFault (memFault 1 ((addrPart line).map (·.val)) line)) line
        State.sendWack (s2.performed rx.src ext) rx.src ext.move.toNat 0) s

/-- A movement that updates a flag, with nothing left, is complete; others retire at MOVEMENT_RETIRE. -/
def State.settleUpdate (s : State) (id : Nat) : State :=
  match s.move? id with
  | some m => if m.group = 16 ∧ s.moveDone m then s.retireMove m else s
  | none => s

/-- What remains of an outstanding read after data for part of it has arrived. -/
def readRest (r : Landing × Nat × Nat × Place) (a n : Nat) : List (Landing × Nat × Nat × Place) :=
  let before := a - r.2.1
  let after := r.2.1 + r.2.2.1 - (a + n)
  (if before = 0 then [] else [(r.1, r.2.1, before, r.2.2.2)]) ++
  (if after = 0 then [] else [(r.1, a + n, after, r.2.2.2.plus (before + n))])

/-- The outstanding read of a movement that data of a frame answers. -/
def Movement.readFor (m : Movement) (l : Landing) (a n : Nat) : Option (Landing × Nat × Nat × Place) :=
  m.readsOut.find? (fun r => r.1 == l && decide (r.2.1 ≤ a) && decide (a + n ≤ r.2.1 + r.2.2.1))

/-- Whether data read for a last-off movement has to be held where there is no room: its frame is sent again (R281). -/
def State.rdataWaits (s : State) (rx : Rx) (e : DataExt) (n : Nat) : Bool :=
  match s.move? e.move.toNat with
  | some m => match m.readFor rx.src e.addr.toNat n with
    | some r => m.last && !r.2.2.2.isRemote && s.streamPending m.stream m.id (r.2.2.2.dest s.landing) && s.holdFull (r.2.2.2.dest s.landing) 0
    | none => false
  | none => false

/-- A mirror line that another device has sent back restores the primary line it was read for (R259). -/
def State.repairFrom (s : State) (m : Movement) (l : Landing) (a : Nat) (data : List Byte) : State :=
  match m.primaryOf l a with
  | some line => s.repairLine line (data.take 64)
  | none => s

/-- RDATA: the data goes to the rows that asked for it, and its lines enter the remote read buffer (R272); a mirror line restores its
primary (R259). -/
def execRdata (rx : Rx) (ext : DataExt) (data : List Byte) (s : State) : Answer :=
  dataFrame rx tyRdata (dataLenOk data.length) (fun s => s.rdataWaits rx ext data.length) (fun s =>
    let a := ext.addr.toNat
    let n := data.length
    match s.move? ext.move.toNat with
    | none => s
    | some m => match m.readFor rx.src a n with
      | none => s
      | some r =>
        let q := r.2.2.2.plus (a - r.2.1)
        let s1 := s.updMove m.id (fun m => { m with readsOut := m.readsOut.erase r ++ readRest r a n })
        let s2 := (s1.updCore m.core (fun x => x.bufferPut rx.src a data)).repairFrom m rx.src a data
        match s2.trouble q n true with
        | some .waits => s.troubleFault m.core m.manifest .waits q
        | some t => State.troubleFault { s2 with moves := s2.moves.filter (fun x => x.id != m.id) } m.core m.manifest t q
        | none => match s2.deliver m q data (m.priorOf q) with
          | (s3, none) => s3.settleUpdate m.id
          | (s3, some line) =>
            State.memUe { s3 with moves := s3.moves.filter (fun x => x.id != m.id) } m.manifest (some (corePart m.core).val) line) s

/-- The primary line, found uncorrectable, of a mirror line that a movement has asked another device for. -/
def Movement.mirrorAsked (m : Movement) (l : Landing) : Option Nat := m.readsOut.findSome? (fun r => if r.1 = l then m.primaryOf l r.2.1 else none)

/-- WACK: bytes of a movement are performed at their home; zero bytes tell that the far partition is under reset, and the
movement is squashed (R525); where they answer the read of a mirror line, both copies have failed (R259). What waits in the core's unit
queue may go on. -/
def execWack (rx : Rx) (move : Lane) (bytes : Lane) (s : State) : Answer :=
  whenChecked (fun s => State.drainAll (match s.acceptSeq rx tyWack with
    | (s1, false) => s1
    | (s1, true) => match s1.move? move.toNat with
      | none => s1
      | some m =>
        if bytes = 0 then
          let s2 : State := { s1 with moves := s1.moves.filter (fun x => x.id != m.id) }
          match m.mirrorAsked rx.src with
          | some line => s2.memUe m.manifest (some (corePart m.core).val) line
          | none => s2.moverFault m.manifest m.core none 3
        else
          let s2 := s1.updMove m.id (fun m => { m with
            writesOut := mapPut 0 m.writesOut rx.src.toNat (mapGet 0 m.writesOut rx.src.toNat - bytes.toNat) })
          s2.settleUpdate m.id)) s

/-- Another copy has ended with STOP, LIMIT or DEADLINE: so does this one at its next kernel boundary, once it has delivered a run
that it had finished (R346). -/
def State.partnerEnd (s : State) (m : Manifest) (st : Nat) : State :=
  let finished := match m.phase with
    | .runEnd _ _ _ => true
    | .running => m.running && m.leadersDone
    | _ => false
  if finished then s.updManifest m.id (fun m => { m with partner := some st }) else s.endAtBoundary m.id st 0

/-- PARTNER: FAULT abandons this copy too, unless it has restarted for the same fault; STOP, LIMIT and DEADLINE end it with
that status, and any other status with PARTNER, at its next kernel boundaries (R346, R531). -/
def execPartner (rx : Rx) (tag : Word) (vdev : BitVec 24) (status : Byte) (s : State) : Answer :=
  whenOn (fun s => match s.acceptSeq rx tyPartner with
    | (s1, false) => s1
    | (s1, true) => match s1.manifests.find? (fun m => m.vdev == vdev && m.tag == tag && !m.phase.over) with
      | none => s1
      | some m =>
        let st := status.toNat
        if st = stOk then s1
        else if st = stFault then (if m.ignoreFault then s1 else s1.partnerFault m.id)
        else if st = stStop ∨ st = stLimit ∨ st = stDeadline then s1.partnerEnd m st
        else s1.endAtBoundary m.id stPartner 0) s

end Sys2Proof.Machine
end

