-- ==== Sys2Proof/Machine/Handoff.lean ====
section
/-! DEFINITION. Handing over sequence state: holder, taker and keeper (R429 to R436), lost sequences and the handoff counters
(R435, R437). -/

namespace Sys2Proof.Machine

/-! ## The holder's request (R429, R554) -/

/-- The destination of entry `i` in a HANDOFF request, and its mirror destination. -/
def State.destEntry (s : State) (a i : Nat) : FabricAddr × FabricAddr :=
  let w := s.hostNat (a + 16 * i) 8
  let m := s.hostNat (a + 16 * i + 8) 8
  (⟨BitVec.ofNat 16 (bits w 63 48), BitVec.ofNat 48 w⟩, ⟨BitVec.ofNat 16 (bits m 63 48), BitVec.ofNat 48 m⟩)

/-- The fabric address of a storage word of this device's map. -/
def State.fabricOf (s : State) (w : Word) : FabricAddr :=
  ⟨if storageLanding w = 0 then s.landing else BitVec.ofNat 16 (storageLanding w), BitVec.ofNat 48 (storageAddr w)⟩

/-- The arguments of HANDOFF are in range: one span, every destination on the taker. DEDUCED (log entry 91, unsafe). -/
def State.handoffArgsOk (s : State) (b : Nat) : Bool :=
  let key := s.arg b 0x10 8
  let kind := s.arg b 0x19 1
  let count := s.arg b 0x1A 2
  let taker := s.arg b 0x1C 2
  let dests := s.arg b 0x20 8
  s.argsClear b [(0x10, 8), (0x18, 1), (0x19, 1), (0x1A, 2), (0x1C, 2), (0x20, 8), (0x30, 4)] &&
  keyOk key && keyLine key == 0 && decide (s.arg b 0x18 1 < 16) && decide (kind ≤ 1) && decide (1 ≤ count) &&
  decide (count ≤ 128) && (kind == 0 || count == 1) && decide (keyBlock key % 256 + count ≤ 256) &&
  usable (BitVec.ofNat 16 taker) && hostAddrOk dests 16 &&
  (List.range count).all (fun i =>
    let d := s.destEntry dests i
    d.1.landing.toNat == taker && (d.2 == ⟨0, 0⟩ || d.2.landing.toNat == taker))

/-- The sources of a handoff, and the size of what is copied; none where an entry is not Committed or the page is absent. -/
def State.handoffSources (s : State) (slot : Nat) (r : HandoffRecord) : State × Option (List FabricAddr × Nat) :=
  if r.kind = 1 then
    match s.findPage (blockName slot r.key.toNat) with
    | (s1, .page w) => (s1, some ([s1.fabricOf (BitVec.ofNat 64 w)], 4096))
    | (s1, _) => (s1, none)
  else
    let f (acc : State × Option (List FabricAddr × Nat)) (n : BlockName) : State × Option (List FabricAddr × Nat) :=
      match acc.1.lookup n, acc.2 with
      | (s1, .entry e), some (l, _) =>
        if e.state = stCommitted then (s1, some (l ++ [s1.fabricOf e.storage], (s1.classRec slot e.cls).blockBytes)) else (s1, none)
      | (s1, _), _ => (s1, none)
    (handoffNames slot r).foldl f (s, some ([], 0))

/-- Entries of a handoff go from Committed to In transit. -/
def State.transitEntries (s : State) (slot : Nat) (r : HandoffRecord) : State :=
  if r.kind = 1 then s
  else (handoffNames slot r).foldl (fun s n => match s.lookup n with
    | (s1, .entry e) => s1.putEntry n { e with state := stInTransit }
    | (s1, .ue) => s1) s

/-- The millisecond of the holder's and the taker's timer, in beats. -/
def hoTimerBeats : Nat := 1000000

/-- HANDOFF: refused as BUSY with 16 held, and as STATE where an entry is not Committed or the slot holds no virtual device;
else the entries are In transit and OFFER goes to the taker. A handoff to this device itself copies at once. -/
def State.runHandoff (s : State) (b : Nat) : State :=
  if !s.handoffArgsOk b then s.mailReply b mailBadArg []
  else if 16 ≤ s.handoffsHeld.length then s.mailReply b hoBusy []
  else
    let slot := s.arg b 0x18 1
    let count := s.arg b 0x1A 2
    let taker : Landing := BitVec.ofNat 16 (s.arg b 0x1C 2)
    let ds := (List.range count).map (s.destEntry (s.arg b 0x20 8))
    match s.slotVdev slot with
    | none => s.mailReply b mailState []
    | some v =>
      let r0 : HandoffRecord := ⟨s.nextHid + 1, s.landing, taker, BitVec.ofNat 64 (s.arg b 0x10 8), BitVec.ofNat 16 count,
        BitVec.ofNat 8 (s.arg b 0x19 1), 0, v.epoch, v.number, [], 0, ds.map (·.2)⟩
      match s.handoffSources slot r0 with
      | (s1, none) => s1.mailReply b mailState []
      | (s1, some (srcs, n)) =>
        let r : HandoffRecord := { r0 with pairs := srcs.zip (ds.map (·.1)), bytes := n }
        let here := taker == s.landing
        let h : Handoff := ⟨r, if here then .copying else .offered, s.beat + hoTimerBeats, false, false, b, slot⟩
        let s2 := s1.transitEntries slot r
        let s3 : State := { s2 with handoffsHeld := s2.handoffsHeld ++ [h], nextHid := s2.nextHid + 1 }
        if here then s3 else s3.sendSeq taker tyOffer 0 (handoffBytes r) none

def execHandoff (busy : Option (BitVec 14)) (s : State) : Answer := mailCommand 6 busy State.runHandoff s

/-! ## Frames (R417, R430, R431) -/

def State.heldBy? (s : State) (hid : Lane) : Option Handoff := s.handoffsHeld.find? (fun h => h.record.hid == hid)
def State.takenBy? (s : State) (hid : Lane) (holder : Landing) : Option Handoff :=
  s.handoffsTaken.find? (fun h => h.record.hid == hid && h.record.holder == holder)
def State.updHeld (s : State) (hid : Lane) (f : Handoff → Handoff) : State :=
  { s with handoffsHeld := s.handoffsHeld.map (fun h => if h.record.hid = hid then f h else h) }
def State.updTaken (s : State) (hid : Lane) (holder : Landing) (f : Handoff → Handoff) : State :=
  { s with handoffsTaken := s.handoffsTaken.map (fun h => if h.record.hid = hid ∧ h.record.holder = holder then f h else h) }
def State.dropTaken (s : State) (h : Handoff) : State := { s with handoffsTaken := s.handoffsTaken.filter (fun x => x != h) }

/-- Send a handoff frame: the record with the epoch in force. -/
def State.sendHo (s : State) (dst : Landing) (ty : Nat) (r : HandoffRecord) (info : Nat) : State :=
  let epoch := match s.vdev? r.vdev with
    | some v => v.epoch
    | none => r.epoch
  s.sendSeq dst ty 0 (handoffHeadBytes { r with info := BitVec.ofNat 8 info, epoch := epoch }) none

/-- Whether a frame carries an epoch older than this device's for its virtual device (R417). -/
def State.epochOld (s : State) (r : HandoffRecord) : Bool := match s.vdev? r.vdev with
  | some v => epochNewer v.epoch r.epoch
  | none => false

/-- A handoff frame: performed where accepted and new, and where it names no handoff whose outcome is kept. -/
def hoFrame (rx : Rx) (ty : Nat) (r : HandoffRecord) (f : State → State) (s : State) : Answer :=
  rosterFrame rx ty (fun s => if (s.hoOutcome? r.hid r.holder).isSome then s else f s) s

/-- A destination is this device's own, in a partition that is Active or Staging. -/
def State.destOk (s : State) (a : FabricAddr) : Bool :=
  a.landing == s.landing && (match addrPart a.addr.toNat with
    | some p => (s.part p).state == .active || (s.part p).state == .staging
    | none => false)

/-- OFFER. DEDUCED (log entry 56, unsafe). -/
def execHoOffer (rx : Rx) (rec : HandoffRecord) (s : State) : Answer :=
  hoFrame rx tyOffer rec (fun s =>
    if s.epochOld rec then s
    else if !rec.pairs.all (fun p => s.destOk p.2) then State.keepOutcome (s.sendHo rx.src tyRefuse rec 0) rec 1
    else { s with handoffsTaken := s.handoffsTaken ++ [⟨rec, .copying, 0, false, false, 0, 0⟩] }) s

/-- Read a block's bytes where it lies: on this device, or on another, whose bytes this device's state does not hold. -/
def State.copyRead (s : State) (a : FabricAddr) (n : Nat) : State × (List Byte ⊕ Nat) :=
  if a.landing = s.landing then s.readBytes a.addr.toNat n 0
  else (s.tick, .inl ((List.range n).map (fun i => Config.remoteByte s.free (a.addr.toNat + i))))

/-- Copy every pair and its mirror: the state, and an uncorrectable line where one is met. -/
def State.copyPairs (s : State) (r : HandoffRecord) : State × Option Nat :=
  (indexed r.pairs).foldl (fun acc p => match acc.2 with
    | some line => (acc.1, some line)
    | none => match acc.1.copyRead p.2.1 r.bytes with
      | (s1, .inr line) => (s1, some line)
      | (s1, .inl bs) => match s1.writeBytes p.2.2.addr.toNat 0 bs with
        | (s2, some line) => (s2, some line)
        | (s2, none) => match r.mirrors[p.1]? with
          | some m => if m.landing = s2.landing then s2.writeBytes m.addr.toNat 0 bs else (s2, none)
          | none => (s2, none)) (s, none)

/-- An uncorrectable source line is listed with its entry (R257). -/
def State.copyUe (s : State) (line : Nat) : State :=
  State.listUe (s.addFault (memFault 1 ((addrPart line).map (·.val)) line)) line

/-- HANDOFF_COPY_DONE: every copy is written, and TAKE is sent; a destination no longer fit, or an uncorrectable source,
refuses. A handoff within the device ends here. -/
def execHandoffCopyDone (hid : Lane) (holder : Landing) (s : State) : Answer :=
  whenOn (fun s =>
    if s.ferryDown then s
    else if holder = s.landing then
      match s.heldBy? hid with
      | none => s
      | some h =>
        if h.state ≠ .copying ∨ h.record.taker ≠ s.landing ∨ h.copied then s
        else if !h.record.pairs.all (fun p => s.destOk p.2) then s.endHandoffOld h hoRefused
        else match s.copyPairs h.record with
          | (s1, some line) => (s1.copyUe line).endHandoffOld h hoRefused
          | (s1, none) =>
            State.finishTakes (s1.updHeld hid (fun h => { h with state := .handed, copied := true }))
    else match s.takenBy? hid holder with
      | none => s
      | some h =>
        if h.state ≠ .copying then s
        else if !h.record.pairs.all (fun p => s.destOk p.2) then
          State.keepOutcome ((s.sendHo holder tyRefuse h.record 0).dropTaken h) h.record 1
        else match s.copyPairs h.record with
          | (s1, some line) => State.keepOutcome (((s1.copyUe line).sendHo holder tyRefuse h.record 0).dropTaken h) h.record 1
          | (s1, none) =>
            State.updTaken (s1.sendHo holder tyTake h.record 0) hid holder (fun h =>
              { h with state := .taking, timer := s.beat + hoTimerBeats, copied := true })) s

/-- TAKE: recorded as acknowledged; ACK is sent. -/
def execHoTake (rx : Rx) (rec : HandoffRecord) (s : State) : Answer :=
  hoFrame rx tyTake rec (fun s => match s.heldBy? rec.hid with
    | none => s
    | some h =>
      if s.epochOld rec ∨ h.state ≠ .offered ∨ h.record.taker ≠ rx.src then s
      else State.updHeld (s.sendHo rx.src tyAck h.record 0) rec.hid (fun h =>
        { h with state := .handed, acked := true, timer := s.beat + hoTimerBeats })) s

/-- ACK: DONE is sent, and the taker is done. -/
def execHoAck (rx : Rx) (rec : HandoffRecord) (s : State) : Answer :=
  hoFrame rx tyAck rec (fun s => match s.takenBy? rec.hid rec.holder with
    | none => s
    | some h =>
      if h.state ≠ .taking ∨ h.record.holder ≠ rx.src then s
      else State.keepOutcome ((s.sendHo rx.src tyDone h.record 0).dropTaken h) h.record 0) s

/-- DONE: the TAKE completes, after the movements that resolved the entries under their old generation (R216). -/
def execHoDone (rx : Rx) (rec : HandoffRecord) (s : State) : Answer :=
  hoFrame rx tyDone rec (fun s => match s.heldBy? rec.hid with
    | none => s
    | some h =>
      if h.state ≠ .handed ∨ h.record.taker ≠ rx.src then s
      else State.finishTakes (s.updHeld rec.hid (fun h => { h with copied := true }))) s

/-- REFUSE: the entries stay where they were. -/
def execHoRefuse (rx : Rx) (rec : HandoffRecord) (s : State) : Answer :=
  hoFrame rx tyRefuse rec (fun s => match s.heldBy? rec.hid with
    | none => s
    | some h => if h.state ≠ .offered ∨ h.record.taker ≠ rx.src then s else s.endHandoffOld h hoRefused) s

/-! ## Disputes (R430 to R432, R436) -/

/-- The keeper of a handoff's virtual device, in this device's view. -/
def State.hoKeeper (s : State) (r : HandoffRecord) : Option Landing := match s.vdev? r.vdev with
  | some v => s.keeper v
  | none => none

/-- A party applies a decision: 0 NEW, 1 OLD. A holder whose record was lost returns the entries the record names. -/
def State.applyDecision (s : State) (r : HandoffRecord) (outcome : Nat) : State :=
  if r.holder = s.landing then
    match s.heldBy? r.hid with
    | some h =>
      if outcome = 0 then State.finishTakes (s.updHeld r.hid (fun h => { h with state := .handed, copied := true }))
      else s.endHandoffOld h hoReturned
    | none => match s.vdev? r.vdev with
      | some v => match v.slot with
        | some i => if (s.hoOutcome? r.hid r.holder).isSome then s else (s.returnEntries i.val r).keepOutcome r 1
        | none => s
      | none => s
  else match s.takenBy? r.hid r.holder with
    | some h => (s.dropTaken h).keepOutcome h.record outcome
    | none => s

def State.dispute? (s : State) (hid : Lane) (holder : Landing) : Option HoDispute :=
  s.hoDisputes.find? (fun d => d.record.hid == hid && d.record.holder == holder)
def State.updDispute (s : State) (r : HandoffRecord) (f : HoDispute → HoDispute) : State :=
  { s with hoDisputes := s.hoDisputes.map (fun d => if d.record.hid = r.hid ∧ d.record.holder = r.holder then f d else d) }

/-- Send DECIDE to each live party that has not applied it; this device applies it itself. -/
def State.sendDecide (s : State) (d : HoDispute) (new : Bool) : State :=
  [d.record.holder, d.record.taker].foldl (fun s l =>
    if d.applied.contains l ∨ !s.isLive l then s
    else if l = s.landing then
      State.updDispute (s.applyDecision d.record (if new then 0 else 1)) d.record (fun d => { d with applied := l :: d.applied })
    else s.sendHo l tyDecide d.record (if new then 0 else 1)) s

/-- The keeper decides: NEW if either party has reported the acknowledged TAKE, else OLD. -/
def State.decideDispute (s : State) (d : HoDispute) : State :=
  let d1 := { d with decided := some d.acked, since := s.beat }
  State.sendDecide (s.updDispute d.record (fun _ => d1)) d1 d.acked

/-- What this device reports of a handoff: ACKED, NONE, or neither. -/
def State.ownReport (s : State) (r : HandoffRecord) : Nat :=
  if r.holder = s.landing then (match s.heldBy? r.hid with
    | some h => if h.acked then 1 else 0
    | none => 2)
  else (match s.takenBy? r.hid r.holder with
    | some _ => 0
    | none => 2)

/-- A report reaches the keeper from a party: the first is put to the other party; a second, or a dead party, decides; one
after the decision says it has been applied. -/
def State.keeperReport (s : State) (r : HandoffRecord) (src : Landing) (info : Nat) : State :=
  let other := if src = r.holder then r.taker else r.holder
  match s.dispute? r.hid r.holder with
  | none =>
    let d : HoDispute := ⟨r, bitAt info 0, s.beat, none, [], [src]⟩
    let s1 : State := { s with hoDisputes := s.hoDisputes ++ [d] }
    if other = s.landing then s1.decideDispute { d with acked := d.acked || bitAt (s1.ownReport r) 0, reports := [src, other] }
    else if !s1.isLive other then s1.decideDispute d
    else s1.sendHo other tyReport r 0
  | some d => match d.decided with
    | some _ => s.updDispute r (fun d => { d with applied := if d.applied.contains src then d.applied else src :: d.applied })
    | none =>
      let d1 : HoDispute := { d with acked := d.acked || bitAt info 0, reports := src :: d.reports }
      if d.reports.contains src then s.updDispute r (fun _ => d1) else s.decideDispute d1

/-- A disputing party reports to the keeper. -/
def State.sendReport (s : State) (r : HandoffRecord) : State :=
  match s.hoKeeper r with
  | some k => if k = s.landing then s.keeperReport r s.landing (s.ownReport r) else s.sendHo k tyReport r (s.ownReport r)
  | none => s

/-- REPORT: at the keeper from a party; at a party, the keeper's query, answered with a report, or with DECIDE where the
outcome is kept. -/
def execHoReport (rx : Rx) (rec : HandoffRecord) (s : State) : Answer :=
  rosterFrame rx tyReport (fun s =>
    let party := rx.src == rec.holder || rx.src == rec.taker
    if s.hoKeeper rec = some s.landing ∧ party then
      match s.hoOutcome? rec.hid rec.holder, s.dispute? rec.hid rec.holder with
      | some o, none => s.sendHo rx.src tyDecide rec o
      | _, _ => s.keeperReport rec rx.src rec.info.toNat
    else if rec.holder = s.landing ∨ rec.taker = s.landing then
      match s.hoOutcome? rec.hid rec.holder with
      | some o => s.sendHo rx.src tyDecide rec o
      | none => s.sendHo rx.src tyReport rec (s.ownReport rec)
    else s) s

/-- DECIDE: at a party, applied and reported back, or discarded where the outcome is kept; at the keeper, a party's kept
outcome. -/
def execHoDecide (rx : Rx) (rec : HandoffRecord) (s : State) : Answer :=
  rosterFrame rx tyDecide (fun s =>
    let outcome := rec.info.toNat % 2
    match s.dispute? rec.hid rec.holder with
    | some d =>
      (match d.decided with
       | some _ => s.updDispute rec (fun d => { d with applied := rx.src :: d.applied })
       | none => s.decideDispute { d with acked := outcome == 0, applied := [rx.src] })
    | none =>
      if (s.hoOutcome? rec.hid rec.holder).isSome then s
      else if rec.holder = s.landing ∨ rec.taker = s.landing then
        State.sendHo (s.applyDecision rec outcome) rx.src tyReport rec (if rec.holder = s.landing then s.ownReport rec % 2 else 0)
      else s) s

/-- HANDOFF_TIMER: a party whose timer ends disputes and reports. DEDUCED (log entry 57, unsafe). -/
def execHandoffTimer (hid : Lane) (holder : Landing) (asHolder : Bool) (s : State) : Answer :=
  whenOn (fun s =>
    if s.ferryDown then s
    else if asHolder then
      match s.heldBy? hid with
      | none => s
      | some h =>
        if holder ≠ s.landing ∨ h.copied ∨ (h.state ≠ .offered ∧ h.state ≠ .handed) ∨ s.beat < h.timer then s
        else State.sendReport (State.countReg (s.updHeld hid (fun h => { h with state := .disputed })) R_ROS_HO_DISPUTED) h.record
    else match s.takenBy? hid holder with
      | none => s
      | some h =>
        if h.state ≠ .taking ∨ s.beat < h.timer then s
        else State.sendReport (State.countReg (s.updTaken hid holder (fun h => { h with state := .disputed })) R_ROS_HO_DISPUTED) h.record) s

/-- REPORT_REPEAT: every 200 µs while the dispute lasts. -/
def execReportRepeat (hid : Lane) (holder : Landing) (asHolder : Bool) (s : State) : Answer :=
  whenOn (fun s =>
    let h? := if asHolder then (if holder = s.landing then s.heldBy? hid else none) else s.takenBy? hid holder
    match h? with
    | some h => if h.state = .disputed ∧ !s.ferryDown then s.sendReport h.record else s
    | none => s) s

/-- KEEPER_QUERY_TIMEOUT: the wait for the other party's report ends. -/
def execKeeperQueryTimeout (hid : Lane) (holder : Landing) (s : State) : Answer :=
  whenOn (fun s => match s.dispute? hid holder with
    | some d => if d.decided.isNone ∧ d.since + 1000000 ≤ s.beat then s.decideDispute d else s
    | none => s) s

/-- DECIDE_REPEAT: every 100 µs to the parties that have not applied the decision; it is kept for 10 ms. -/
def execDecideRepeat (hid : Lane) (holder : Landing) (s : State) : Answer :=
  whenOn (fun s => match s.dispute? hid holder with
    | some d => match d.decided with
      | some new =>
        let parties := [d.record.holder, d.record.taker].filter s.isLive
        if parties.all d.applied.contains && decide (d.since + 10000000 ≤ s.beat) then
          { s with hoDisputes := s.hoDisputes.filter (fun x => x != d) }
        else s.sendDecide d new
      | none => s
    | none => s) s

/-! ## Lost sequences and counters (R435, R437) -/

/-- Free every entry of a sequence in a slot, with its storage (R222). -/
def State.freeSeq (s : State) (slot : Nat) (seq : Nat) : State :=
  (s.mapEntries.filter (fun e => e.1.slot == slot && e.1.seq == seq)).foldl (fun s e =>
    State.releaseStorage (s.putEntry e.1 .free) slot e.2) s

/-- ROS_LOST_CLEAR: one entry, or every entry and LOST_ALL of the slot in ROS_PEER_SEL. -/
def execRosLostClear (value : Lane) (s : State) : Answer :=
  hostWrite R_ROS_LOST_CLEAR (fun s =>
    if value.getLsbD 7 then
      let slot := slotOf (s.regField R_ROS_PEER_SEL 19 16)
      let seqs := s.lost.toList.filterMap (fun x => match x with
        | some (v, q) => if v = slot then some q.toNat else none
        | none => none)
      let s1 := seqs.foldl (fun s q => s.freeSeq slot.val q) s
      { s1 with
        lost := s1.lost.map (fun x => match x with
          | some (v, q) => if v = slot then none else some (v, q)
          | none => none)
        lostAll := s1.lostAll &&& ~~~((1 : BitVec 16) <<< slot.val) }
    else
      let i : Fin 64 := ⟨bits value.toNat 5 0, by simp only [bits]; omega⟩
      match s.lost[i] with
      | some (v, q) =>
        let s1 := s.freeSeq v.val q.toNat
        { s1 with lost := s1.lost.set i none }
      | none => s) s

/-- ROS_HO_COUNT_READ: TAKEN, DISPUTED or REFUSED. -/
def execRosHoCountRead (counter : Fin 3) (s : State) : Answer := hostReadClear (R_ROS_HO_TAKEN + 4 * counter.val) s

/-! ## PEER_DEAD (R24, R413 to R416, R425, R427, R432, R434, R436, R501) -/

/-- DEAD_US, at least 100, in beats. -/
def State.deadBeats (s : State) : Nat := 1000 * max 100 (s.regField R_ROS_DEAD 15 0)

/-- Every member a dead peer carries is stranded: manifests that name one are voided, movements to it are squashed. -/
def State.strandPeer (s : State) (l : Landing) : State :=
  let ranksGone : List (BitVec 24 × Nat) := s.vdevs.flatMap (fun v => v.members.filterMap (fun m => match m.host with
    | some h => if h.1 = l then some (v.number, m.rank) else none
    | none => none))
  let s1 := (s.manifests.filter (fun m => ranksGone.any (fun g => g.1 == m.vdev && decide (m.rankBase ≤ g.2) &&
      decide (g.2 < m.rankBase + m.rankCount)))).foldl (fun s m => s.voidManifest m.id 4) s
  let s2 := (List.range 16).foldl (fun s p => s.unhost l p) s1
  let victims := s2.moves.filter (fun m => m.endpoints.any (fun e => match e with
    | .remote x _ _ => x == l
    | _ => false))
  State.moverFaults { s2 with moves := s2.moves.filter (fun x => !victims.any (fun m => m.id == x.id)) }
    (victims.map (fun m => (m.manifest, m.core, 1)))

/-- What the keeper does for the changes and disputes that concern a dead device. -/
def State.keeperDrop (s : State) (l : Landing) : State :=
  let s1 := (s.comps.filter (fun c => c.takenUp && c.record.landing == l)).foldl State.abortChange s
  let s2 : State := { s1 with comps := s1.comps.map (fun (c : CompChange) => { c with votesOut := c.votesOut.filter (· != l) }) }
  (s2.hoDisputes.filter (fun d => d.decided.isNone && (d.record.holder == l || d.record.taker == l))).foldl
    State.decideDispute s2

/-- PEER_DEAD. -/
def execPeerDead (peer : Landing) (s : State) : Answer :=
  whenOn (fun s => match s.peer? peer with
    | none => s
    | some p =>
      if !p.live ∨ s.beat < p.lastHeard + s.deadBeats + s.delayTo peer then s
      else
        let s1 := s.linkFault 2 peer
        let s2 := s1.updPeer peer (fun p => { p with live := false, myLats := [], epochs := [] })
        let s3 := s2.resetStream peer true
        let s4 := s3.updPeer peer (fun p => { p with assoc := p.assoc.map (fun _ => Assoc.fresh) })
        let s5 := (s4.strandPeer peer).poolFail (fun w => storageLanding w == peer.toNat)
        let s6 := (s5.adoptReference.afterLiveness s).keeperDrop peer
        s6.vdevs.foldl (fun s v => if s.isKeeper v && v.syncOut.isEmpty then s.finishSync v.number else s) s6) s

end Sys2Proof.Machine
end

