-- ==== Sys2Proof/Machine/Host.lean ====
section
/-! DEFINITION. The UCIe link, interrupt moderation, sharing modes and instances, and instance commands (R438 to R458). -/

namespace Sys2Proof.Machine

/-! ## The link (R438 to R442) -/

/-- Whether the start has reached UCIe training: step 4 has begun, or the start has failed and the boot ROM trains it (R441). -/
def State.linkMayTrain (s : State) : Bool :=
  s.devState != devStarting || decide (4 ≤ s.regField R_FER_STATUS 27 24) || decide (3 ≤ s.regField R_FER_STATUS 31 28)

/-- The modules that train: the largest power of two of those that work, in ascending number (R439). -/
def trainModules (works : Nat) : List Nat :=
  let ok := maskIndices works 4
  ok.take (if 4 ≤ ok.length then 4 else if 2 ≤ ok.length then 2 else ok.length)

def maskOf (l : List Nat) : Nat := (l.map (fun i => 2 ^ i)).foldl (· + ·) 0

/-- M of an admitted manifest recomputed at the present capability and host rate. -/
def State.recomputeM (s : State) (m : Manifest) : Nat := match m.obj, s.vdev? m.vdev with
  | some o, some v => (s.bounds m o m.bookedParts (s.linkOf m v)).m
  | some o, none => (s.bounds m o m.bookedParts (s.linkBeats m m.bookedParts true)).m
  | none, _ => m.nowM

/-- Whether a manifest was admitted promised with HOST_KIB in its bound records. -/
def Manifest.carriesHost (m : Manifest) : Bool := m.promised && !m.bookedParts.isEmpty && !m.phase.over && (match m.obj with
  | some o => o.kernels.any (fun k => match k.bound with
    | some b => b.hostKib != 0
    | none => false)
  | none => false)

/-- A retraining to a lower bandwidth strikes the promised manifests that carry HOST_KIB (R440). -/
def State.lowerRate (s : State) : State :=
  (s.manifests.filter (fun m => m.carriesHost)).foldl (fun s m =>
    let now := s.recomputeM m
    let s := s.useAllowance m.id
    let s := s.updManifest m.id (fun m => { m with nowM := now })
    if m.booked - m.bookM < now then s.voidManifest m.id 2 else s) s

/-- Whether a held access publishes a structure (R285). -/
def HostHeld.publishes : HostHeld → Bool
  | .write _ _ _ => true
  | _ => false

/-- What was held while the link was down is performed in order (R442). -/
def State.releaseHostWrites (s : State) : State :=
  s.hostHeld.foldl (fun s (w : HostHeld) => match w with
    | .write a bs vectors => s.publish a bs vectors
    | .signal m status => s.signalNow m status
    | .count t => s.returnTicket t) { s with hostHeld := [] }

/-- The link trains on a set of modules, at 16 GT/s where the chiplet selects it or GEN_LIMIT holds it there. -/
def State.linkUp (s : State) (fast : Bool) (ms : List Nat) : State :=
  let fast := fast && !s.regBit R_HST_LINK_CTRL 1
  let bw := ms.length * (if fast then 256 else 128)
  let old := s.linkBw
  let trains := satAdd (s.regField R_HST_LINK_STATUS 7 0) 0xFF
  let s := s.setReg R_HST_LINK_STATUS (BitVec.ofNat 64 (2 ^ 31 + (if fast then 2 else 1) * 2 ^ 16 + maskOf ms * 2 ^ 12 + trains))
  let s := s.setReg R_HST_HOST_RATE (BitVec.ofNat 64 (625 * bw / 1024))
  let s := State.releaseHostWrites { s with hostUp := true, linkBw := bw }
  if bw < old then s.lowerRate else s

/-- HOST_LINK_UP: the modules that train, and what was held. -/
def execHostLinkUp (fast : Bool) (modules : BitVec 4) (s : State) : Answer :=
  whenChecked (fun s =>
    let ms := trainModules modules.toNat
    if s.hostUp || !s.linkMayTrain || ms.isEmpty then s else s.linkUp fast ms) s

/-- The link goes down: an entry, the squash of movements with a host endpoint and the restart of their jobs, and from now on
publications are held (R442). -/
def State.hostDown (s : State) : State :=
  if !s.hostUp then s
  else
    let s := State.setRegField { s with hostUp := false, hostDownAt := s.beat } R_HST_LINK_STATUS 31 12 0
    let hit := s.moves.filter (fun (m : Movement) => m.endpoints.any (fun e => match e with
      | .host _ => true
      | _ => false))
    let s := s.addFault { FaultEntry.bare 6 2 with flags := if hit.isEmpty then 0 else 1 }
    let s : State := { s with moves := s.moves.filter (fun (m : Movement) => !hit.any (fun h => h.id == m.id)) }
    hit.foldl (fun s (m : Movement) => s.strike m.manifest (some (corePart m.core).val)) s

/-- HOST_LINK_DOWN. -/
def execHostLinkDown (s : State) : Answer := whenOn State.hostDown s

/-- RETRAIN: a write of HST_LINK_CTRL; with RETRAIN the link is handled as down until it has trained. -/
def execRetrain (value : Lane) (s : State) : Answer :=
  hostWrite R_HST_LINK_CTRL (fun s =>
    let s := s.setRegField R_HST_LINK_CTRL 1 1 (bits value.toNat 1 1)
    if value.getLsbD 0 then s.hostDown else s) s

/-! ## Interrupt moderation (R446) -/

/-- IRQ_MODERATION_EXPIRE: a deferred raise, several having become one, at the end of the interval. -/
def execIrqModerationExpire (vector : Fin 64) (s : State) : Answer :=
  whenOn (fun s =>
    let v := vector.val
    let due : Bool := match mapGet none s.irqLast v with
      | some t => decide (t + 1000 * s.regField R_HST_IRQ_MOD 15 0 ≤ s.beat)
      | none => true
    if s.irqDeferred.contains v ∧ due ∧ s.hostUp then
      { s with irqDeferred := s.irqDeferred.filter (fun x => x != v), irqLast := mapPut none s.irqLast v (some s.beat)
               out := s.out ++ s.vectorOuts v }
    else s) s

/-! ## Sharing modes (R448 to R451) -/

/-- Whether the mode may change now (R449). -/
def State.modeIdle (s : State) : Bool :=
  allBerths.all (fun b => (s.berth b).state == .empty) && s.instCmds.isEmpty && (s.sharing != modeMediated || s.vfCount == 0)

/-- Every HST_INST and HST_BERTH register takes its reset value in a mode. -/
def State.resetInstances (s : State) (mode : Nat) : State :=
  let s := (List.range 64).foldl (fun s i => s.setReg (instReg i) (if i = 0 ∧ mode = modeUnshared then regReset R_HST_INST else 0)) s
  (List.range 48).foldl (fun s b => s.setReg (berthReg b) 0) s

/-- DEV_MODE_WRITE. A write that leaves SHARING as it is changes no mode and is not refused. DEDUCED (log entry 59, unsafe). -/
def execDevModeWrite (value : Lane) (s : State) : Answer :=
  hostWrite R_DEV_MODE (fun s =>
    let s := if value.getLsbD 31 then s.setRegField R_DEV_MODE 31 31 0 else s
    let mode := bits value.toNat 1 0
    if mode = s.sharing then s
    else if mode = 3 ∨ !s.modeIdle then s.setRegField R_DEV_MODE 31 31 1
    else State.resetInstances (s.setRegField R_DEV_MODE 1 0 mode) mode) s

/-- VF_ENABLE_SET: honoured in mediated mode only; 64 functions at most (R450). -/
def execVfEnableSet (numVfs : Nat) (s : State) : Answer :=
  whenOn (fun s =>
    if !s.hostUp || s.sharing != modeMediated || s.vfCount != 0 || decide (64 < numVfs) then s
    else
      let s : State := { s with vfCount := numVfs }
      (List.range numVfs).foldl (fun s i =>
        if s.instCmds.any (fun (c : InstCmd) => c.inst == i) then s
        else (s.setRegField (instReg i) 63 63 1).setInstState i instRunning) s) s

/-- A write of HST_INST (R449 to R451, R454, R458). -/
def State.writeInst (s : State) (i : Nat) (value : Word) : State :=
  let parts (s : State) : State := s.setRegField (instReg i) 15 0 (wbits value 15 0)
  if s.instState i = instResetting ∨ s.instState i = instRemoving then s
  else if s.sharing = modeUnshared then (if i = 0 then s else parts s)
  else if s.sharing = modeMediated then parts s
  else
    let pasid := wbits value 35 16
    if (List.range 64).any (fun j => j != i && s.instValid j && s.instPasid j == pasid) then s.setRegField R_HST_INST_STATUS 29 29 1
    else
      let s := parts (s.setRegField (instReg i) 35 16 pasid)
      if value.getLsbD 63 then (s.setRegField (instReg i) 63 63 1).setInstState i instRunning else s

/-- INSTANCE_WRITE. -/
def execInstanceWrite (inst : Fin 64) (value : Word) (s : State) : Answer :=
  hostWrite (instReg inst.val) (fun s => s.writeInst inst.val value) s

/-! ## Berths that empty (R317, R455, R511) -/

/-- BERTH_EMPTY. A berth that an instance command unloads leaves a fence of its context, with ALL (step 5 of R455); it waits while 16 are
pending, as no more are issued (R308, R310). -/
def execBerthEmpty (berth : BerthId) (s : State) : Answer :=
  whenOn (fun s =>
    if (s.berth berth).state = .unloading ∧ !s.berthBusy berth then
      let fences := s.instCmds.any (fun (c : InstCmd) => c.berths.contains berth)
      if fences && decide (16 ≤ s.fences.length) then s else
      let s1 := if fences then s.issueFence (s.berth berth).context (fun _ => true) else s
      State.removalCheck ((s1.emptyBerth berth).brtDone berth)
    else s) s

/-! ## Instance commands (R455 to R458) -/

def instDone : Nat := 0
def instBadOp : Nat := 1
def instAbsentResult : Nat := 2

/-- The berths of an instance. -/
def State.instBerths (s : State) (i : Nat) : List BerthId := allBerths.filter (fun b => s.berthInst b == some i)

/-- Manifests in the berths of a command. -/
def State.cmdManifests (s : State) (c : InstCmd) : List Manifest := s.manifests.filter (fun m => c.berths.contains m.berth)

/-- Every kernel of the command's manifests stops at once on every rank, and they complete with REVOKED (step 2, SQUASH). -/
def State.squashInst (s : State) (c : InstCmd) : State :=
  (s.cmdManifests c).foldl (fun s m => s.endManifest m.id stRevoked 0) s

/-- Hedge trailing work is squashed in either case (step 2). -/
def State.squashTrailing (s : State) (c : InstCmd) : State :=
  (s.cmdManifests c).foldl (fun s m =>
    if m.phase.over ∧ !m.trailersDone then
      State.updManifest (s.stopKernels m.id) m.id (fun m => { m with ranks := m.ranks.map (fun (r : RankRun) => { r with dropped := true }) })
    else s) s

/-- Steps 1 and 2 of a command, and the unloading of its berths that step 5 completes. -/
def State.beginInst (s : State) (i : Nat) (squash remove : Bool) : State :=
  let bs := s.instBerths i
  let live := bs.filter (fun b => (s.berth b).state != .empty)
  let c : InstCmd := ⟨i, squash, remove, live, live.map (fun b => (s.berth b).context), []⟩
  let s : State := { s with instCmds := s.instCmds ++ [c] }
  let s := s.setInstState i (if remove then instRemoving else instResetting)
  let s := (s.setRegField R_HST_INST_STATUS 31 31 1).setRegField R_HST_INST_STATUS 5 0 i
  let s := live.foldl (fun s b => s.revoke b 0xFFFF) s
  let s := (if squash then s.squashInst c else s).squashTrailing c
  live.foldl State.startUnload s

/-- A SQUASH joins a DRAIN of the same instance in progress: it continues as SQUASH (R458). -/
def State.convertInst (s : State) (c : InstCmd) (remove : Bool) : State :=
  let c1 : InstCmd := { c with squash := true, remove := c.remove || remove }
  let s : State := { s with instCmds := s.instCmds.map (fun (x : InstCmd) => if x.inst = c.inst then c1 else x) }
  State.squashInst (s.setInstState c.inst (if c1.remove then instRemoving else instResetting)) c1

/-- A command of an instance, as written or as a reset brings it. -/
def State.instCommand (s : State) (i : Nat) (squash remove : Bool) : State :=
  match s.instCmds.find? (fun (c : InstCmd) => c.inst == i) with
  | some c => if squash ∧ !c.squash then s.convertInst c remove else s.setRegField R_HST_INST_STATUS 30 30 1
  | none =>
    if !s.instCmds.isEmpty then s.setRegField R_HST_INST_STATUS 30 30 1
    else if !s.instValid i then
      (s.setRegField R_HST_INST_STATUS 5 0 i).setRegField R_HST_INST_STATUS 7 6 instAbsentResult
    else s.beginInst i squash remove

/-- Squash commands of every valid instance, in ascending number: those with one in progress continue as SQUASH. -/
def State.squashAll (s : State) (remove : Bool) : State :=
  (List.range 64).foldl (fun s i =>
    if !s.instValid i then s
    else match s.instCmds.find? (fun (c : InstCmd) => c.inst == i) with
      | some c => s.convertInst c remove
      | none => s.beginInst i true remove) s

def execResetDrain (inst : Fin 64) (s : State) : Answer :=
  hostWrite R_HST_INST_CMD (fun s => s.instCommand inst.val false false) s
def execResetSquash (inst : Fin 64) (s : State) : Answer :=
  hostWrite R_HST_INST_CMD (fun s => s.instCommand inst.val true false) s
def execRemoveDrain (inst : Fin 64) (s : State) : Answer :=
  hostWrite R_HST_INST_CMD (fun s => s.instCommand inst.val false true) s
def execRemoveSquash (inst : Fin 64) (s : State) : Answer :=
  hostWrite R_HST_INST_CMD (fun s => s.instCommand inst.val true true) s

/-- FUNCTION_LEVEL_RESET: of a virtual function that exists. -/
def execFunctionLevelReset (inst : Fin 64) (s : State) : Answer :=
  whenOn (fun s =>
    if !s.hostUp || s.sharing != modeMediated || !s.instValid inst.val then s else s.instCommand inst.val true false) s

/-- CXL_RESET. -/
def execCxlReset (s : State) : Answer := whenOn (fun s => if s.hostUp then s.squashAll false else s) s

/-- VF_ENABLE_CLEAR: every valid instance is removed as under REMOVE_SQUASH (R458). -/
def execVfEnableClear (s : State) : Answer :=
  whenOn (fun s =>
    if !s.hostUp || s.sharing != modeMediated || s.vfCount == 0 then s
    else State.squashAll { s with vfCount := 0 } true) s

/-- HOST_LINK_TIMEOUT: 100 ms without the link; held publications are discarded (R442). DEDUCED (log entry 58, unsafe). -/
def execHostLinkTimeout (s : State) : Answer :=
  whenOn (fun s =>
    if s.hostUp || s.linkBw == 0 || decide (s.beat < s.hostDownAt + 100000000) then s
    else State.squashAll { s with hostHeld := s.hostHeld.filter (fun w => !w.publishes) } false) s

/-- Whether a write of a squashed movement of the command is still unacknowledged (step 3). -/
def State.cmdWrites (s : State) (c : InstCmd) : Bool :=
  s.peers.any (fun (p : Peer) => p.txUnacked.any (fun (t : TxFrame) => match t.move with
    | some id => c.moves.contains id
    | none => false))

/-- Whether the waits of a command's steps 3 to 5 have ended. -/
def State.cmdReady (s : State) (c : InstCmd) : Bool :=
  (s.cmdManifests c).isEmpty && !s.cmdWrites c && c.berths.all (fun b => (s.berth b).state == .empty) &&
  !s.fences.any (fun (f : Fence) => c.contexts.contains f.context)

/-- Step 6. In unshared mode instance 0 reads as R449 gives whatever the command. -/
def State.endInst (s : State) (c : InstCmd) : State :=
  let bs := s.instBerths c.inst
  let s : State := { s with instCmds := s.instCmds.filter (fun (x : InstCmd) => x.inst != c.inst) }
  let s := if s.sharing = modeUnshared then s.setReg (instReg c.inst) (regReset R_HST_INST)
    else
      let s := bs.foldl (fun s b => s.setRegField (berthReg b.val) 6 0 0) s
      if c.remove then ((s.setInstState c.inst instAbsent).setRegField (instReg c.inst) 63 63 0).setRegField (instReg c.inst) 15 0 0
      else s.setInstState c.inst instRunning
  let s := s.setRegField R_HST_INST_STATUS 31 31 (if s.instCmds.isEmpty then 0 else 1)
  let s := s.setRegField R_HST_INST_STATUS 7 6 instDone
  State.removalCheck (s.publish 0 [] [2])

/-- INSTANCE_COMMAND_DONE. -/
def execInstanceCommandDone (inst : Fin 64) (s : State) : Answer :=
  whenOn (fun s => match s.instCmds.find? (fun (c : InstCmd) => c.inst == inst.val) with
    | some c => if s.cmdReady c then s.endInst c else s
    | none => s) s

end Sys2Proof.Machine
end

