-- ==== Sys2Proof/Machine/Power.lean ====
section
/-! DEFINITION. The grant, loans, rails, pace caps, droops and temperature (R461 to R487, R564). -/

namespace Sys2Proof.Machine

/-! ## The budget (R461 to R464) -/

def grantW (s : State) : Nat := s.regField R_PWR_GRANT 15 0
def floorW (s : State) : Nat := s.regField R_PWR_GRANT 31 16
def lentW (s : State) : Nat := s.regField R_PWR_LOANS 15 0
def borrowedW (s : State) : Nat := s.regField R_PWR_LOANS 31 16

/-- The greatest power of the package, in watts (R2). -/
def wattsMax : Nat := 1000

/-- Show the loans and B = G − LENT + BORROWED, at most 1,000 W (R464). -/
def State.showBudget (s : State) : State :=
  let s := s.setReg R_PWR_LOANS (BitVec.ofNat 64 (s.power.borrowed.length * 65536 + s.power.lent.length))
  let b := min wattsMax (grantW s + borrowedW s - lentW s)
  if b = budgetW s then s else s.refillAll.setRegField R_PWR_GRANT 47 32 b

/-- G below the floor a promised manifest recorded: its GRANT cause, and BELOW_FLOOR (R463). -/
def State.checkFloors (s : State) : State :=
  (s.manifests.filter (fun m => m.promised && decide (grantW s < m.floor))).foldl (fun s m =>
    (s.voidManifest m.id 1).setRegField R_PWR_STATUS 31 31 1) s

/-- G and F in force change, and everything they bound follows. -/
def State.setGrant (s : State) (g f : Nat) : State :=
  State.holdFloor (State.checkFloors (State.showBudget ((s.setRegField R_PWR_GRANT 15 0 g).setRegField R_PWR_GRANT 31 16 f)))

/-- The values that have come due, in the order of their beats; the last of them. -/
def lastDue (now : Nat) (l : List (Nat × Nat)) (old : Nat) : Nat :=
  (((l.filter (fun p => decide (p.1 ≤ now))).foldl (fun (acc : Nat × Nat) (p : Nat × Nat) => if acc.1 ≤ p.1 then p else acc) (0, old))).2

/-- Announced values whose beat has come take effect (R462). -/
def State.applyGrants (s : State) : State :=
  let g := lastDue s.beat s.power.pendingG (grantW s)
  let f := lastDue s.beat s.power.pendingF (floorW s)
  let later (p : Nat × Nat) : Bool := decide (s.beat < p.1)
  let s : State := { s with power := { s.power with
    pendingG := s.power.pendingG.filter later, pendingF := s.power.pendingF.filter later } }
  if g = grantW s ∧ f = floorW s then s else s.setGrant g f

def rackLanding (s : State) : Landing := BitVec.ofNat 16 (s.regField R_PWR_RACK 31 16)

/-- Beats by which a decrease of G is announced (R462). -/
def decreaseNotice : Nat := 250000

/-- RACK_GRANT: from the rack manager alone, with F not above G. DEDUCED (log entry 62, unsafe). -/
def execRackGrant (rx : Rx) (watts floor : BitVec 16) (effective : Word) (s : State) : Answer :=
  whenOn (fun s => match s.acceptSeq rx tyGrant with
    | (s1, false) => s1
    | (s1, true) =>
      let g := min wattsMax watts.toNat
      let f := min wattsMax floor.toNat
      if rackLanding s1 = 0 ∨ rx.src ≠ rackLanding s1 ∨ g < f then s1
      else
        let at_ := if g < grantW s1 then max effective.toNat (s1.beat + decreaseNotice) else effective.toNat
        let s2 : State := { s1 with power := { s1.power with
          lastGrant := s1.beat
          pendingG := s1.power.pendingG ++ [(at_, g)]
          pendingF := s1.power.pendingF ++ [(effective.toNat, f)] } }
        State.applyGrants (s2.setRegField R_PWR_STATUS 29 29 0)) s

/-- GRANT_EFFECTIVE. -/
def execGrantEffective (s : State) : Answer := whenOn State.applyGrants s

/-- RACK_TIMEOUT: G falls to F, and RACK_SILENT sets (R461). -/
def execRackTimeout (s : State) : Answer :=
  whenOn (fun s =>
    if s.beat < s.power.lastGrant + 1000 * s.regField R_PWR_RACK 15 0 then s
    else (s.setGrant (floorW s) (floorW s)).setRegField R_PWR_STATUS 29 29 1) s

/-! ## GRANT frames (R465) -/

def subGrant : Nat := 1
def subReport : Nat := 2
def subSlack : Nat := 3
def subLoanOrder : Nat := 4
def subLoan : Nat := 5

/-- The 32 bytes of a GRANT payload. -/
def grantBytes (sub watts floor peer beat vdev value : Nat) (energy : Word) : List Byte :=
  [BitVec.ofNat 8 sub, 0] ++ leBytes 2 watts ++ leBytes 2 floor ++ leBytes 2 peer ++ leBytes 8 beat ++ leBytes 4 vdev ++
  leBytes 4 value ++ leBytes 8 energy.toNat

/-- The average power of the window before a beat (R464). -/
def State.windowPower (s : State) : Nat := (Config.powerW (s.beat / 100000)).toNat

/-- RACK_REPORT_TIMER. -/
def execRackReportTimer (s : State) : Answer :=
  whenOn (fun s =>
    if rackLanding s = 0 then s
    else s.sendSeq (rackLanding s) tyGrant 0
      (grantBytes subReport (budgetW s) (heldFloorW s) 0 s.beat 0 s.windowPower (s.reg R_PWR_ENERGY_DEVICE)) none) s

/-! ## Loans (R466 to R468) -/

def State.shiftEn (s : State) : Bool := s.regBit R_PWR_CTRL 0

/-- Whether the device can lend 1 W now (R462, R468). -/
def State.canLend (s : State) : Bool :=
  decide (heldFloorW s + lentW s + 1 ≤ grantW s) && s.power.borrowed.isEmpty &&
  s.power.pendingG.all (fun p => decide (grantW s ≤ p.2))

/-- Obey an order to lend 1 W to a device, or ignore it (R467). -/
def State.lend (s : State) (vdev : BitVec 24) (borrower : Landing) : State :=
  match s.vdev? vdev with
  | some v => (match v.slot with
    | some slot =>
      if !s.shiftEn ∨ !s.canLend then s
      else
        let expiry := s.beat + 200000
        let back := expiry + s.regField (R_SUB_LINKLAT + 4 * slot.val) 31 0
        let s1 : State := { s with power := { s.power with lent := s.power.lent ++ [(back, 1)] } }
        s1.showBudget.sendSeq borrower tyGrant 0 (grantBytes subLoan 1 0 0 expiry vdev.toNat 0 0) none
    | none => s)
  | none => s

/-- Insert a report by falling slack; equal slacks keep the lower landing number first. -/
def insertSlack (r : Landing × Nat) : List (Landing × Nat) → List (Landing × Nat)
  | [] => [r]
  | x :: t => if x.2 < r.2 ∨ (x.2 = r.2 ∧ r.1.toNat < x.1.toNat) then r :: x :: t else x :: insertSlack r t

/-- Pairs of lender and borrower: highest with lowest, up to eight, until slacks differ by less than the hysteresis. -/
def slackPairs (hyst : Nat) : Nat → List (Landing × Nat) → List (Landing × Landing)
  | 0, _ => []
  | fuel + 1, l => match l, l.getLast? with
    | h :: t@(_ :: _), some e => if h.2 < e.2 + hyst then [] else (h.1, e.1) :: slackPairs hyst fuel t.dropLast
    | _, _ => []

/-- The keeper orders loans from the interval's reports (R467). -/
def State.orderLoans (s : State) (v : VDev) : State :=
  let reports := (s.power.slackReports.filter (fun r => r.1 == v.number)).map (·.2)
  let ranked := reports.foldl (fun acc r => insertSlack r acc) []
  let s1 : State := { s with power := { s.power with slackReports := s.power.slackReports.filter (fun r => r.1 != v.number) } }
  (slackPairs (s.regField R_PWR_SHIFT 31 16) 8 ranked).foldl (fun s p =>
    if p.1 = s.landing then s.lend v.number p.2
    else s.sendSeq p.1 tyGrant 0 (grantBytes subLoanOrder 1 0 p.2.toNat 0 v.number.toNat 0 0) none) s1

/-- A report of a device; a later one of the interval replaces it. -/
def State.noteSlack (s : State) (vdev : BitVec 24) (l : Landing) (value : Nat) : State :=
  { s with power := { s.power with
    slackReports := s.power.slackReports.filter (fun r => !(r.1 == vdev && r.2.1 == l)) ++ [(vdev, l, value)] } }

/-- What SLACK_INTERVAL does for one virtual device: the report of this device's compute members, and, at the keeper, the
orders. -/
def State.slackOf (slack : List (SlotId × BitVec 32)) (s : State) (v : VDev) : State :=
  let compute := v.members.any (fun m => !m.store && (match m.host with
    | some h => h.1 == s.landing
    | none => false))
  let value := match v.slot with
    | some x => ((slack.find? (fun p => p.1 == x)).map (fun p => p.2.toNat)).getD 0
    | none => 0
  match s.keeper v with
  | some k =>
    if k = s.landing then (if compute then s.noteSlack v.number s.landing value else s).orderLoans v
    else if compute then s.sendSeq k tyGrant 0 (grantBytes subSlack 0 0 0 s.beat v.number.toNat value 0) none else s
  | none => s

/-- SLACK_INTERVAL: `slack` gives, by slot, the fraction of core-beats spent at wait points. DEDUCED (log entry 63, unsafe). -/
def execSlackInterval (slack : List (SlotId × BitVec 32)) (s : State) : Answer :=
  whenOn (fun s => if !s.shiftEn then s else s.vdevs.foldl (State.slackOf slack) s) s

/-- SLACK: a report to this keeper. -/
def execSlack (rx : Rx) (vdev : BitVec 24) (value : Lane) (s : State) : Answer :=
  whenOn (fun s => match s.acceptSeq rx tyGrant with
    | (s1, false) => s1
    | (s1, true) => match s1.vdev? vdev with
      | some v => if s1.isKeeper v then s1.noteSlack vdev rx.src value.toNat else s1
      | none => s1) s

/-- LOAN_ORDER. -/
def execLoanOrder (rx : Rx) (vdev : BitVec 24) (peer : Landing) (s : State) : Answer :=
  whenOn (fun s => match s.acceptSeq rx tyGrant with
    | (s1, false) => s1
    | (s1, true) => s1.lend vdev peer) s

/-- LOAN: a watt arrives, unless it has expired or passes a limit (R467, R468, R485). -/
def execLoan (rx : Rx) (vdev : BitVec 24) (expiry : Word) (s : State) : Answer :=
  whenOn (fun s => match s.acceptSeq rx tyGrant with
    | (s1, false) => s1
    | (s1, true) =>
      if !s1.shiftEn || (s1.vdev? vdev).isNone || decide (expiry.toNat ≤ s1.beat) ||
          decide (s1.regField R_PWR_SHIFT 15 0 < borrowedW s1 + 1) ||
          decide (wattsMax < grantW s1 + borrowedW s1 + 1 - lentW s1) then s1
      else State.showBudget { s1 with power := { s1.power with borrowed := s1.power.borrowed ++ [expiry.toNat] } }) s

/-- LOAN_EXPIRE. -/
def execLoanExpire (s : State) : Answer :=
  whenOn (fun s => State.showBudget { s with power := { s.power with
    borrowed := s.power.borrowed.filter (fun t => decide (s.beat < t)) } }) s

/-- LENT_EXPIRE. -/
def execLentExpire (s : State) : Answer :=
  whenOn (fun s => State.showBudget { s with power := { s.power with
    lent := s.power.lent.filter (fun p => decide (s.beat < p.1)) } }) s

/-! ## Rails (R469 to R473, R479) -/

def dieParts (die : Fin 2) : List PartId := allParts.filter (fun p => p.val / 8 == die.val)
def dieReg (die : Fin 2) : Nat := R_PWR_DIE + 4 * die.val
def floorStep (s : State) (p : PartId) : Nat := s.regField (R_PWR_PART + 16 * p.val) 20 16
def railStep (s : State) (die : Fin 2) : Nat := s.regField (dieReg die) 20 16

/-- The highest floor among a die's partitions that are not stranded. -/
def highFloor (s : State) (die : Fin 2) : Nat :=
  maxOf (((dieParts die).filter (fun p => (s.part p).state != .stranded)).map (floorStep s))

/-- The lowest step whose slow-corner pace is at least a cap in M steps/s; 24 where none is. -/
def stepFor (cap : Nat) : Nat := ((List.range 25).find? (fun k => decide (10 * cap ≤ slowPace k))).getD 24

/-- The rail step a die is to have: with FIXED the step of FIXED_CAP, otherwise the highest that fits; the floors hold while B
is at least the held floor. -/
def railGoal (s : State) (die : Fin 2) (fit : Nat) : Nat :=
  let want := if s.regBit (dieReg die) 31 then stepFor (s.regField (dieReg die) 15 0) else min fit 24
  if heldFloorW s ≤ budgetW s then max want (highFloor s die) else want

/-- The pace cap of a partition in tenths of a million steps per second (R471, R473, R478, R481).
DESIGN CHOICE (log entry 87, unsafe). -/
def paceCap (s : State) (p : PartId) : Nat :=
  let die : Fin 2 := ⟨p.val / 8, by omega⟩
  let floorPace := slowPace (floorStep s p)
  let x := (s.tollRefill p).part p
  if x.thermalCap ≠ 0 then 10 * x.thermalCap
  else if 2 * x.tollReserved < (reserveDepth s p : Int) then floorPace
  else if s.regBit (dieReg die) 31 then 10 * s.regField (dieReg die) 15 0
  else max (10 * s.regField (R_PWR_PART + 16 * p.val) 15 0) floorPace

/-- The pace of a partition's cores: in a droop, STRETCH ÷ 256 of the effective cap (R480). DESIGN CHOICE (log entry 87,
unsafe). -/
def corePace (s : State) (p : PartId) : Nat :=
  if (s.part p).stretched then paceCap s p * s.regField R_PWR_DROOP 15 8 / 256 else paceCap s p

/-- RAIL_CHOICE: every 10 µs; `fits` is the highest step at which the estimate fits B. NEED_W is shown anew.
DEDUCED (log entry 64, unsafe). -/
def execRailChoice (die : Fin 2) (fits : Fin 25) (s : State) : Answer :=
  whenOn (fun s =>
    let goal := railGoal s die fits.val
    let step := railStep s die
    let need := (Config.needW s.free).toNat + sumReserve s
    let s := State.showShort (s.tick.setRegField R_PWR_POWER 31 16 need)
    { s with power := { s.power with
      railTarget := mapPut 0 s.power.railTarget die.val goal
      settling := mapPut false s.power.settling die.val (goal != step) } }) s

/-- RAIL_STEP_SETTLED: the rail has moved one step. -/
def execRailStepSettled (die : Fin 2) (s : State) : Answer :=
  whenOn (fun s =>
    let goal := mapGet 0 s.power.railTarget die.val
    let now := railStep s die
    if !mapGet false s.power.settling die.val ∨ goal = now then s
    else
      let next := if now < goal then now + 1 else now - 1
      let s := s.setRegField (dieReg die) 20 16 next
      { s with power := { s.power with settling := mapPut false s.power.settling die.val (next != goal) } }) s

/-! ## Commit (R14, R470, R471, R485, R486) -/

/-- The registers a commit covers, with the bits of each that are shadowed. -/
def pwrShadowed : List (Nat × List (Nat × Nat)) :=
  (R_PWR_DROOP, [(23, 0)]) :: (List.range 2).map (fun d => (R_PWR_DIE + 4 * d, [(31, 31), (15, 0)])) ++
  (List.range 16).flatMap (fun c => [(R_PWR_PART + 16 * c, [(20, 0)]), (R_PWR_BOOTH + 16 * c, [(31, 0)]), (R_PWR_RESERVE + 16 * c, [(31, 0)])])

def shadField (s : State) (off hi lo : Nat) : Nat := wbits (s.shad off) hi lo

/-- Whether the shadows pass every check. -/
def pwrCommitOk (s : State) : Bool :=
  let part (p : PartId) : Bool :=
    let off := 16 * p.val
    let fl := shadField s (R_PWR_PART + off) 20 16
    let cap := shadField s (R_PWR_PART + off) 15 0
    decide (fl ≤ 24) && (decide (floorStep s p ≤ fl) || s.bookedOn p.val == 0) && decide (1400 ≤ cap) && decide (cap ≤ 2500) &&
    decide (1024 ≤ shadField s (R_PWR_BOOTH + off) 23 0) && decide (1024 ≤ shadField s (R_PWR_RESERVE + off) 23 0)
  let die (d : Fin 2) : Bool :=
    let cap := shadField s (dieReg d) 15 0
    decide (1400 ≤ cap) && decide (cap ≤ 2300) && (!(s.shad (dieReg d)).getLsbD 31 ||
      (dieParts d).all (fun p => decide (slowPace (shadField s (R_PWR_PART + 16 * p.val) 20 16) ≤ 10 * cap)))
  let weight := allParts.foldl (fun acc p =>
    if (s.part p).state = .stranded then acc else acc + shadField s (R_PWR_BOOTH + 16 * p.val) 31 24) 0
  allParts.all part && die 0 && die 1 && weight != 0

/-- Bucket levels are kept, clipped to the depths in force. -/
def State.clipBuckets (s : State) : State := allParts.foldl (fun s p => s.updPart p (fun x => { x with
  tollReserved := min x.tollReserved (reserveDepth s p), tollGeneral := min x.tollGeneral (boothDepth s p) })) s

/-- PWR_COMMIT. -/
def execPwrCommit (value : Lane) (s : State) : Answer :=
  hostWrite R_PWR_COMMIT (fun s =>
    if !value.getLsbD 0 then s
    else if !pwrCommitOk s then s.setRegField R_PWR_STATUS 27 27 1
    else
      let t := pwrShadowed.foldl (fun (t : State) r => r.2.foldl (fun t b => t.setRegField r.1 b.1 b.2 (shadField s r.1 b.1 b.2)) t) s.refillAll
      let raised := allParts.any (fun p => decide (10 * t.regField (R_PWR_PART + 16 * p.val) 15 0 < slowPace (floorStep t p)))
      State.clipBuckets (if raised then t.setRegField R_PWR_STATUS 26 26 1 else t)) s

/-! ## Droop and temperature (R480, R481, R564) -/

/-- DROOP: the cluster paces at STRETCH ÷ 256, for HOLD × 16 beats after the droop clears. -/
def execDroop (part : PartId) (s : State) : Answer :=
  whenOn (fun s =>
    let hold := 16 * s.regField R_PWR_DROOP 23 16
    State.countReg (s.updPart part (fun x => { x with stretched := true, droopUntil := some (s.beat + hold) }))
      (R_PWR_DROOP_CNT + 4 * (part.val / 8))) s

/-- DROOP_HOLD_EXPIRE. -/
def execDroopHoldExpire (part : PartId) (s : State) : Answer :=
  whenOn (fun s => match (s.part part).droopUntil with
    | some t => if t ≤ s.beat then s.updPart part (fun x => { x with stretched := false, droopUntil := none }) else s
    | none => s) s

def execPwrDroopCntRead (die : Fin 2) (s : State) : Answer := hostReadClear (R_PWR_DROOP_CNT + 4 * die.val) s
def execPwrRsvShortRead (part : PartId) (s : State) : Answer := hostReadClear (R_PWR_RSV_SHORT + 16 * part.val) s

/-- Show a die's hottest junction. -/
def State.showTemp (s : State) (die : Fin 2) (celsius : BitVec 8) : State :=
  s.setRegField R_PWR_TEMP (8 * die.val + 7) (8 * die.val) celsius.toNat

/-- The pace cap that heat sets, in M steps/s. -/
def thermalPace : Nat := 1400

/-- THERMAL_OVER: above 105 °C the die's caps fall, with an entry; above 110 °C no kernel is dispatched on it. -/
def execThermalOver (die : Fin 2) (celsius : BitVec 8) (s : State) : Answer :=
  whenOn (fun s =>
    if celsius.toNat ≤ 105 then s
    else
      let s := s.showTemp die celsius
      let s := if mapGet false s.power.thermalDie die.val then s
        else
          let s := (s.setRegField R_PWR_STATUS 28 28 1).addFault (FaultEntry.bare 9 1)
          let s : State := { s with
            alerts := s.alerts ||| 1, power := { s.power with thermalDie := mapPut false s.power.thermalDie die.val true } }
          (dieParts die).foldl (fun s p => s.updPart p (fun x => { x with thermalCap := thermalPace })) s
      if 110 < celsius.toNat then { s with power := { s.power with hotDie := mapPut false s.power.hotDie die.val true } } else s) s

/-- THERMAL_RECOVER: both measures lift below 100 °C. -/
def execThermalRecover (die : Fin 2) (celsius : BitVec 8) (s : State) : Answer :=
  whenOn (fun s =>
    if 100 ≤ celsius.toNat then s
    else
      let s := s.showTemp die celsius
      let s := (dieParts die).foldl (fun s p => s.updPart p (fun x => { x with thermalCap := 0 })) s
      let s : State := { s with power := { s.power with
        thermalDie := mapPut false s.power.thermalDie die.val false, hotDie := mapPut false s.power.hotDie die.val false } }
      if mapGet false s.power.thermalDie 0 || mapGet false s.power.thermalDie 1 then s else s.setRegField R_PWR_STATUS 28 28 0) s

/-- THERMTRIP: the pin is asserted until PWRGD is deasserted. -/
def execThermtrip (s : State) : Answer :=
  whenOn (fun s =>
    if s.power.thermTrip then s
    else State.emit { s with power := { s.power with thermTrip := true }, alerts := s.alerts ||| 2 } .thermTrip) s

end Sys2Proof.Machine
end

