-- ==== Sys2Proof/Machine/Ferry.lean ====
section
/-! DEFINITION. The Ferryman: restart, heartbeat and shedding (R547 to R551). -/

namespace Sys2Proof.Machine

/-! States of FER_STATUS.STATE (R556). -/

def ferBoot : Nat := 0
def ferAssayer : Nat := 1
def ferStarting : Nat := 2
def ferRunning : Nat := 3
def ferRestarting : Nat := 4
def ferRecovery : Nat := 5

def State.ferState (s : State) : Nat := s.regField R_FER_STATUS 31 28
def State.setFerState (s : State) (st : Nat) : State := s.setRegField R_FER_STATUS 31 28 st

/-- Requests in progress in the mailbox complete with ABORTED: a block submitted and not yet answered, composition requests
and handoffs. The records of handoffs are lost, and their keepers resolve them (R551). -/
def State.abortMail (s : State) : State :=
  let blocks := s.composeWaits.map (fun w => w.2.block) ++ (s.handoffsHeld.filter (fun h => !h.copied)).map (fun h => h.block)
  let s1 : State := { s with composeWaits := [], handoffsHeld := s.handoffsHeld.filter (fun h => h.copied), handoffsTaken := [] }
  let s2 := blocks.foldl (fun s b => s.mailReply b mailAborted []) s1
  if s2.regBit R_FER_ACCEPT 31 then (s2.ferAccept accAccepted 0).mailReply s2.mailBlock mailAborted [] else s2

/-- The Ferryman area (R245) is zeroed, and the salvage records held there go with it (R529, R551). -/
def State.zeroFerryArea (s : State) : State :=
  let lo := dramBase + 15 * dramStride
  let s1 := s.zeroRange (lo + dataMib 15 * 0x100000) (lo + protectedBytes)
  allParts.foldl (fun s p => s.updPart p (fun x => { x with salvageHeld := [] })) s1

/-- A restart begins (R551): an entry, the area is zeroed, and from here the Ferryman serves nothing until it runs again.
DEDUCED (log entry 65, unsafe). -/
def State.ferryRestart (s : State) : State :=
  let s1 := (s.addFault (FaultEntry.bare 0x0C 2)).abortMail
  State.setFerState { s1.zeroFerryArea with ferryDown := true } ferRestarting

/-- FER_RESTART: ignored until DEV_STATE leaves STARTING (R555); in FAILED no Ferryman runs. -/
def execFerRestart (value : Lane) (s : State) : Answer :=
  hostWrite R_FER_RESTART (fun s => if value.getLsbD 31 ∧ s.devUp then s.ferryRestart else s) s

/-- An uncorrectable line of the Ferryman area (R257). -/
def State.ferryUe (s : State) : Option Nat :=
  (s.lineErrors.find? (fun e => addrKind e.1 == .ferry && rsDecode e.2 == .uncorrectable)).map (·.1)

/-- FERRY_HEARTBEAT: every 100 µs while the Ferryman runs. The first after a restart shows that it runs again. An uncorrectable line that
it meets in its area has its entry and restarts it (R257, R551). -/
def execFerryHeartbeat (s : State) : Answer :=
  whenOn (fun s =>
    let count (s : State) : State := s.setReg R_FER_HEARTBEAT (BitVec.ofNat 64 (((s.reg R_FER_HEARTBEAT).toNat + 1) % 2 ^ 32))
    if s.ferState = ferRunning ∧ !s.ferryDown then match s.ferryUe with
      | some line => State.ferryRestart ((s.addFault (memFault 1 (some 15) line)).listUe line)
      | none => count s
    else if s.ferState = ferRestarting ∧ (s.part 15).state ≠ .stranded then
      (count (State.setFerState { s with ferryDown := false } ferRunning)).brtResume
    else s) s

/-- FERRY_SHED: what FER_STATUS.SHED shows for the longest wait in classes 0 and 1 (R550). -/
def execFerryShed (waitUs : Nat) (s : State) : Answer :=
  whenOn (fun s => s.setRegField R_FER_STATUS 21 20 ((if 100 < waitUs then 1 else 0) + (if 500 < waitUs then 2 else 0))) s

/-- The answer a class 4 request gets: FERRY_BUSY while the class is shed (R550). -/
def State.busyClass4 (s : State) (busy : Option (BitVec 14)) : Option (BitVec 14) :=
  if s.regBit R_FER_STATUS 20 then some (busy.getD (Config.retryUs s.free)) else busy

end Sys2Proof.Machine
end

