-- ==== Sys2Proof/Machine/Keys.lean ====
section
/-! DEFINITION. Measurements, the key tree, key commands, attestation, bundles, debug, thawing and tenant removal (R488 to
R515). -/

namespace Sys2Proof.Machine

/-! ## Measurements and derivation (R489 to R492) -/

/-- MEAS[n] extended by a digest (R489), shown in KEY_MEAS. -/
def State.extendMeas (s : State) (n : Nat) (digest : List Byte) : State :=
  let m := hash 32 (s.key.meas.getD n [] ++ digest)
  let s1 : State := { s with key := { s.key with meas := listSet s.key.meas n m } }
  (List.range 4).foldl (fun s w => s.setReg (R_KEY_MEAS + 32 * n + 8 * w) (BitVec.ofNat 64 (leNat ((m.drop (8 * w)).take 8)))) s1

/-- K(P, g, L) of R491. DEDUCED (log entry 66, unsafe). -/
def deriveKey (parent : List Byte) (g : Nat) (l : List Byte) : List Byte :=
  hash 32 (parent ++ leBytes 4 g ++ leBytes 2 l.length ++ l)

/-- MR, from the seed and the measurements as they stand. -/
def State.measuredRoot (s : State) : List Byte := deriveKey s.key.seed 0 (label "root" ++ s.key.meas.flatten)

/-- The measurements close at the first command that closes them (R490). -/
def State.closeMeas (s : State) : State := match s.key.closed with
  | some _ => s
  | none => { s with key := { s.key with closed := some s.measuredRoot } }

def State.mr (s : State) : List Byte := s.key.closed.getD []
def State.identNode (s : State) : List Byte := deriveKey s.key.seed 0 (label "ident")
def State.attestNode (s : State) : List Byte := deriveKey s.mr 0 (label "attest")
def State.linkNode (s : State) : List Byte := deriveKey s.mr 0 (label "link")
def State.bindNode (s : State) : List Byte := deriveKey s.mr 0 (label "bind")
def State.sealNode (s : State) : List Byte := deriveKey s.mr 0 (label "seal")

/-- The seed of a node's ML-KEM pair. -/
def kemSeed (node : List Byte) : List Byte := hash 64 (node ++ label "kem")
def State.linkDigest (s : State) : List Byte := hash 32 (Config.kemPublic (kemSeed s.linkNode))
def State.bindDigest (s : State) : List Byte := hash 32 (Config.kemPublic (kemSeed s.bindNode))

/-- The next request of the random source (R496). -/
def State.nextRandom (s : State) : State × List Byte :=
  ({ s with key := { s.key with randoms := s.key.randoms + 1 } }, fitBytes 32 (Config.random s.key.randoms))

/-! ## KEY_TENANT and KEY_STATUS (R514) -/

def tenantCode : TenantState → Nat
  | .none => 0
  | .installed => 1
  | .removing => 2

def State.setTenant (s : State) (t : TenantState) (epoch : Nat) : State :=
  State.setRegField (State.setRegField { s with key := { s.key with tenant := t } } R_KEY_TENANT 29 28 (tenantCode t))
    R_KEY_TENANT 63 32 epoch

def keyOkResult : Nat := 0
def keyBadOp : Nat := 1
def keyState : Nat := 2
def keyFormat : Nat := 3
def keyKcv : Nat := 4
def keyTag : Nat := 5
def keyFull : Nat := 6
def keyNotMember : Nat := 7
def keyRoot : Nat := 8
def keyFerryBusy : Nat := 9

/-- A command answers. -/
def State.keyAnswer (s : State) (result retry : Nat) : State :=
  State.setRegField (State.setRegField (s.setRegField R_KEY_STATUS 31 31 0) R_KEY_STATUS 29 16 retry) R_KEY_STATUS 3 0 result

def State.keyBusy (s : State) : Bool := s.regBit R_KEY_STATUS 31

/-- A write of KEY_CMD: OP and PARAM are stored; GO starts the command, unless one is in progress. A write with another OP is
another command's. -/
def keyCommand (op : Nat) (value : Lane) (busy : Option (BitVec 14)) (run : State → State) (s : State) : Answer :=
  hostWrite R_KEY_CMD (fun s =>
    if bits value.toNat 27 24 ≠ op then s
    else
      let s := (s.setRegField R_KEY_CMD 27 24 op).setRegField R_KEY_CMD 15 0 (bits value.toNat 15 0)
      if !value.getLsbD 31 then s
      else if s.keyBusy then s.setRegField R_KEY_STATUS 30 30 1
      else if s.ferryDown then s
      else match busy with
        | some us => s.keyAnswer keyFerryBusy us.toNat
        | none => run s) s

def keyParam (s : State) : Nat := s.regField R_KEY_CMD 15 0
def keyArg (s : State) (i : Nat) : Nat := (s.reg (R_KEY_ARG0 + 8 * i)).toNat

/-- Commands that need a key derived from S: ROOT where there is none (R515). -/
def State.needRoot (s : State) (run : State → State) : State :=
  if s.key.rootFailed ∧ !s.key.debug then s.keyAnswer keyRoot 0 else run s

/-- Commands for an installed tenant. -/
def State.needTenant (s : State) (run : State → State) : State :=
  if s.key.tenant ≠ .installed then s.keyAnswer keyState 0 else run s

def State.hostZero (s : State) (a n : Nat) : Bool := (s.hostRead a n).all (fun b => b == 0)

/-! ## INSTALL (R500, R501) -/

/-- Whether a tenant record is well formed. -/
def State.tenantRecOk (s : State) (a : Nat) : Bool :=
  s.hostNat a 4 == 0x544E4554 && s.hostNat (a + 4) 2 == 1 && s.hostNat (a + 6) 2 == 0 && s.hostNat (a + 8) 4 != 0 &&
  s.hostNat (a + 0xC) 4 == 0 && s.hostZero (a + 0x668) 24

/-- The fabric secret a tenant record carries. -/
def State.fabricSecret (s : State) (a : Nat) : List Byte :=
  let ss := Config.kemDecap (kemSeed s.linkNode) (s.hostRead (a + 0x10) 1568)
  let kek := hash 32 (ss ++ label "ETB wrap" ++ s.hostRead (a + 8) 4)
  fitBytes 32 (Config.gcmOpen kek (List.replicate 12 0) (s.hostRead a 16) (s.hostRead (a + 0x630) 48))

/-- INSTALL. -/
def execInstall (value : Lane) (busy : Option (BitVec 14)) (tagOk kcvOk : Bool) (s : State) : Answer :=
  keyCommand 0 value busy (fun s =>
    if s.key.tenant ≠ .none then s.keyAnswer keyState 0
    else s.needRoot (fun s =>
      let s := s.closeMeas
      let a := keyArg s 0
      if !s.tenantRecOk a then s.keyAnswer keyFormat 0
      else if !tagOk then s.keyAnswer keyTag 0
      else if !kcvOk then s.keyAnswer keyKcv 0
      else
        let s1 : State := { s with key := { s.key with fabric := some (s.fabricSecret a) } }
        (s1.setTenant .installed (s.hostNat (a + 8) 4)).keyAnswer keyOkResult 0)) s

/-! ## Attestation (R498, R499) -/

/-- The 384 bytes of a report's body. -/
def State.reportBody (s : State) (nonce : List Byte) : List Byte :=
  leBytes 4 0x52545441 ++ leBytes 2 1 ++
  leBytes 2 ((if s.key.debug then 1 else 0) + (if s.key.tenant = .installed then 2 else 0)) ++
  leBytes 8 (s.reg R_DEV_SERIAL).toNat ++
  leBytes 4 (s.regField R_DEV_IDENT 15 0 + s.regField R_DEV_STEPPING 15 0 * 65536) ++ leBytes 4 s.tenantEpoch ++
  leBytes 8 s.beat ++ nonce ++ s.key.meas.flatten ++ s.linkDigest ++ s.bindDigest

/-- ATTEST: body and signature, the salt drawn from the random source. -/
def execAttest (value : Lane) (busy : Option (BitVec 14)) (s : State) : Answer :=
  keyCommand 2 value busy (fun s => s.needRoot (fun s =>
    let s := s.closeMeas
    let body := s.reportBody (s.hostRead (keyArg s 0) 32)
    let (s1, salt) := s.nextRandom
    let sig := fitBytes 1280 (Config.falconSign s.attestNode salt (hash 64 body))
    (s1.publish (keyArg s 1) (body ++ sig) []).keyAnswer keyOkResult 0)) s

/-- CERTS: the identity and alias certificates into the buffer; no rule gives their bytes. -/
def execCerts (value : Lane) (busy : Option (BitVec 14)) (s : State) : Answer :=
  keyCommand 3 value busy (fun s => s.needRoot (fun s =>
    let s := s.closeMeas
    let n := bits (keyArg s 2) 31 0
    let bytes := (List.range n).map (fun i => Config.outputByte s.free i)
    (s.tick.publish (keyArg s 1) bytes []).keyAnswer keyOkResult 0)) s

/-! ## Weight bundles (R505, R506) -/

/-- Handles 0 to 199. -/
def bundleMax : Nat := 200
def State.bundle? (s : State) (h : Nat) : Option Bundle := s.key.bundles.find? (fun b => b.handle == h)

/-- Whether a bundle header is well formed. -/
def State.bundleHeadOk (s : State) (a : Nat) : Bool :=
  let n := s.hostNat (a + 6) 2
  let c := s.hostNat (a + 0x18) 1
  s.hostNat a 4 == 0x4C444E42 && s.hostNat (a + 4) 2 == 1 && decide (1 ≤ n) && decide (n ≤ 1024) && decide (16 ≤ c) &&
  decide (c ≤ 24) && s.hostZero (a + 0x19) 7 && s.hostZero (a + 0x30) 16

/-- The address of the device record that names this device. -/
def State.deviceRec (s : State) (a : Nat) : Option Nat :=
  ((List.range (s.hostNat (a + 6) 2)).map (fun i => a + 64 + 1664 * i)).find? (fun r =>
    s.hostNat r 8 == (s.reg R_DEV_SERIAL).toNat && s.hostRead (r + 8) 32 == s.bindDigest)

/-- The bundle key of a device record. -/
def State.bundleKey (s : State) (a r : Nat) : List Byte :=
  let ss := Config.kemDecap (kemSeed s.bindNode) (s.hostRead (r + 0x28) 1568)
  let kek := hash 32 (ss ++ label "ETB bundle" ++ s.hostRead (a + 8) 16)
  fitBytes 32 (Config.gcmOpen kek (List.replicate 12 0) (s.hostRead a 64) (s.hostRead (r + 0x648) 48))

/-- The handle an OPEN takes: the one PARAM names, or the lowest that is free. -/
def State.openHandle (s : State) : Option Nat :=
  let h := keyParam s % 256
  if h = 255 then (List.range bundleMax).find? (fun i => (s.bundle? i).isNone) else some h

/-- OPEN. -/
def execOpenBundle (value : Lane) (busy : Option (BitVec 14)) (tagOk kcvOk : Bool) (s : State) : Answer :=
  keyCommand 4 value busy (fun s => s.needTenant (fun s => s.needRoot (fun s =>
    let a := keyArg s 0
    if !s.bundleHeadOk a || (decide (bundleMax ≤ keyParam s % 256) && keyParam s % 256 != 255) then s.keyAnswer keyFormat 0
    else match s.deviceRec a with
      | none => s.keyAnswer keyNotMember 0
      | some r =>
        if !s.hostZero (r + 0x678) 8 then s.keyAnswer keyFormat 0
        else if !tagOk then s.keyAnswer keyTag 0
        else match s.openHandle with
          | none => s.keyAnswer keyFull 0
          | some h =>
            if !kcvOk then s.keyAnswer keyKcv 0
            else
              let b : Bundle := ⟨h, s.bundleKey a r, s.hostRead a 64, s.hostNat (a + 0x18) 1, s.hostNat (a + 0x20) 8⟩
              let s1 : State := { s with key := { s.key with
                bundles := s.key.bundles.filter (fun x => x.handle != h) ++ [b] } }
              (s1.setRegField R_KEY_STATUS 15 8 h).keyAnswer keyOkResult 0))) s

/-- Chunks of a bundle, and the plaintext bytes of chunk `j`. -/
def Bundle.chunks (b : Bundle) : Nat := ceilDiv b.payload (2 ^ b.chunkLog2)
def Bundle.chunkBytes (b : Bundle) (j : Nat) : Nat := min (2 ^ b.chunkLog2) (b.payload - j * 2 ^ b.chunkLog2)

/-- The plaintext of chunk `j` at a host address. -/
def State.openChunk (s : State) (b : Bundle) (j a : Nat) : List Byte :=
  fitBytes (b.chunkBytes j) (Config.gcmOpen b.key (leBytes 8 j ++ List.replicate 4 0) b.header (s.hostRead a (b.chunkBytes j + 16)))

/-- Open chunks `j`, `j + 1`, … from host address `src` to device address `dst`, stopping at the one that fails its tag. -/
def State.openChunks (b : Bundle) (domain : Nat) (bad : Option Nat) : Nat → State → Nat → Nat → Nat → State × Nat
  | 0, s, _, _, _ => (s, keyOkResult)
  | n + 1, s, j, src, dst =>
    if bad = some j then (s, keyTag)
    else
      let s1 := (s.writeBytes dst domain (s.openChunk b j src)).1
      State.openChunks b domain bad n s1 (j + 1) (src + b.chunkBytes j + 16) (dst + b.chunkBytes j)

/-- Whether `[a, a + n)` lies wholly in one cluster store or one data range that can be written now. -/
def State.bundleDest (s : State) (a n : Nat) : Bool :=
  let inOne := match addrKind a, addrKind (a + n - 1) with
    | .store c, .store d => c == d
    | .data c, .data d => c == d
    | _, _ => false
  inOne && (s.devTrouble a n true).isNone

/-- DECRYPT: `badChunk` is the chunk of the bundle whose tag fails. -/
def execDecrypt (value : Lane) (busy : Option (BitVec 14)) (badChunk : Option Nat) (s : State) : Answer :=
  keyCommand 5 value busy (fun s => s.needTenant (fun s => s.needRoot (fun s =>
    let first := bits (keyArg s 2) 63 32
    let count := bits (keyArg s 2) 31 0
    match s.bundle? (keyParam s % 256) with
    | none => s.keyAnswer keyFormat 0
    | some b =>
      let total := ((List.range count).map (fun i => b.chunkBytes (first + i))).foldl (· + ·) 0
      if b.chunks < first + count then s.keyAnswer keyFormat 0
      else if count = 0 then s.keyAnswer keyOkResult 0
      else if !s.bundleDest (keyArg s 1) total then s.keyAnswer keyFormat 0
      else match State.openChunks b (bits (keyParam s) 15 8) badChunk count s first (keyArg s 0) (keyArg s 1) with
        | (s1, r) => s1.keyAnswer r 0))) s

/-- CLOSE. -/
def execCloseBundle (value : Lane) (busy : Option (BitVec 14)) (s : State) : Answer :=
  keyCommand 6 value busy (fun s => s.needTenant (fun s =>
    State.keyAnswer { s with key := { s.key with bundles := s.key.bundles.filter (fun b => b.handle != keyParam s % 256) } }
      keyOkResult 0)) s

/-- ERASE_DOMAIN (R504). -/
def execEraseDomain (value : Lane) (busy : Option (BitVec 14)) (s : State) : Answer :=
  keyCommand 7 value busy (fun s => s.needTenant (fun s =>
    let d := keyParam s % 256
    if d = 0 then s.keyAnswer keyFormat 0
    else State.keyAnswer { s with key := { s.key with domGen := mapPut 0 s.key.domGen d (mapGet 0 s.key.domGen d + 1) } }
      keyOkResult 0)) s

/-! ## Sealed blobs (R515) -/

/-- The key of sealed blobs. -/
def State.blobKey (s : State) : List Byte := deriveKey s.sealNode s.key.sealGen (label "blob")

/-- SEAL. -/
def execSeal (value : Lane) (busy : Option (BitVec 14)) (s : State) : Answer :=
  keyCommand 8 value busy (fun s => s.needRoot (fun s =>
    let s := s.closeMeas
    let n := bits (keyArg s 2) 12 0
    if n = 0 ∨ 4096 < n then s.keyAnswer keyFormat 0
    else
      let (s1, r) := s.nextRandom
      let nonce := r.take 12
      let head := leBytes 4 s.key.sealGen ++ leBytes 4 n
      let body := fitBytes (n + 16) (Config.gcmSeal s.blobKey nonce head (s.hostRead (keyArg s 0) n))
      (s1.publish (keyArg s 1) (head ++ nonce ++ body) []).keyAnswer keyOkResult 0)) s

/-- UNSEAL: a blob of another generation fails with TAG. -/
def execUnseal (value : Lane) (busy : Option (BitVec 14)) (tagOk : Bool) (s : State) : Answer :=
  keyCommand 9 value busy (fun s => s.needRoot (fun s =>
    let s := s.closeMeas
    let a := keyArg s 0
    let blob := bits (keyArg s 2) 12 0
    let n := s.hostNat (a + 4) 4
    if blob < 37 ∨ n + 36 ≠ blob ∨ 4096 < n then s.keyAnswer keyFormat 0
    else if !tagOk ∨ s.hostNat a 4 ≠ s.key.sealGen then s.keyAnswer keyTag 0
    else
      let text := fitBytes n (Config.gcmOpen s.blobKey (s.hostRead (a + 8) 12) (s.hostRead a 8) (s.hostRead (a + 20) (n + 16)))
      (s.publish (keyArg s 1) text []).keyAnswer keyOkResult 0)) s

/-! ## Invasive debug (R497) -/

/-- The test root of this device. -/
def State.testRoot (s : State) : List Byte := hash 32 (label "ETB test root" ++ leBytes 8 (s.reg R_DEV_SERIAL).toNat)

/-- Steps 1 to 5 of enabling debug. -/
def State.enableDebug (s : State) : State :=
  let s1 : State := { s with key := { s.key with seed := s.testRoot, bundles := [], fabric := none } }
  let s2 := s1.extendMeas 4 (hash 32 (label "debug-on"))
  let s3 : State := { s2 with key := { s2.key with debug := true, closed := s2.key.closed.map (fun _ => s2.measuredRoot) } }
  s3.ferryRestart.setRegField R_KEY_DEBUG 30 30 1

/-- KEY_DEBUG_ENABLE. DEDUCED (log entry 68, unsafe). -/
def execKeyDebugEnable (value : Lane) (s : State) : Answer :=
  hostWrite R_KEY_DEBUG (fun s =>
    let s := if value.getLsbD 29 then s.setRegField R_KEY_DEBUG 29 29 0 else s
    if !value.getLsbD 31 then s
    else if s.key.tenant = .none ∧ !s.keyBusy then s.enableDebug
    else s.setRegField R_KEY_DEBUG 29 29 1) s

/-! ## Thawing (R510) -/

/-- KEY_THAW: a master that is not frozen is left as it is. -/
def execKeyThaw (value : Lane) (s : State) : Answer :=
  hostWrite R_KEY_THAW (fun s =>
    let v := value.toNat
    let kind := bits v 30 28
    let frozen := R_KEY_FROZEN + 4 * bits v 11 8
    let n := bits v 3 0
    if !value.getLsbD 31 then s
    else if kind = 0 then
      (if h : bits v 13 8 < 48 then
        s.updBerth ⟨bits v 13 8, h⟩ (fun x => { x with frozen := x.frozen &&& ~~~((1 : BitVec 16) <<< n) })
      else s)
    else if kind = 1 then (if n < 12 then s.setRegField frozen (16 + n) (16 + n) 0 else s)
    else if kind = 2 then
      (if n < 12 then State.startAll ((s.setRegField frozen (16 + n) (16 + n) 0).setRegField frozen n n 0) allCores else s)
    else if kind = 3 then
      (let l : Landing := BitVec.ofNat 16 (bits v 15 0)
       match s.peer? l with
       | some p => if p.frozen then (s.updPeer l (fun p => { p with frozen := false })).resetStream l true else s
       | none => s)
    else s) s

def execKeyViolationsRead (s : State) : Answer := hostReadClear R_KEY_VIOLATIONS s

/-! ## Tenant removal (R511 to R513) -/

/-- A member partition leaves its virtual device as a stranded one would and becomes Free; one in reset when that ends. -/
def State.removeMember (s : State) (p : PartId) : State :=
  let x := s.part p
  match x.slot with
  | none => s
  | some v =>
    let s := s.unhost s.landing p.val
    if x.state = .resetting then
      State.releaseSlot (s.updPart p (fun x => { x with slot := none, rank := 0, store := false, returnTo := .free })) v
    else s.freePart p

/-- The largest latency over every associated peer. -/
def State.greatestLat (s : State) : Nat := maxOf ((s.peers.filter (fun p => p.assoc.isSome)).map (fun p => s.latencyTo p.landing))

/-- Step 1 of removal. -/
def State.beginRemoval (s : State) : State :=
  let lmax := s.greatestLat
  let s := s.setTenant .removing s.tenantEpoch
  let s : State := State.setRegField { s with key := { s.key with removal := 1, removalLmax := lmax } } R_KEY_STATUS 31 31 1
  let s := s.instCmds.foldl (fun s (c : InstCmd) => s.convertInst c false) s
  let live := allBerths.filter (fun b => (s.berth b).state != .empty)
  let s := live.foldl (fun s b => s.revoke b 0xFFFF) s
  let s := s.manifests.foldl (fun s m =>
    State.updManifest ((s.endManifest m.id stRevoked 0).stopKernels m.id) m.id (fun m =>
      { m with ranks := m.ranks.map (fun (r : RankRun) => { r with dropped := true }) })) s
  let s : State := { s with moves := [], colls := [], held := [] }
  let s := allParts.foldl (fun s p => s.setRegField (R_KEY_FROZEN + 4 * p.val) 27 16 0xFFF) s
  let s := allParts.foldl State.removeMember s
  State.removalCheck (live.foldl State.startUnload s)

/-- REMOVE: in any tenant state. DEDUCED (log entry 67, unsafe). -/
def execRemoveTenant (value : Lane) (busy : Option (BitVec 14)) (s : State) : Answer :=
  keyCommand 1 value busy State.beginRemoval s

/-- Step 4: benches, registers, accumulators, cluster stores, the resident table and the caches. A stranded partition's store
cannot be written. -/
def State.wipe (s : State) : State :=
  let s1 : State := { s with cores := Vector.replicate 192 CoreSt.reset, resident := [], cache := [] }
  allParts.foldl (fun s p =>
    if (s.part p).state = .stranded then s else s.zeroRange (p.val * storeBytes) ((p.val + 1) * storeBytes)) s1

/-- Step 5: the generations advance, the installed keys go, and every freeze ends. -/
def State.destroyKeys (s : State) : State :=
  let k := s.key
  let s1 : State := { s with
    key := { k with memGen := k.memGen + 1, linkGen := k.linkGen + 1, bindGen := k.bindGen + 1, fabric := none, bundles := [], removal := 0 }
    peers := s.peers.map (fun p => { p with frozen := false, assoc := none }) }
  let s2 := allParts.foldl (fun s p => s.setReg (R_KEY_FROZEN + 4 * p.val) 0) s1
  allBerths.foldl (fun s b => s.updBerth b (fun x => { x with frozen := 0 })) s2

/-- REMOVAL_WAIT_END: after twice Lmax, and with no partition reset in progress, steps 4 to 6. -/
def execRemovalWaitEnd (s : State) : Answer :=
  whenOn (fun s =>
    if s.key.removal ≠ 3 ∨ s.beat < s.key.removalWaitFrom + 2 * s.key.removalLmax ∨
        allParts.any (fun p => (s.part p).state == .resetting) then s
    else (s.wipe.destroyKeys.setTenant .none 0).keyAnswer keyOkResult 0) s

end Sys2Proof.Machine
end

