-- ==== Sys2Proof/Machine/Faults.lean ====
section
/-! DEFINITION. Partition reset step by step, salvage, stranding, retirement in flash, the fault ring and summary (R62 to R65,
R365, R518, R519, R521 to R530, R535, R536, R546). -/

namespace Sys2Proof.Machine

/-! ## Starting a reset (R521) -/

/-- FLT_RESET. -/
def execFltReset (value : Lane) (s : State) : Answer :=
  hostWrite R_FLT_RESET (fun s =>
    if !value.getLsbD 31 then s
    else (allParts.filter (fun p => value.getLsbD p.val)).foldl (fun s p =>
      if (s.part p).state = .resetting ∨ (s.part p).state = .stranded then s.setRegField R_FLT_STATUS 30 30 1
      else s.startReset p 0 none) s) s

/-! ## Salvage (R526 to R529) -/

/-- Bytes of a record, of its slice of a half, and records a slice keeps. -/
def recordBytes : Nat := 0x20000
def recordsKept : Nat := 512

def recordAddr (p : PartId) (seq : Nat) : Nat := salvageBase p.val + seq % recordsKept * recordBytes

/-- Which virtual device and rank a partition has, as the header shows it. -/
def State.memberWord (s : State) (p : PartId) : Nat :=
  let x := s.part p
  match x.slot with
  | some v => x.rank + (if x.store then 2 ^ 16 else 0) + v.val * 2 ^ 20 +
      (match s.slotVdev v.val with | some d => d.number.toNat | none => 0) * 2 ^ 32
  | none => 0

/-- The 64 header bytes from offset 0 (R527). -/
def State.recordHead (s : State) (p : PartId) (path valid : Nat) : List Byte :=
  let x := s.part p
  leBytes 4 0x56414C53 ++ leBytes 2 1 ++ leBytes 1 path ++ leBytes 1 p.val ++ leBytes 8 x.salvageSeq ++
  leBytes 8 (s.reg (R_FLT_RESET_BEAT + 8 * p.val)).toNat ++ leBytes 8 s.beat ++ leBytes 8 x.resetFaultSeq ++
  leBytes 8 (s.reg (R_DEV_CORE_MAP + 8 * p.val)).toNat ++ leBytes 4 (s.reg (R_FLT_PROGRESS + 4 * p.val)).toNat ++
  leBytes 4 valid ++ leBytes 8 (s.reg (R_FLT_LAST_RETIRE + 8 * p.val)).toNat

/-- The first 4 KiB of a record: header, the mask of unreadable lines, and the manifest records. -/
def State.recordFirst (s : State) (p : PartId) (path valid : Nat) (unreadable : List Byte) : List Byte :=
  s.recordHead p path valid ++ leBytes 8 (s.memberWord p) ++ leBytes 184 0 ++ unreadable ++ leBytes 544 0 ++
  (s.part p).snapshot.take 1024 ++ leBytes 2048 0

/-- The bench sample of a core: bytes 0 to 4,095. -/
def State.benchSample (s : State) (c : CoreId) : List Byte :=
  let x := s.core c
  (List.range 4096).map (fun i => (mapGet none x.bench i).getD (Config.benchByte x.benchGen i))

/-- The 1,024 sampled lines of a cluster store, and which read uncorrectable: read by the partition's movers, so that corrected reads
count and are queued for write-back, and uncorrectable lines are listed (R254, R257, R258). What the record shows of an unreadable line
is open. -/
def State.storeSample (s : State) (p : PartId) : State × List (List Byte × Bool) :=
  (List.range 1024).foldl (fun acc i =>
    let line := p.val * storeBytes + i * 0x100000
    match acc.1.readLine line 0 true with
    | (s1, .ok data) => (s1, acc.2 ++ [(data, false)])
    | (s1, .ue) => ((s1.listUe line).tick, acc.2 ++ [((List.range 64).map (fun k => Config.outputByte s1.free (line + k)), true)])) (s, [])

/-- Bits of a mask as bytes. -/
def maskBytes (n : Nat) (bad : Nat → Bool) : List Byte :=
  (List.range n).map (fun i => BitVec.ofNat 8 (((List.range 8).map (fun k => if bad (8 * i + k) then 2 ^ k else 0)).foldl (· + ·) 0))

/-- A record's pieces on the main path. -/
def State.mainRecord (s : State) (p : PartId) (store : List (List Byte × Bool)) : List (Nat × List Byte) :=
  let unreadable := maskBytes 224 (fun i => decide (768 ≤ i) && (store.getD (i - 768) ([], false)).2)
  [(0, s.recordFirst p 0 7 unreadable), (0x1000, (partCores p).flatMap s.benchSample),
   (0xD000, store.flatMap (fun l => l.1)), (0x1D000, (s.part p).snapshot.drop 1024)]

/-- A record's pieces on the fall-back: the sample areas stay unwritten. -/
def State.fallbackRecord (s : State) (p : PartId) : List (Nat × List Byte) :=
  [(0, s.recordFirst p 1 4 (leBytes 224 0)), (0x1D000, (s.part p).snapshot.drop 1024)]

/-- Write a record into its half under DOM[0], and show it in FLT_SALV. -/
def State.writeRecord (s : State) (p : PartId) (r : SalvageRec) : State :=
  let s1 := r.pieces.foldl (fun s q => (s.writeBytes (r.addr + q.1) 0 q.2).1) s
  s1.setReg (R_FLT_SALV + 8 * p.val) (BitVec.ofNat 64 (r.seq % 65536 * 2 ^ 48 + r.addr))

/-- The record of the reset under way takes its number. -/
def State.numberRecord (s : State) (p : PartId) (pieces : List (Nat × List Byte)) : State × SalvageRec :=
  let seq := (s.part p).salvageSeq
  (s.updPart p (fun x => { x with salvageSeq := seq + 1 }), ⟨seq, recordAddr p seq, pieces⟩)

def State.usedFallback (s : State) (p : PartId) : Bool := s.regBit (State.resetStatus p) 6
def State.halfState (s : State) (p : PartId) : PartState := (s.part (salvageHalfPart p.val)).state

/-- SALVAGE_DONE: the main path completes; it cannot while its half is being reset. -/
def execSalvageDone (part : PartId) (s : State) : Answer :=
  whenOn (fun s =>
    if s.resetStep part ≠ 2 ∨ s.usedFallback part ∨ s.halfState part = .resetting ∨ s.halfState part = .stranded then s
    else match s.storeSample part with
      | (s1, store) => match s1.numberRecord part (s1.mainRecord part store) with
        | (s2, r) => (s2.writeRecord part r).setStep part 3) s

/-- SALVAGE_FALLBACK: 100 µs after the start of step 2. -/
def execSalvageFallback (part : PartId) (s : State) : Answer :=
  whenOn (fun s =>
    if s.resetStep part ≠ 2 ∨ s.usedFallback part ∨ s.beat < (s.reg (R_FLT_RESET_BEAT + 8 * part.val)).toNat + 100000 then s
    else State.addFault (s.setRegField (State.resetStatus part) 6 6 1) (resetEntry part 4 0)) s

/-- SALVAGE_FALLBACK_DONE: the record is written, held for a half that is being reset, or dropped with a stranded one. -/
def execSalvageFallbackDone (part : PartId) (s : State) : Answer :=
  whenOn (fun s =>
    if s.resetStep part ≠ 2 ∨ !s.usedFallback part ∨ s.ferryDown then s
    else
      let (s1, r) := s.numberRecord part (s.fallbackRecord part)
      let s2 := match s.halfState part with
        | .stranded => State.setRegField (s1.addFault (resetEntry part 5 0)) (State.resetStatus part) 5 5 1
        | .resetting => s1.updPart part (fun x => { x with salvageHeld := x.salvageHeld ++ [r] })
        | _ => s1.writeRecord part r
      s2.setStep part 3) s

/-- SALVAGE_DEFERRED_WRITE: held records are written once their half can be reached. -/
def execSalvageDeferredWrite (part : PartId) (s : State) : Answer :=
  whenOn (fun s =>
    if s.ferryDown ∨ s.halfState part = .resetting ∨ s.halfState part = .stranded then s
    else State.updPart ((s.part part).salvageHeld.foldl (fun s r => s.writeRecord part r) s) part
      (fun x => { x with salvageHeld := [] })) s

/-! ## Steps 3 to 7 (R64, R522, R524) -/

/-- ZERO_DONE: benches, registers, accumulators and queues are clear, and the cluster store is zero. -/
def execZeroDone (part : PartId) (s : State) : Answer :=
  whenOn (fun s =>
    if s.resetStep part ≠ 3 then s
    else
      let lo := part.val * storeBytes
      let s1 := s.mapCores (fun c x => if corePart c = part then CoreSt.reset else x)
      ((s1.zeroRange lo (lo + storeBytes)).arbReset part).setStep part 4) s

/-- Step 7: the buckets are full, freezes end, the partition is back in the state R24 gives, and admitted manifests have their M
recomputed (R365). -/
def State.finishReset (s : State) (p : PartId) : State :=
  let x := s.part p
  let s := (s.tollFull p).updPart p (fun y => { y with tollGranted := [], tollPerformed := [], noKernels := false, snapshot := [] })
  let s := s.setReg (R_KEY_FROZEN + 4 * p.val) 0
  let s := if x.rehosted ∨ x.returnTo = .free then s.freePart p else s.updPart p (fun y => { y with state := x.returnTo })
  let s := s.addFault (resetEntry p 2 0)
  let s := s.setStep p 0
  let s := (s.manifests.filter (fun m => m.bookedParts.contains p.val && m.phase == .admitted)).foldl (fun s m =>
    s.updManifest m.id (fun y => { y with nowM := s.recomputeM m })) s
  State.leaveChecks (s.startAll allCores)

/-- Step 6 ends once both channels are ready. -/
def State.awaitDram (s : State) (p : PartId) : State :=
  if (s.part p).dramReady then s.finishReset p else s.setStep p 6

/-- PATTERN_TEST_DONE: positions that fail become pending; every pending position is retired, cores are reassigned and the
map is published (R64). -/
def execPatternTestDone (part : PartId) (failed : BitVec 15) (s : State) : Answer :=
  whenOn (fun s =>
    if s.resetStep part ≠ 4 then s
    else
      let w := (s.part part).working
      let s1 := ((List.range 15).filter (fun i => failed.getLsbD i && bitAt w i)).foldl (fun s i => s.pendPosition part i 4) s
      let s2 := s1.updPart part (fun x => { x with
        bad := x.bad ||| x.pendingRetire
        unlisted := x.unlisted ||| x.pendingRetire
        pendingRetire := 0
        onPosition := [] })
      (s2.publishCoreMap part).awaitDram part) s

/-- DRAM_REINIT_DONE: the data range's lines are no longer preserved; reserved regions are (R247, R524). -/
def execDramReinitDone (part : PartId) (s : State) : Answer :=
  whenOn (fun s =>
    if (s.part part).state ≠ .resetting ∨ s.resetStep part < 2 ∨ (s.part part).dramReady then s
    else
      let lo := dramBase + part.val * dramStride
      let s1 := s.forgetRange lo (lo + dataMib part.val * 0x100000)
      let s2 := s1.updPart part (fun x => { x with dramReady := true })
      if s2.resetStep part = 6 then s2.finishReset part else s2) s

/-! ## Stranding (R266, R530) -/

/-- The partition of an LPDDR5X channel (R20). -/
def channelPart (k : Fin 32) : PartId := ⟨k.val / 2, by omega⟩
def channelReg (k : Nat) : Nat := R_MEM_CH + 4 * k

/-- CHANNEL_REINIT_FAILED. -/
def execChannelReinitFailed (channel : Fin 32) (s : State) : Answer :=
  whenOn (fun s =>
    let p := channelPart channel
    if (s.part p).state ≠ .resetting ∨ s.resetStep p < 2 ∨ (s.part p).dramReady then s
    else State.strand (s.setReg (channelReg channel.val) 2) p) s

/-- PARTITION_STRANDED: step 7 has not been reached within 10 ms. -/
def execPartitionStranded (part : PartId) (s : State) : Answer :=
  whenOn (fun s =>
    if (s.part part).state ≠ .resetting ∨ s.beat < (s.reg (R_FLT_RESET_BEAT + 8 * part.val)).toNat + 10000000 then s
    else s.strand part) s

/-! ## Flash records (R60, R65, R546) -/

/-- Where the retirement list and the last fault summary lie in their 4 KiB. DESIGN CHOICE (log entry 8, unsafe). -/
def flashRetirement : Nat := 0x23000
def flashSummary : Nat := 0x23040

def State.flashNat (s : State) (a n : Nat) : Nat := leNat (mapRead 0 s.flash a n)
def State.flashPut (s : State) (a : Nat) (bs : List Byte) : State := { s with flash := mapWrite 0 s.flash a bs }

/-- RETIREMENT_LIST_WRITE: after RESET DONE or a stranding; a failed write leaves an entry, and the next start does not apply
the retirement. -/
def execRetirementListWrite (part : PartId) (flashOk : Bool) (s : State) : Answer :=
  whenOn (fun s =>
    let x := s.part part
    if x.unlisted = 0 ∨ x.state = .resetting ∨ s.ferryDown then s
    else
      let s1 := s.updPart part (fun x => { x with unlisted := 0 })
      let a := flashRetirement + 2 * part.val
      if flashOk then s1.flashPut a (leBytes 2 (s.flashNat a 2 ||| x.unlisted.toNat))
      else s1.addFault { FaultEntry.bare 1 5 with part := some part.val }) s

/-- The 2,432 bytes of a fault summary. -/
def State.faultSummaryBytes (s : State) : List Byte :=
  (s.lastFaults.flatMap FaultEntry.encode) ++ List.replicate (2048 - 64 * s.lastFaults.length) 0 ++
  (List.range 16).flatMap (fun k => leBytes 8 (s.reg (R_FLT_OVF_COUNT + 4 * k)).toNat ++
    leBytes 8 (s.reg (R_FLT_OVF_FIRST + 8 * k)).toNat ++ leBytes 8 (s.reg (R_FLT_OVF_LAST + 8 * k)).toNat)

/-- FAULT_SUMMARY_WRITE. -/
def execFaultSummaryWrite (s : State) : Answer :=
  whenOn (fun s => if s.ferryDown || !s.devUp then s else s.flashPut flashSummary s.faultSummaryBytes) s

/-! ## The mirror ring and the overflow counts (R518, R519, R536) -/

/-- A write of FLT_RING: ignored while a berth is not Empty; otherwise a new ring begins with every queued entry. -/
def State.newRing (s : State) (value : Word) : State :=
  if allBerths.any (fun b => (s.berth b).state != .empty) then s
  else
    let s1 := (s.setRegField R_FLT_RING 51 12 (wbits value 51 12)).setRegField R_FLT_RING 3 0 (wbits value 3 0)
    let s2 : State := State.setReg { s1 with faultMirrored := 0, faultConsumed := 0 } R_FLT_PRODUCED 0
    s2.faults.foldl State.mirrorOne s2

/-- FLT_RING_WRITE. -/
def execFltRingWrite (value : Word) (s : State) : Answer := hostWrite R_FLT_RING (fun s => s.newRing value) s

/-- FLT_OVF_CLEAR. -/
def execFltOvfClear (value : Lane) (s : State) : Answer :=
  hostWrite R_FLT_OVF_CLEAR (fun s =>
    let s1 := ((List.range 16).filter (fun k => value.getLsbD k)).foldl (fun (s : State) k =>
      State.setReg (State.setReg (s.setReg (R_FLT_OVF_COUNT + 4 * k) 0) (R_FLT_OVF_FIRST + 8 * k) 0) (R_FLT_OVF_LAST + 8 * k) 0) s
    let ovf := (List.range 16).any (fun k => (s1.reg (R_FLT_OVF_COUNT + 4 * k)).toNat != 0)
    s1.setRegField R_FLT_STATUS 31 31 (if ovf then 1 else 0)) s

end Sys2Proof.Machine
end

