-- ==== Sys2Proof/Machine/Start.lean ====
section
/-! DEFINITION. Power, the boot flash, the start journal, the eight steps of a start, and the management port (R537 to R546,
R557 to R562). -/

namespace Sys2Proof.Machine

/-! ## The flash (R537 to R539) -/

/-- Fields of the identity area and of the generation record; no rule places them within their areas. -/
def flashSerial : Nat := 0x0
def flashMac : Nat := 0x8
def flashPciDevice : Nat := 0x10
def flashSealGen : Nat := 0x21000
def flashStartCount : Nat := 0x21004
def flashConfig : Nat := 0x10000
def configBytes : Nat := 4544
def flashJournal : Nat := 0x22000

def slotBytes : Nat := 0x3800000
/-- Firmware slots A (0) and B (1). -/
def slotBase (k : Nat) : Nat := if k = 0 then 0x100000 else 0x3900000
def commitWord : Nat := 0x434F4D54

/-- Whether a slot holds an image. -/
def State.slotFull (s : State) (k : Nat) : Bool := s.flashNat (slotBase k + 0x10) 4 == commitWord

def configMagic : Nat := 0x47464E43
def minFwOf (s : State) : Nat := s.flashNat (flashConfig + 0x30) 4
def State.flashZero (s : State) (a n : Nat) : Bool := (mapRead 0 s.flash a n).all (fun b => b == 0)

/-! ## The journal (R543, R544) -/

def evBegun : Nat := 0
def evDone : Nat := 1
def evFailed : Nat := 2

def pathNormal : Nat := 0
def pathAlternate : Nat := 1
def pathSkipped : Nat := 2

def codeNone : Nat := 0
def codeSignature : Nat := 1
def codeVersion : Nat := 2
def codeCfg : Nat := 3
def codeRoot : Nat := 4
def codeDie : Nat := 5
def codeChannel : Nat := 6
def codeLane : Nat := 7
def codeDiscovery : Nat := 8
def codeTimeout : Nat := 9

/-- One bit of CRC-32 with the IEEE 802.3 polynomial, least significant bit first. -/
def crcBit (c : Nat) : Nat := if c % 2 = 1 then (c / 2) ^^^ 0xEDB88320 else c / 2
def crcByte (c : Nat) (b : Byte) : Nat := crcBit (crcBit (crcBit (crcBit (crcBit (crcBit (crcBit (crcBit (c ^^^ b.toNat))))))))
def crc32 (l : List Byte) : Nat := (l.foldl crcByte 0xFFFFFFFF) ^^^ 0xFFFFFFFF

/-- A valid journal entry: its position and what it says. -/
structure JEntry where
  pos : Nat
  beat : Nat
  start : Nat
  step : Nat
  event : Nat
  path : Nat
  detail : Nat
  deriving DecidableEq, Repr

/-- The entry at a position, unless its CHECK fails. -/
def State.jentry (s : State) (i : Nat) : Option JEntry :=
  let b := mapRead 0 s.flash (flashJournal + 32 * i) 32
  let at_ (o n : Nat) : Nat := leNat ((b.drop o).take n)
  if crc32 (b.take 28) = at_ 0x1C 4 then some ⟨i, at_ 0 8, at_ 8 4, at_ 0xC 1, at_ 0xD 1, at_ 0xE 1, at_ 0x10 8⟩ else none

def State.journal (s : State) : List JEntry := (List.range 64).filterMap s.jentry

/-- Whether an entry is later than another. -/
def JEntry.later (a b : JEntry) : Bool := decide (b.start < a.start) || (b.start == a.start && decide (b.beat < a.beat))
def JEntry.same (a b : JEntry) : Bool := a.start == b.start && a.beat == b.beat

/-- The position after the valid entry with the highest START and BEAT; of several, the one whose successor is none of them. -/
def nextEntry (l : List JEntry) : Nat :=
  let top := l.filter (fun e => !l.any (fun x => x.later e))
  match top.find? (fun e => !top.any (fun x => x.pos == (e.pos + 1) % 64)) with
  | some e => (e.pos + 1) % 64
  | none => match top.head? with
    | some e => (e.pos + 1) % 64
    | none => 0

def State.startCount (s : State) : Nat := s.regField R_KEY_START_COUNT 31 0

/-- Write a journal entry for a step. -/
def State.journalPut (s : State) (step event code detail : Nat) : State :=
  let b := leBytes 8 s.beat ++ leBytes 4 s.startCount ++ leBytes 1 step ++ leBytes 1 event ++ leBytes 1 s.start.path ++
    leBytes 1 code ++ leBytes 8 detail ++ leBytes 4 0
  s.flashPut (flashJournal + 32 * nextEntry s.journal) (b ++ leBytes 4 (crc32 b))

/-- Entries of one start, in the order in which they were written. -/
def ofStart (l : List JEntry) (count : Nat) : List JEntry :=
  let ring := (l.filter (fun e => decide (nextEntry l ≤ e.pos))) ++ (l.filter (fun e => decide (e.pos < nextEntry l)))
  ring.filter (fun e => e.start == count)

/-- Whether a step's normal path failed in a start: a FAILED entry, or a BEGUN entry with no later DONE or FAILED (R544). -/
def normalFailed (l : List JEntry) (count step : Nat) : Bool :=
  let mine := (ofStart l count).filter (fun e => e.step == step && e.path == pathNormal)
  mine.any (fun e => e.event == evFailed) || (match mine.getLast? with
    | some e => e.event == evBegun
    | none => false)

/-- F of a step: the consecutive starts before start `count` in which its normal path failed. -/
def failCount (l : List JEntry) (step : Nat) : Nat → Nat → Nat
  | 0, _ => 0
  | fuel + 1, count => if 0 < count ∧ normalFailed l (count - 1) step then failCount l step fuel (count - 1) + 1 else 0

/-- The slot of the most recent start that completed step 4; A where none has (R545). -/
def normalSlotOf (l : List JEntry) : Nat :=
  let done := l.filter (fun e => e.step == 4 && e.event == evDone)
  match done.find? (fun e => !done.any (fun x => decide (e.start < x.start))) with
  | some e => e.detail % 2
  | none => 0

/-! ## Paths (R544, R545) -/

def defaultPolicy : List Nat := [0, 5, 10, 5, 5, 5, 5, 0x1C]

/-- Whether a step permits an action: 1 alternate, 2 skip. -/
def State.permits (s : State) (step action : Nat) : Bool :=
  match step, action with
  | 2, 1 => s.slotFull (1 - s.start.normalSlot)
  | 4, 1 => s.slotFull (1 - s.start.normalSlot)
  | 5, 1 => true
  | 6, 1 => true
  | 7, 1 => true
  | 3, 2 => true
  | 7, 2 => true
  | 8, 2 => true
  | _, _ => false

/-- The path a step takes in this start. -/
def State.pathOf (s : State) (step : Nat) : Nat :=
  let f := s.start.fails.getD step 0
  let policy := s.start.policy.getD (step - 1) 0
  let action := policy % 4
  if f = 0 ∨ f ≤ bits policy 4 2 then pathNormal
  else if s.permits step action then action
  else pathNormal

/-! ## FER_STATUS during a start (R556) -/

def State.startStep (s : State) : Nat := s.regField R_FER_STATUS 27 24
def State.slotInUse (s : State) : Nat := s.regField R_FER_STATUS 23 23
def State.setSlot (s : State) (k : Nat) : State := s.setRegField R_FER_STATUS 23 23 k
def State.setPath (s : State) (path : Nat) : State :=
  let s1 : State := { s with start := { s.start with path := path } }
  if path = pathNormal then s1 else s1.setRegField R_FER_STATUS 22 22 1

/-- The DETAIL that names the slot, for steps 2 to 4. -/
def State.beginDetail (s : State) (step : Nat) : Nat := if step ≤ 4 then s.slotInUse else 0

/-- A step begins on a path. -/
def State.beginStep (s : State) (step path : Nat) : State :=
  let s1 := (s.setRegField R_FER_STATUS 27 24 step).setPath path
  s1.journalPut step evBegun codeNone (s1.beginDetail step)

/-- A step ends, with its entry. -/
def State.endStep (s : State) (step code detail : Nat) : State :=
  s.journalPut step (if code = codeNone then evDone else evFailed) code detail

/-- A step completes or fails and the next begins. -/
def State.nextStep (s : State) (step code detail : Nat) : State :=
  let s1 := s.endStep step code detail
  if step = 8 then s1.setRegField R_FER_STATUS 27 24 0 else s1.beginStep (step + 1) (s1.pathOf (step + 1))

/-- Step 2 or 4 fails: DEV_STATE becomes FAILED and the boot ROM serves recovery (R542). -/
def State.startFails (s : State) (step code : Nat) : State :=
  let s1 := s.endStep step code s.slotInUse
  State.setFerState (State.setRegField (s1.setRegField R_DEV_STATE 3 0 devFailed) R_FER_STATUS 27 24 0) ferRecovery

/-- A command of the start, which happens while its step is in progress. -/
def startRow (step : Nat) (f : State → State) (s : State) : Answer :=
  whenOn (fun s => if s.startStep = step ∧ s.devState ≠ devFailed then f s else s) s

/-! ## Power (R560) -/

/-- What is left without power: the flash. The queue of commands, the host's memory and the model's own records are not the
part's; the random source goes on. -/
def State.cold (s : State) : State :=
  { State.reset with
    pending := s.pending
    flash := s.flash
    host := s.host
    out := s.out
    free := s.free
    key := { KeySt.reset with randoms := s.key.randoms } }

/-- Step 1: identity, generation record, journal and the normal slot are read, and the start count advances.
DEDUCED (log entry 70, unsafe). -/
def State.startRom (s : State) : State :=
  let count := (s.flashNat flashStartCount 4 + 1) % 2 ^ 32
  let s1 := s.flashPut flashStartCount (leBytes 4 count)
  let l := s1.journal
  let s2 := ((s1.setReg R_KEY_START_COUNT (BitVec.ofNat 64 count)).setReg R_DEV_SERIAL (BitVec.ofNat 64 (s1.flashNat flashSerial 8)))
  let s3 := (s2.setRegField R_LNK_MAC_BASE 47 0 (s1.flashNat flashMac 6)).setRegField R_DEV_IDENT 31 16 (s1.flashNat flashPciDevice 2)
  let slot := normalSlotOf l
  let s4 : State := { s3 with
    start := { StartSt.reset with fails := (List.range 9).map (fun n => failCount l n 64 count), normalSlot := slot }
    key := { s3.key with sealGen := s1.flashNat flashSealGen 4 }
    startSummary := mapRead 0 s1.flash flashSummary 2432 }
  State.setFerState ((s4.setSlot slot).setRegField R_FER_STATUS 27 24 2) ferAssayer

/-- POWER_GOOD. DEDUCED (log entry 70, unsafe). -/
def execPowerGood (s : State) : Answer :=
  if s.supplyBroken then .fault .outsideLimits
  else if s.powered then .next s
  else .next (State.startRom { s.cold with powered := true })

/-- POWER_DOWN. A power cycle also ends what a supply fault began. DEDUCED (log entry 72, unsafe). -/
def execPowerDown (s : State) : Answer := .next (if s.powered then s.cold else s)

/-- SUPPLY_FAULT: from here the device's behaviour has device reach until the next power cycle.
DEDUCED (log entry 4, unsafe). -/
def execSupplyFault (s : State) : Answer := .next (if s.powered then { s with supplyBroken := true } else s)

/-! ## Step 2 (R539 to R541) -/

/-- What fails in the Ecilamo section of the record in flash: its signature, SERIAL or a reserved byte. -/
def State.ecilamoOk (s : State) (sig : Bool) : Bool :=
  sig && s.flashNat (flashConfig + 8) 8 == (s.reg R_DEV_SERIAL).toNat && s.flashZero (flashConfig + 6) 2 &&
  s.flashZero (flashConfig + 0x34) 12
def State.operatorOk (s : State) (sig : Bool) : Bool := sig && s.flashZero (flashConfig + 0xC9C) 36

/-- Built-in PORTS: every port enabled with MODE and GEN zero. -/
def defaultPorts : Nat := 0x01010101

/-- ROS_CTRL's fields that are not reserved. -/
def rosCtrlMask : Nat := 0xFFFF001B

/-- The operator fields take effect: those of the record, or the built-in values with a CONFIG_OP entry (R540). -/
def State.applyOperator (s : State) (ok : Bool) : State :=
  let rec_ (o n : Nat) : Nat := s.flashNat (flashConfig + o) n
  let pick (o n d : Nat) : Nat := if ok then rec_ o n else d
  let policy := if ok then (List.range 8).map (fun i => rec_ (0xC90 + i) 1) else defaultPolicy
  let s1 : State := { s with
    ceLimit := pick 0xC84 2 64
    start := { s.start with policy := policy, ports := pick 0xC98 4 defaultPorts } }
  let s2 := (s1.setRegField R_PWR_RACK 31 16 (pick 0xC86 2 0)).setReg R_ROS_CTRL (BitVec.ofNat 64 (pick 0xC88 4 1 &&& rosCtrlMask))
  let s3 := s2.setGrant (min wattsMax (pick 0xC8C 2 1000)) (min wattsMax (pick 0xC8E 2 0))
  if ok then s3 else s3.addFault (FaultEntry.bare 0x0C 1)

/-- Digests of the stage-one firmware, and of the management firmware with its slot as one byte. -/
def State.stageOneDigest (s : State) (k : Nat) : List Byte :=
  hash 32 (mapRead 0 s.flash (slotBase k + 0x1000) (min slotBytes (s.flashNat (slotBase k + 0xC) 4)))
def State.managementDigest (s : State) (k : Nat) : List Byte :=
  let one := min slotBytes (s.flashNat (slotBase k + 0xC) 4)
  let all := min slotBytes (s.flashNat (slotBase k + 8) 4)
  hash 32 (mapRead 0 s.flash (slotBase k + 0x1000 + one) (all - one) ++ leBytes 1 k)

/-- START_ASSAY: the slot is chosen under R545; the slot's signature, the record and the VERSION are verified.
DEDUCED (log entry 71, unsafe). -/
def execStartAssay (slotSigOk ecilamoSigOk opSigOk : Bool) (s : State) : Answer :=
  startRow 2 (fun s =>
    let cfgOk := s.ecilamoOk ecilamoSigOk
    let s := if cfgOk then s.applyOperator (s.operatorOk opSigOk) else { s with start := { s.start with policy := defaultPolicy } }
    let other := 1 - s.start.normalSlot
    let path := if s.start.rerun then pathAlternate
      else if s.pathOf 2 = pathAlternate ∨ (!s.slotFull s.start.normalSlot ∧ s.slotFull other) then pathAlternate else pathNormal
    let slot := if path = pathAlternate then other else s.start.normalSlot
    let s := (s.setSlot slot).beginStep 2 path
    if !s.slotFull slot then s.startFails 2 codeSignature
    else
      let s := s.extendMeas 0 (s.stageOneDigest slot)
      if !slotSigOk then s.startFails 2 codeSignature
      else if !cfgOk then s.startFails 2 codeCfg
      else if s.flashNat (slotBase slot + 4) 4 < minFwOf s then s.startFails 2 codeVersion
      else
        let s := (s.extendMeas 1 (s.managementDigest slot)).extendMeas 2 (hash 32 (mapRead 0 s.flash flashConfig configBytes))
        State.setFerState (s.nextStep 2 codeNone slot) ferStarting) s

/-! ## Step 3 (R488, R492) -/

/-- The start's nonce is drawn once. -/
def State.drawNonce (s : State) : State :=
  if s.key.startNonce.isEmpty then
    match s.nextRandom with
    | (s1, r) => { s1 with key := { s1.key with startNonce := r } }
  else s

/-- Steps 2 and 3 run again where step 4 takes the other slot (R545). -/
def State.afterRoot (s : State) (code : Nat) : State :=
  let s1 := s.endStep 3 code s.slotInUse
  let path := s1.pathOf 4
  if path = pathAlternate ∧ s1.slotInUse = s1.start.normalSlot then
    State.setFerState (State.setRegField { s1 with start := { s1.start with rerun := true } } R_FER_STATUS 27 24 2) ferAssayer
  else s1.beginStep 4 path

/-- START_ROOT: the seed, or ROOT_FAILED. -/
def execStartRoot (pufMatches : Bool) (s : State) : Answer :=
  startRow 3 (fun s =>
    let s := s.drawNonce
    if pufMatches ∧ s.start.path ≠ pathSkipped then
      State.afterRoot (State.setRegField { s with key := { s.key with seed := fitBytes 32 Config.pufSeed, rootFailed := false } } R_KEY_TENANT 31 31 0) codeNone
    else
      State.afterRoot (State.setRegField { s with key := { s.key with seed := [], rootFailed := true } } R_KEY_TENANT 31 31 1)
        (if s.start.path = pathSkipped then codeNone else codeRoot)) s

/-! ## Steps 4 to 8 (R541, R545) -/

/-- START_FERRY. -/
def execStartFerry (ok : Bool) (s : State) : Answer :=
  startRow 4 (fun s =>
    if ok then State.setFerState (s.nextStep 4 codeNone s.slotInUse) ferRunning else s.startFails 4 codeTimeout) s

/-- A partition is stranded from the start: it works for nothing, and what its reserved region would hold is absent (R247,
R266). -/
def State.strandAtStart (s : State) (p : PartId) : State :=
  let s1 := s.updPart p (fun x => { x with state := .stranded })
  if p = 0 then { s1 with mapLost := true } else s1

/-- The 32 bytes of a map of bad positions, as a mask by cluster. -/
def State.flashMask (s : State) (a : Nat) (p : PartId) : BitVec 15 := BitVec.ofNat 15 (s.flashNat (a + 2 * p.val) 2)

/-- START_COMPUTE. -/
def execStartCompute (failedClusters : BitVec 16) (s : State) : Answer :=
  startRow 5 (fun s =>
    let s := allParts.foldl (fun (s : State) p =>
      (s.updPart p (fun x => { x with bad := s.flashMask (flashConfig + 0x10) p ||| s.flashMask flashRetirement p })).publishCoreMap p) s
    let s := s.zeroRange 0 (16 * storeBytes)
    let s := s.extendMeas 3 (hash 32 (mapRead 0 s.flash (flashConfig + 0x10) 32 ++ mapRead 0 s.flash flashRetirement 32))
    let s := (allParts.filter (fun p => failedClusters.getLsbD p.val)).foldl State.strandAtStart s
    s.nextStep 5 (if failedClusters = 0 ∨ s.start.path = pathAlternate then codeNone else codeDie) failedClusters.toNat) s

/-- What a channel's training leaves in MEM_CH: on the alternate path a channel that fails its normal parameters retrains
with the conservative ones. -/
def channelTrained (alternate failedN failedC : Bool) : Nat :=
  if !failedN then 1 else if alternate ∧ !failedC then 5 else 2

/-- START_DRAM. -/
def execStartDram (failedNormal failedConservative : BitVec 32) (s : State) : Answer :=
  startRow 6 (fun s =>
    let alt := s.start.path = pathAlternate
    let result (k : Nat) : Nat := channelTrained alt (failedNormal.getLsbD k) (failedConservative.getLsbD k)
    let s := (List.finRange 32).foldl (fun (s : State) k =>
      let s := s.setReg (channelReg k.val) (BitVec.ofNat 64 (result k.val))
      if result k.val = 2 then s.strandAtStart (channelPart k) else s) s
    let degraded := allParts.any (fun p => (s.part p).state == .stranded)
    let s := s.setRegField R_DEV_STATE 3 0 (if degraded then devDegraded else devReady)
    let s := s.nextStep 6 (if failedNormal = 0 ∨ alt then codeNone else codeChannel) failedNormal.toNat
    if (s.part 15).state = .stranded then { s with ferryDown := true } else s) s

/-- LNK_PORT_CTRL of each port from PORTS; enabled ports train (R391). -/
def State.enablePorts (s : State) : State :=
  (List.range 4).foldl (fun s p =>
    let v := bits s.start.ports (8 * p + 3) (8 * p)
    let s := s.setRegField (portCtrl p) 3 0 v
    if bitAt v 0 then s.enablePort p else s) s

/-- START_OPTICS: lanes that fail set LANE_FAILED; the others' interfaces come up as they train. -/
def execStartOptics (failedLanes : BitVec 32) (s : State) : Answer :=
  startRow 7 (fun s =>
    if s.ferryDown then s
    else if s.start.path = pathSkipped then s.nextStep 7 codeNone 0
    else
      let s := s.enablePorts
      let s := (List.range 4).foldl (fun s p =>
        if s.portEnabled p then
          State.trainCheck (s.setRegField (portStatus p) 23 16 (bits failedLanes.toNat (8 * p + 7) (8 * p))) p
        else s) s
      let detail : Nat := ((List.range 4).map (fun p => s.regField (portStatus p) 23 16 * 2 ^ (8 * p))).foldl (· + ·) 0
      s.nextStep 7 (if detail = 0 ∨ s.start.path = pathAlternate then codeNone else codeLane) detail) s

/-- START_ROSTER: discovery runs; skipped or failed, the landing number stays 0. -/
def execStartRoster (ok : Bool) (s : State) : Answer :=
  startRow 8 (fun s =>
    if s.ferryDown then s
    else if s.start.path = pathSkipped then s.nextStep 8 codeNone 0
    else if ok then s.startDiscovery.nextStep 8 codeNone 0
    else s.nextStep 8 codeDiscovery 0) s

/-! ## The management port (R562) -/

/-- Beats after PWRGD from which the port answers. DEDUCED (log entry 89, safe). -/
def smbReady : Nat := 2000000

/-- A block read. -/
def smbRead (data : State → List Byte) (after : State → State) (s : State) : Answer :=
  whenOn (fun s =>
    if s.beat < smbReady then s
    else
      let d := data s
      State.emit { after s with busRead := BitVec.ofNat 64 (leNat d) } (.smbus d)) s

def execSmbIdent (s : State) : Answer := smbRead (fun s => leBytes 4 (s.reg R_DEV_IDENT).toNat) id s
def execSmbSerial (s : State) : Answer := smbRead (fun s => leBytes 8 (s.reg R_DEV_SERIAL).toNat) id s
def execSmbState (s : State) : Answer :=
  smbRead (fun s => leBytes 1 (s.devState + (if s.ferState = ferRunning then 128 else 0))) id s
def execSmbTemp (s : State) : Answer := smbRead (fun s => leBytes 2 (s.regField R_PWR_TEMP 15 0)) id s
def execSmbPower (s : State) : Answer := smbRead (fun s => leBytes 2 s.windowPower ++ leBytes 2 (grantW s)) id s
def execSmbLaser (s : State) : Answer :=
  smbRead (fun s => (List.range 4).flatMap (fun p => leBytes 2 (s.regField (R_LNK_LASER_PWR + 0x100 * p) 15 0))) id s
/-- ALERT: its bits clear with the read. -/
def execSmbAlert (s : State) : Answer :=
  smbRead (fun s => leBytes 1 (s.alerts.toNat % 64)) (fun s => { s with alerts := 0 }) s

end Sys2Proof.Machine
end

