-- ==== Sys2Proof/Machine/Boxes.lean ====
section
/-! DEFINITION. Mailbox commands that answer at once: slots of sequence state, retirement, measurements, firmware and
configuration, and what the Ferryman copies out (R60, R62, R213, R489, R538, R540, R546, R553, R554). -/

namespace Sys2Proof.Machine

/-! ## SEQSET (R213) -/

def slotBusy : Nat := 0x10
def mapIndexBytes : Nat := 0x800000

/-- Whether a line of the reserved regions holds data that its key still opens. DEDUCED (log entry 74, unsafe). -/
def State.lineLive (s : State) (line : Nat) : Bool := match mapGet .unwritten s.lineKeys line with
  | .unwritten => s.key.memGen == 0
  | k => k == s.domKey 0

/-- The pages that valid buckets of a slot's map index name. -/
def State.slotPages (s : State) (slot : Nat) : List Nat :=
  let lo := slotRegion slot + 0x800000
  (s.mem.filter (fun p => decide (lo ≤ p.1) && decide (p.1 < lo + mapIndexBytes) && p.1 % 16 == 7 && p.2.getLsbD 7 &&
    s.lineLive (lineOf p.1))).map (fun p => leNat (mapRead 0 s.mem (p.1 + 1) 8) / 4096 * 4096)

/-- Whether a page holds an entry that is not Free. -/
def State.pageBusy (s : State) (w : Nat) : Bool :=
  (List.range 256).any (fun i =>
    let b := s.pageRaw w i
    (entryOfWords (leNat (b.take 8)) (leNat (b.drop 8))).state != stFree)

/-- Whether an entry of a slot is in a state other than Free. -/
def State.slotInState (s : State) (slot : Nat) : Bool := (s.slotPages slot).any s.pageBusy

/-- Zero the map index: whole lines, under the key in force. -/
def State.zeroIndex (s : State) (slot : Nat) : State :=
  let lo := slotRegion slot + 0x800000
  if s.key.tenant = .none then s
  else
    let s1 := s.zeroRange lo (lo + mapIndexBytes)
    if s1.key.memGen = 0 then s1
    else { s1 with lineKeys := (List.range (mapIndexBytes / 64)).foldl (fun m i => mapPut .unwritten m (lo + 64 * i) (s1.domKey 0)) s1.lineKeys }

/-- SEQSET. The slot's bins and the mirrors of its pages stay. DESIGN CHOICE (log entry 107, unsafe). -/
def runSeqset : State → Nat → State :=
  mailNow
  (fun s b => s.argsClear b [(0x10, 1), (0x18, 8), (0x20, 8)] && decide (s.arg b 0x10 1 < 16) &&
    hostAddrOk (s.arg b 0x18 8) 64 && hostAddrOk (s.arg b 0x20 8) 32)
  (fun s b =>
    let slot := s.arg b 0x10 1
    if s.slotInState slot then (s, slotBusy, [])
    else
      let s1 := (s.writeBytes (slotRegion slot) 0 (s.hostRead (s.arg b 0x18 8) 512)).1
      let s2 := (s1.writeBytes (slotRegion slot + 0x200) 0 (s.hostRead (s.arg b 0x20 8) 32)).1
      (s2.zeroIndex slot, mailOk, []))

/-- The command SEQSET, a write of FER_REQ. -/
def execSeqset (busy : Option (BitVec 14)) (s : State) : Answer :=
  mailCommand 1 busy runSeqset s

/-! ## Retirement (R60, R62, R65) -/

/-- A RETIRE request: an entry, and the position pends. On a stranded partition it goes to the retirement list, unless it is out
of service already. -/
def State.retireRequest (s : State) (p : PartId) (pos : Nat) : State :=
  let x := s.part p
  let s1 := s.pendPosition p pos 3
  if x.state = .stranded ∧ bitAt x.working pos then s1.updPart p (fun y => { y with unlisted := y.unlisted ||| (1 <<< pos) }) else s1

/-- RETIRE. -/
def runRetire : State → Nat → State :=
  mailNow
  (fun s b => s.argsClear b [(0x10, 1), (0x11, 1)] && decide (s.arg b 0x10 1 < 16) && decide (s.arg b 0x11 1 < 15))
  (fun s b => (s.retireRequest (partOf (s.arg b 0x10 1)) (s.arg b 0x11 1), mailOk, []))

/-- The command RETIRE, a write of FER_REQ. -/
def execRetire (busy : Option (BitVec 14)) (s : State) : Answer :=
  mailCommand 2 busy runRetire s

/-- RETIRE_CLEAR: the list alone changes; the next start applies it. -/
def runRetireClear : State → Nat → State :=
  mailNow
  (fun s b => s.argsClear b [(0x10, 2)])
  (fun s b =>
    let mask := s.arg b 0x10 2
    ((List.range 16).foldl (fun s c => if bitAt mask c then s.flashPut (flashRetirement + 2 * c) [0, 0] else s) s, mailOk, []))

/-- The command RETIRE_CLEAR, a write of FER_REQ. -/
def execRetireClear (busy : Option (BitVec 14)) (s : State) : Answer :=
  mailCommand 3 busy runRetireClear s

/-! ## EXTEND (R489, R490) -/

/-- EXTEND. -/
def runExtend : State → Nat → State :=
  mailNow
  (fun s b => s.argsClear b [(0x10, 1), (0x20, 32)] && decide (5 ≤ s.arg b 0x10 1) && decide (s.arg b 0x10 1 ≤ 7))
  (fun s b =>
    if s.key.closed.isSome then (s, mailState, [])
    else (s.extendMeas (s.arg b 0x10 1) (s.hostRead (b + 0x20) 32), mailOk, []))

/-- The command EXTEND, a write of FER_REQ. -/
def execExtend (busy : Option (BitVec 14)) (s : State) : Answer :=
  mailCommand 4 busy runExtend s

/-! ## Firmware and configuration (R538, R540) -/

def fwSignature : Nat := 0x30
def fwVersion : Nat := 0x31
def flashFailed : Nat := 0x32
def cfgSignature : Nat := 0x40
def cfgSerial : Nat := 0x41
def cfgOpSeq : Nat := 0x42
def cfgFormat : Nat := 0x43

/-- Whether the flash holds a configuration record. -/
def State.hasRecord (s : State) : Bool := s.flashNat flashConfig 4 == configMagic

/-- FW_WRITE: the slot not in use is erased and written, COMMIT last; a failed write leaves it empty. -/
def runFwWrite (sigOk flashOk : Bool) : State → Nat → State :=
  mailNow
  (fun s b => s.argsClear b [(0x10, 8), (0x18, 4), (0x1C, 1)] && hostAddrOk (s.arg b 0x10 8) 4096 &&
    decide (s.arg b 0x18 4 ≤ slotBytes))
  (fun s b =>
    let image := s.arg b 0x10 8
    if !sigOk then (s, fwSignature, [])
    else if s.hasRecord ∧ s.hostNat (image + 4) 4 < minFwOf s then (s, fwVersion, [])
    else
      let k := 1 - s.slotInUse
      let s1 : State := { s with flash := mapClear s.flash (slotBase k) (slotBase k + slotBytes) }
      if !flashOk then (s1, flashFailed, [])
      else
        let s2 := s1.flashPut (slotBase k) (s1.hostRead image (s1.arg b 0x18 4))
        (s2.flashPut (slotBase k + 0x10) (leBytes 4 commitWord), mailOk, [(0x1C, leBytes 1 k)]))

/-- The command FW_WRITE, a write of FER_REQ. -/
def execFwWrite (busy : Option (BitVec 14)) (sigOk flashOk : Bool) (s : State) : Answer :=
  mailCommand 7 busy (runFwWrite sigOk flashOk) s

/-- The fixed fields and reserved bytes of a record in host memory. -/
def State.recordFormatOk (s : State) (a : Nat) : Bool :=
  s.hostNat a 4 == configMagic && s.hostNat (a + 4) 2 == 1 && s.hostZero (a + 6) 2 && s.hostZero (a + 0x34) 12 &&
  s.hostZero (a + 0xC61) 31 && s.hostZero (a + 0xC9C) 36

/-- CFG_WRITE. -/
def runCfgWrite (sigsOk flashOk : Bool) : State → Nat → State :=
  mailNow
  (fun s b => s.argsClear b [(0x10, 8)] && hostAddrOk (s.arg b 0x10 8) 64)
  (fun s b =>
    let a := s.arg b 0x10 8
    if !sigsOk then (s, cfgSignature, [])
    else if s.hostNat (a + 8) 8 ≠ (s.reg R_DEV_SERIAL).toNat then (s, cfgSerial, [])
    else if s.hasRecord ∧ s.hostNat (a + 0xC80) 4 ≤ s.flashNat (flashConfig + 0xC80) 4 then (s, cfgOpSeq, [])
    else if !s.recordFormatOk a then (s, cfgFormat, [])
    else if !flashOk then (s, flashFailed, [])
    else (s.flashPut flashConfig (s.hostRead a configBytes), mailOk, []))

/-- The command CFG_WRITE, a write of FER_REQ. -/
def execCfgWrite (busy : Option (BitVec 14)) (sigsOk flashOk : Bool) (s : State) : Answer :=
  mailCommand 8 busy (runCfgWrite sigsOk flashOk) s

/-! ## What the Ferryman copies out (R546, R553, R554) -/

/-- A command that fills a buffer of the host. -/
def copyOut (data : State → List Byte) (s : State) (block : Nat) : State :=
  mailNow (fun s b => s.argsClear b [(0x10, 8)] && hostAddrOk (s.arg b 0x10 8) 64)
    (fun s b => (s.publish (s.arg b 0x10 8) (data s) [], mailOk, [])) s block

/-- JOURNAL_READ. -/
def runJournalRead : State → Nat → State :=
  copyOut (fun s => mapRead 0 s.flash flashJournal 2048)

/-- The command JOURNAL_READ, a write of FER_REQ. -/
def execJournalRead (busy : Option (BitVec 14)) (s : State) : Answer :=
  mailCommand 9 (s.busyClass4 busy) runJournalRead s

/-- FAULT_SUMMARY: as it was read at this start. -/
def runFaultSummary : State → Nat → State :=
  copyOut (fun s => s.startSummary)

/-- The command FAULT_SUMMARY, a write of FER_REQ. -/
def execFaultSummary (busy : Option (BitVec 14)) (s : State) : Answer :=
  mailCommand 10 (s.busyClass4 busy) runFaultSummary s

/-- The 256 bytes of TELEMETRY. -/
def State.telemetryBytes (s : State) : List Byte :=
  leBytes 8 s.beat ++ leBytes 4 (s.regField R_PWR_TEMP 31 0) ++ leBytes 1 (railStep s 0) ++ leBytes 1 (railStep s 1) ++ leBytes 2 0 ++
  leBytes 2 s.windowPower ++ leBytes 2 (s.regField R_PWR_POWER 31 16) ++ leBytes 4 0 ++ leBytes 8 (s.reg R_PWR_ENERGY_DEVICE).toNat ++
  (List.range 4).flatMap (fun p => leBytes 2 (s.regField (R_LNK_LASER_PWR + 0x100 * p) 15 0)) ++ leBytes 24 0 ++
  (List.range 16).flatMap (fun c => leBytes 4 (s.reg (R_MEM_CE_CS + 4 * c)).toNat) ++
  (List.range 16).flatMap (fun c => leBytes 4 (s.reg (R_MEM_CE_DR + 4 * c)).toNat) ++ leBytes 64 0

/-- TELEMETRY. -/
def runTelemetry : State → Nat → State :=
  copyOut State.telemetryBytes

/-- The command TELEMETRY, a write of FER_REQ. -/
def execTelemetry (busy : Option (BitVec 14)) (s : State) : Answer :=
  mailCommand 11 (s.busyClass4 busy) runTelemetry s

end Sys2Proof.Machine
end

