-- ==== Sys2Proof/Machine/MemRows.lean ====
section
/-! DEFINITION. Patrol scrub, the uncorrectable list and the corrected-error counters as commands (R254 to R261). -/

namespace Sys2Proof.Machine

/-! ## Patrol scrub (R255, R256) -/

/-- The lines an engine passes over, from its first address (R255). -/
def scrubBase (p : PartId) (dram : Bool) : Nat := if dram then dramBase + p.val * dramStride else p.val * storeBytes
def scrubLines (dram : Bool) : Nat := (if dram then protectedBytes else storeBytes) / 64

/-- What the scrub of one line does: nothing to a clean line; a corrected line is counted, unless a master's read counted it
already, and written back; an uncorrectable one is recorded and listed. -/
def State.scrubLine (s : State) (p : PartId) (dram queued : Bool) (line : Nat) : State :=
  let bad (s : State) : State := State.listUe (s.addFault (memFault 3 (some p.val) line)) line
  let count (s : State) : State := if queued then s else s.countCe p.val dram line false
  let raw : Bool := match addrKind line with
    | .data _ => decide (mapGet .unwritten s.lineKeys line = .unwritten)
    | _ => false
  if raw then
    if s.rawUe p.val line then bad s
    else if Config.choice s.free then count s.tick else s.tick
  else match rsDecode (mapGet [] s.lineErrors line) with
    | .clean _ => s
    | .corrected left =>
      let key := if dram then some (mapGet .unwritten s.lineKeys line) else none
      count { s with
        mem := mapWrite 0 s.mem line (residue key left (mapRead 0 s.mem line 64)), lineErrors := mapPut [] s.lineErrors line [] }
    | .uncorrectable => bad s

/-- The engine's place after a turn, and whether it wrapped. -/
def ScrubSt.advance (q : ScrubSt) (lines : Nat) : ScrubSt × Bool :=
  match q.queued with
  | _ :: rest => ({ q with queued := rest }, false)
  | [] => if q.next + 1 < lines then ({ q with next := q.next + 1 }, false) else ({ q with next := 0 }, true)

/-- SCRUB_TURN: a queued line first, else the next in order; a pass is counted at each wrap. The engine stops at INTERVAL 0,
pauses while its partition is Resetting and stops with a stranded one. DEDUCED (log entry 46, unsafe). -/
def execScrubTurn (part : PartId) (dram : Bool) (s : State) : Answer :=
  whenOn (fun s =>
    let x := s.part part
    let interval := s.regField (if dram then R_MEM_SCRUB_DR else R_MEM_SCRUB_CS) 15 0
    if interval = 0 ∨ !s.devUp ∨ x.state = .resetting ∨ x.state = .stranded then s
    else
      let q := if dram then x.scrubDr else x.scrubCs
      let line := match q.queued with
        | l :: _ => l
        | [] => scrubBase part dram + 64 * q.next
      let s1 := s.scrubLine part dram (!q.queued.isEmpty) line
      let (q1, wrapped) := q.advance (scrubLines dram)
      let s2 := s1.updPart part (fun y => if dram then { y with scrubDr := q1 } else { y with scrubCs := q1 })
      if wrapped then
        let off := R_MEM_SCRUB_PASS + 4 * part.val
        if dram then s2.setRegField off 31 16 (s2.regField off 31 16 + 1) else s2.setRegField off 15 0 (s2.regField off 15 0 + 1)
      else s2) s

/-! ## The list and the counters (R254, R258, R260) -/

/-- MEM_UE_CLEAR: the entry is cleared, and the replays it held go on. -/
def execMemUeClear (value : Lane) (s : State) : Answer :=
  hostWrite R_MEM_UE_CLEAR (fun s =>
    let i : Fin 16 := ⟨value.toNat % 16, by omega⟩
    match s.ueList[i] with
    | none => s
    | some (line, _) => { s with
        ueList := s.ueList.set i none
        manifests := s.manifests.map (fun m => { m with heldLines := m.heldLines.filter (fun l => l != line) }) }) s

def execMemCeRead (part : PartId) (dram : Bool) (s : State) : Answer :=
  hostReadClear ((if dram then R_MEM_CE_DR else R_MEM_CE_CS) + 4 * part.val) s

end Sys2Proof.Machine
end

