-- ==== Sys2Proof/Machine/RegWrite.lean ====
section
/-! DEFINITION. Register accesses: what a write does to a register that has no row of its own, and what a read of any register
returns (R11 to R13, R15, and the register tables of the chapters). -/

namespace Sys2Proof.Machine

/-! ## Which register an access reaches (R11, R12) -/

/-- What an access of a size at an offset reaches: the register's offset, its row, and the bits of it. None where the access
is of another size or alignment, or the offset is reserved. -/
def regAccess (off size : Nat) : Option (Nat × RegRow × Nat × Nat) :=
  if size = 4 ∧ off % 4 = 0 then
    match findReg off with
    | some r => some (off, r, 31, 0)
    | none =>
      if off % 8 = 4 then
        match findReg (off - 4) with
        | some r => if r.wide then some (off - 4, r, 63, 32) else none
        | none => none
      else none
  else if size = 8 ∧ off % 8 = 0 then
    match findReg off with
    | some r => if r.wide then some (off, r, 63, 0) else none
    | none => none
  else none

/-! ## Access codes (R13) -/

/-- A write of one field, as far as the access covers it; `val` is placed as in the register. -/
def State.writeField (s : State) (off hi lo : Nat) (val : Word) (f : RegField) : State :=
  let a := max f.lo lo
  let b := min f.hi hi
  if b < a then s
  else match f.acc with
    | .rw => s.setRegField off b a (wbits val b a)
    | .w1c => s.setReg off (s.reg off &&& ~~~(setWBits 0 b a (wbits val b a)))
    | .rws => s.setShad off (setWBits (s.shad off) b a (wbits val b a))
    | .ro => s
    | .wo => s
    | .rc => s

def State.writeFields (s : State) (off hi lo : Nat) (val : Word) (r : RegRow) : State :=
  r.fields.foldl (fun s f => s.writeField off hi lo val f) s

/-- A register with the written bits in place of its own. -/
def mergeBits (old val : Word) (hi lo : Nat) : Word := setWBits old hi lo (wbits val hi lo)

/-! ## Registers whose writes are commands of their own -/

/-- Registers every write of which is a command of its own. -/
def ownRow (base : Nat) : Bool :=
  [R_MEM_UE_CLEAR, R_XLT_FENCE_GO, R_BRT_REQ, R_BRT_QREVOKE, R_LDG_ABANDON, R_TTB_COMMIT, R_ARB_COMMIT, R_LNK_SA_ADVANCE, R_ROS_CMD,
    R_ROS_LOST_CLEAR, R_DEV_MODE, R_HST_LINK_CTRL, R_PWR_COMMIT, R_KEY_DEBUG, R_KEY_THAW, R_FLT_RESET, R_FLT_OVF_CLEAR,
    R_FER_RESTART].contains base

/-! ## Registers with conditions of their own -/

def State.anyBerth (s : State) : Bool := allBerths.any (fun b => (s.berth b).state != .empty)

/-- HST_BERTH: ASSIGNED and INST change in mediated mode only, while the berth is Empty (R460). -/
def State.writeBerthReg (s : State) (off : Nat) (val : Word) : State :=
  let s1 := s.setRegField off 31 31 (wbits val 31 31)
  let n := (off - R_HST_BERTH) / 4
  if h : n < 48 then
    if s.sharing = modeMediated ∧ (s.berth ⟨n, h⟩).state = .empty then s1.setRegField off 6 0 (wbits val 6 0) else s1
  else s1

/-- LNK_PORT_CTRL with ENABLE as it stands: MODE and GEN change while the port is disabled (R391). -/
def State.writePortCtrl (s : State) (off : Nat) (val : Word) : State :=
  let old := (s.reg off).toNat
  if bitAt old 0 ≠ val.getLsbD 0 then s
  else if portIgnored old val.toNat then s.setRegField (off + 4) 30 30 1
  else s.setRegField off 3 0 (wbits val 3 0)

/-- The registers that show the instance ARB_SEL selects (R387, R388). -/
def State.writeArb (s : State) (off : Nat) (val : Word) : State :=
  let inst := s.regField R_ARB_SEL 8 0
  if 0x180 < inst then s
  else if off = R_ARB_CTRL then s.updArb inst (fun a => { a with shadow := { a.shadow with limit := wbits val 9 0 } })
  else if off = R_ARB_STATUS then (if val.getLsbD 31 then s.updArb inst (fun a => { a with refused := false }) else s)
  else if R_ARB_SLOT ≤ off ∧ off < R_ARB_SLOT + 256 then
    s.updArb inst (fun a => { a with shadow := { a.shadow with
      slots := mapPut (false, 0) a.shadow.slots ((off - R_ARB_SLOT) / 4) (val.getLsbD 31, wbits val 4 0) } })
  else if R_ARB_PRIO ≤ off ∧ off < R_ARB_PRIO + 72 ∧ inst < 0x170 then
    s.updArb inst (fun a => { a with shadow := { a.shadow with
      prio := mapPut 0 a.shadow.prio ((off - R_ARB_PRIO) / 4) (wbits val 3 0) } })
  else s

def arbOff (off : Nat) : Bool := decide (R_ARB_CTRL ≤ off) && decide (off < 0x50000)

/-- FER_REQ with GO for a block whose OP no command has. -/
def State.badMail (s : State) (val : Word) : State :=
  let op := s.hostNat s.mailBlock 2
  if !val.getLsbD 31 ∨ (1 ≤ op ∧ op ≤ 11) then s
  else if s.regBit R_FER_ACCEPT 31 then s.setRegField R_FER_ACCEPT 30 30 1
  else if s.ferryDown ∧ s.devState ≠ devFailed then s.setRegField R_FER_ACCEPT 31 31 1
  else s.ferAccept accBadOp 0

/-- HST_INST_CMD with GO and an OP that no command has (R458, R460). -/
def State.badInstCmd (s : State) (val : Word) : State :=
  if !val.getLsbD 31 ∨ wbits val 30 28 < 4 then s
  else if !s.instCmds.isEmpty then s.setRegField R_HST_INST_STATUS 30 30 1
  else (s.setRegField R_HST_INST_STATUS 5 0 (wbits val 5 0)).setRegField R_HST_INST_STATUS 7 6 instBadOp

/-- KEY_CMD with an OP that no command has (R514, R515). -/
def State.badKeyCmd (s : State) (val : Word) : State :=
  if wbits val 27 24 < 10 then s
  else
    let s := (s.setRegField R_KEY_CMD 27 24 (wbits val 27 24)).setRegField R_KEY_CMD 15 0 (wbits val 15 0)
    if !val.getLsbD 31 then s
    else if s.keyBusy then s.setRegField R_KEY_STATUS 30 30 1
    else if s.ferryDown then s
    else s.keyAnswer keyBadOp 0

/-- A write of bits [hi:lo] of a register. DEDUCED (log entry 60, unsafe). -/
def State.writeReg (s : State) (off hi lo : Nat) (val : Word) (r : RegRow) : State :=
  if ownRow r.base then s
  else if r.base = R_FER_REQ then s.badMail val
  else if r.base = R_HST_INST_CMD then s.badInstCmd val
  else if r.base = R_KEY_CMD then s.badKeyCmd val
  else if r.base = R_HST_INST then
    (if hi - lo = 63 then s else s.writeInst ((off - R_HST_INST) / 8) (mergeBits (s.reg off) val hi lo))
  else if r.base = R_FLT_RING then (if hi - lo = 63 then s else s.newRing (mergeBits (s.reg off) val hi lo))
  else if r.base = R_HST_BERTH then s.writeBerthReg off val
  else if r.base = R_LNK_PORT_CTRL then s.writePortCtrl off val
  else if arbOff off then s.writeArb off val
  else if (r.base = R_LDG_BASE ∨ r.base = R_LDG_REL_BASE) ∧ s.anyBerth then s
  else s.writeFields off hi lo val r

/-- REGISTER_WRITE: the host's stores are there first. DEDUCED (log entry 60, unsafe). -/
def execRegisterWrite (offset : BitVec 26) (size : Fin 65) (value : Word) (stores : HostStores) (s : State) : Answer :=
  whenOn (fun s =>
    let s := s.hostStores stores
    if !s.hostReaches offset.toNat then s
    else match regAccess offset.toNat size.val with
      | some (off, r, hi, lo) => s.writeReg off hi lo (if lo = 32 then value <<< 32 else value) r
      | none => s) s

end Sys2Proof.Machine
end

