-- ==== Sys2Proof/Machine/Dispatch.lean ====
section
/-! DEFINITION. One arm per command: each is one atomic step. -/

namespace Sys2Proof.Machine

def exec (i : Instr) (s : State) : Host.Outcome State Fault Refusal :=
  match i with
  | .powerGood => Sys2Proof.Machine.execPowerGood s
  | .powerDown => Sys2Proof.Machine.execPowerDown s
  | .supplyFault => Sys2Proof.Machine.execSupplyFault s
  | .startAssay slotSigOk ecilamoSigOk opSigOk => Sys2Proof.Machine.execStartAssay slotSigOk ecilamoSigOk opSigOk s
  | .startRoot pufMatches => Sys2Proof.Machine.execStartRoot pufMatches s
  | .startFerry ok => Sys2Proof.Machine.execStartFerry ok s
  | .startCompute failedClusters => Sys2Proof.Machine.execStartCompute failedClusters s
  | .startDram failedNormal failedConservative => Sys2Proof.Machine.execStartDram failedNormal failedConservative s
  | .startOptics failedLanes => Sys2Proof.Machine.execStartOptics failedLanes s
  | .startRoster ok => Sys2Proof.Machine.execStartRoster ok s
  | .registerWrite offset size value stores => Sys2Proof.Machine.execRegisterWrite offset size value stores s
  | .add a => Sys2Proof.Machine.execAdd a s
  | .sub a => Sys2Proof.Machine.execSub a s
  | .and a => Sys2Proof.Machine.execAnd a s
  | .or a => Sys2Proof.Machine.execOr a s
  | .xor a => Sys2Proof.Machine.execXor a s
  | .andn a => Sys2Proof.Machine.execAndn a s
  | .sll a => Sys2Proof.Machine.execSll a s
  | .srl a => Sys2Proof.Machine.execSrl a s
  | .sra a => Sys2Proof.Machine.execSra a s
  | .min a => Sys2Proof.Machine.execMin a s
  | .max a => Sys2Proof.Machine.execMax a s
  | .minu a => Sys2Proof.Machine.execMinu a s
  | .maxu a => Sys2Proof.Machine.execMaxu a s
  | .mul a => Sys2Proof.Machine.execMul a s
  | .mulhu a => Sys2Proof.Machine.execMulhu a s
  | .mulhs a => Sys2Proof.Machine.execMulhs a s
  | .divu a => Sys2Proof.Machine.execDivu a s
  | .divs a => Sys2Proof.Machine.execDivs a s
  | .remu a => Sys2Proof.Machine.execRemu a s
  | .rems a => Sys2Proof.Machine.execRems a s
  | .clz a => Sys2Proof.Machine.execClz a s
  | .ctz a => Sys2Proof.Machine.execCtz a s
  | .popc a => Sys2Proof.Machine.execPopc a s
  | .alui a func => Sys2Proof.Machine.execAlui a func s
  | .movi a => Sys2Proof.Machine.execMovi a s
  | .movh a => Sys2Proof.Machine.execMovh a s
  | .sel a => Sys2Proof.Machine.execSel a s
  | .cmp a func => Sys2Proof.Machine.execCmp a func s
  | .cmpi a func => Sys2Proof.Machine.execCmpi a func s
  | .pand a => Sys2Proof.Machine.execPand a s
  | .por a => Sys2Proof.Machine.execPor a s
  | .pxor a => Sys2Proof.Machine.execPxor a s
  | .pandn a => Sys2Proof.Machine.execPandn a s
  | .pnot a => Sys2Proof.Machine.execPnot a s
  | .ld8u a => Sys2Proof.Machine.execLd8u a s
  | .ld16u a => Sys2Proof.Machine.execLd16u a s
  | .ld32u a => Sys2Proof.Machine.execLd32u a s
  | .ld64 a => Sys2Proof.Machine.execLd64 a s
  | .ld8s a => Sys2Proof.Machine.execLd8s a s
  | .ld16s a => Sys2Proof.Machine.execLd16s a s
  | .ld32s a => Sys2Proof.Machine.execLd32s a s
  | .st8 a => Sys2Proof.Machine.execSt8 a s
  | .st16 a => Sys2Proof.Machine.execSt16 a s
  | .st32 a => Sys2Proof.Machine.execSt32 a s
  | .st64 a => Sys2Proof.Machine.execSt64 a s
  | .bra a => Sys2Proof.Machine.execBra a s
  | .call a => Sys2Proof.Machine.execCall a s
  | .jr a => Sys2Proof.Machine.execJr a s
  | .loopDec a => Sys2Proof.Machine.execLoopDec a s
  | .nop a => Sys2Proof.Machine.execNop a s
  | .kend a => Sys2Proof.Machine.execKend a s
  | .brk a => Sys2Proof.Machine.execBrk a s
  | .srd a => Sys2Proof.Machine.execSrd a s
  | .tdset a => Sys2Proof.Machine.execTdset a s
  | .tdscl a => Sys2Proof.Machine.execTdscl a s
  | .tdadd a => Sys2Proof.Machine.execTdadd a s
  | .mma a => Sys2Proof.Machine.execMma a s
  | .azero a => Sys2Proof.Machine.execAzero a s
  | .adrn a => Sys2Proof.Machine.execAdrn a s
  | .adrv a => Sys2Proof.Machine.execAdrv a s
  | .vadd a => Sys2Proof.Machine.execVadd a s
  | .vsub a => Sys2Proof.Machine.execVsub a s
  | .vmul a => Sys2Proof.Machine.execVmul a s
  | .vfma a => Sys2Proof.Machine.execVfma a s
  | .vfnma a => Sys2Proof.Machine.execVfnma a s
  | .vmin a => Sys2Proof.Machine.execVmin a s
  | .vmax a => Sys2Proof.Machine.execVmax a s
  | .vabs a => Sys2Proof.Machine.execVabs a s
  | .vneg a => Sys2Proof.Machine.execVneg a s
  | .vmov a => Sys2Proof.Machine.execVmov a s
  | .vrope a => Sys2Proof.Machine.execVrope a s
  | .vbadd a => Sys2Proof.Machine.execVbadd a s
  | .vbsub a => Sys2Proof.Machine.execVbsub a s
  | .vbmul a => Sys2Proof.Machine.execVbmul a s
  | .vbfma a => Sys2Proof.Machine.execVbfma a s
  | .vbfnma a => Sys2Proof.Machine.execVbfnma a s
  | .vbmin a => Sys2Proof.Machine.execVbmin a s
  | .vbmax a => Sys2Proof.Machine.execVbmax a s
  | .vfeq a => Sys2Proof.Machine.execVfeq a s
  | .vflt a => Sys2Proof.Machine.execVflt a s
  | .vfle a => Sys2Proof.Machine.execVfle a s
  | .vfun a => Sys2Proof.Machine.execVfun a s
  | .vieq a => Sys2Proof.Machine.execVieq a s
  | .vilt a => Sys2Proof.Machine.execVilt a s
  | .viltu a => Sys2Proof.Machine.execViltu a s
  | .viadd a => Sys2Proof.Machine.execViadd a s
  | .visub a => Sys2Proof.Machine.execVisub a s
  | .viand a => Sys2Proof.Machine.execViand a s
  | .vior a => Sys2Proof.Machine.execVior a s
  | .vixor a => Sys2Proof.Machine.execVixor a s
  | .viandn a => Sys2Proof.Machine.execViandn a s
  | .visll a => Sys2Proof.Machine.execVisll a s
  | .visrl a => Sys2Proof.Machine.execVisrl a s
  | .visra a => Sys2Proof.Machine.execVisra a s
  | .vimin a => Sys2Proof.Machine.execVimin a s
  | .vimax a => Sys2Proof.Machine.execVimax a s
  | .viminu a => Sys2Proof.Machine.execViminu a s
  | .vimaxu a => Sys2Proof.Machine.execVimaxu a s
  | .vimul a => Sys2Proof.Machine.execVimul a s
  | .vsel a => Sys2Proof.Machine.execVsel a s
  | .vbcast a => Sys2Proof.Machine.execVbcast a s
  | .viota a => Sys2Proof.Machine.execViota a s
  | .vfirst a => Sys2Proof.Machine.execVfirst a s
  | .vget a => Sys2Proof.Machine.execVget a s
  | .vput a => Sys2Proof.Machine.execVput a s
  | .vperm a => Sys2Proof.Machine.execVperm a s
  | .vf2bf a => Sys2Proof.Machine.execVf2bf a s
  | .vbf2fl a => Sys2Proof.Machine.execVbf2fl a s
  | .vbf2fh a => Sys2Proof.Machine.execVbf2fh a s
  | .vf2h a => Sys2Proof.Machine.execVf2h a s
  | .vh2fl a => Sys2Proof.Machine.execVh2fl a s
  | .vh2fh a => Sys2Proof.Machine.execVh2fh a s
  | .vf2i a => Sys2Proof.Machine.execVf2i a s
  | .vf2iz a => Sys2Proof.Machine.execVf2iz a s
  | .vi2f a => Sys2Proof.Machine.execVi2f a s
  | .vqmx a => Sys2Proof.Machine.execVqmx a s
  | .vld a => Sys2Proof.Machine.execVld a s
  | .vst a => Sys2Proof.Machine.execVst a s
  | .vrsum a => Sys2Proof.Machine.execVrsum a s
  | .vrmax a => Sys2Proof.Machine.execVrmax a s
  | .vrmin a => Sys2Proof.Machine.execVrmin a s
  | .vrisum a => Sys2Proof.Machine.execVrisum a s
  | .exp2 a => Sys2Proof.Machine.execExp2 a s
  | .log2 a => Sys2Proof.Machine.execLog2 a s
  | .rcp a => Sys2Proof.Machine.execRcp a s
  | .rsq a => Sys2Proof.Machine.execRsq a s
  | .tanh a => Sys2Proof.Machine.execTanh a s
  | .sigm a => Sys2Proof.Machine.execSigm a s
  | .sin a => Sys2Proof.Machine.execSin a s
  | .cos a => Sys2Proof.Machine.execCos a s
  | .vosm a => Sys2Proof.Machine.execVosm a s
  | .vrms a => Sys2Proof.Machine.execVrms a s
  | .vrng a => Sys2Proof.Machine.execVrng a s
  | .srng a => Sys2Proof.Machine.execSrng a s
  | .topk a => Sys2Proof.Machine.execTopk a s
  | .tkmrg a => Sys2Proof.Machine.execTkmrg a s
  | .sdraw a => Sys2Proof.Machine.execSdraw a s
  | .copy a second => Sys2Proof.Machine.execCopy a second s
  | .fill a second => Sys2Proof.Machine.execFill a second s
  | .movementRetire move => Sys2Proof.Machine.execMovementRetire move s
  | .allred a => Sys2Proof.Machine.execAllred a s
  | .allgath a => Sys2Proof.Machine.execAllgath a s
  | .redscat a => Sys2Proof.Machine.execRedscat a s
  | .cbar a => Sys2Proof.Machine.execCbar a s
  | .collectiveRetire core team ordinal remote => Sys2Proof.Machine.execCollectiveRetire core team ordinal remote s
  | .eadd a => Sys2Proof.Machine.execEadd a s
  | .ewait a => Sys2Proof.Machine.execEwait a s
  | .erd a => Sys2Proof.Machine.execErd a s
  | .eventRepoll core remoteValue => Sys2Proof.Machine.execEventRepoll core remoteValue s
  | .rel a => Sys2Proof.Machine.execRel a s
  | .acq a => Sys2Proof.Machine.execAcq a s
  | .mwait a => Sys2Proof.Machine.execMwait a s
  | .fset a => Sys2Proof.Machine.execFset a s
  | .fwait a => Sys2Proof.Machine.execFwait a s
  | .lastoffPerform held => Sys2Proof.Machine.execLastoffPerform held s
  | .phys a => Sys2Proof.Machine.execPhys a s
  | .pmark a => Sys2Proof.Machine.execPmark a s
  | .pcnt a => Sys2Proof.Machine.execPcnt a s
  | .sbnew a => Sys2Proof.Machine.execSbnew a s
  | .sbcmt a => Sys2Proof.Machine.execSbcmt a s
  | .sbfree a => Sys2Proof.Machine.execSbfree a s
  | .sbstat a => Sys2Proof.Machine.execSbstat a s
  | .stree a => Sys2Proof.Machine.execStree a s
  | .sanc a => Sys2Proof.Machine.execSanc a s
  | .sacpt a => Sys2Proof.Machine.execSacpt a s
  | .scmt a => Sys2Proof.Machine.execScmt a s
  | .storageReturn freed => Sys2Proof.Machine.execStorageReturn freed s
  | .foldSwitch part pos parityError => Sys2Proof.Machine.execFoldSwitch part pos parityError s
  | .doorbell berth queue access value sender stores => Sys2Proof.Machine.execDoorbell berth queue access value sender stores s
  | .fetch berth queue => Sys2Proof.Machine.execFetch berth queue s
  | .waitEventPoll manifest => Sys2Proof.Machine.execWaitEventPoll manifest s
  | .admission manifest => Sys2Proof.Machine.execAdmission manifest s
  | .kernelIssue part => Sys2Proof.Machine.execKernelIssue part s
  | .runEnd manifest => Sys2Proof.Machine.execRunEnd manifest s
  | .tokenRingPoll manifest => Sys2Proof.Machine.execTokenRingPoll manifest s
  | .manifestComplete manifest => Sys2Proof.Machine.execManifestComplete manifest s
  | .cringPoll berth queue => Sys2Proof.Machine.execCringPoll berth queue s
  | .manifestRetire manifest => Sys2Proof.Machine.execManifestRetire manifest s
  | .replayReissue manifest => Sys2Proof.Machine.execReplayReissue manifest s
  | .loadBerth value busy => Sys2Proof.Machine.execLoadBerth value busy s
  | .berthLoaded berth => Sys2Proof.Machine.execBerthLoaded berth s
  | .unloadBerth value busy => Sys2Proof.Machine.execUnloadBerth value busy s
  | .berthEmpty berth => Sys2Proof.Machine.execBerthEmpty berth s
  | .brtQrevoke value => Sys2Proof.Machine.execBrtQrevoke value s
  | .ldgAbandon ticket => Sys2Proof.Machine.execLdgAbandon ticket s
  | .ldgCountRead releases => Sys2Proof.Machine.execLdgCountRead releases s
  | .xltFenceGo value => Sys2Proof.Machine.execXltFenceGo value s
  | .fenceComplete => Sys2Proof.Machine.execFenceComplete s
  | .xltCountRead counter => Sys2Proof.Machine.execXltCountRead counter s
  | .ttbCommit part value => Sys2Proof.Machine.execTtbCommit part value s
  | .ttbCommitEffect part => Sys2Proof.Machine.execTtbCommitEffect part s
  | .subCountRead counter => Sys2Proof.Machine.execSubCountRead counter s
  | .arbitration inst present => Sys2Proof.Machine.execArbitration inst present s
  | .waitCounterExpire inst requester => Sys2Proof.Machine.execWaitCounterExpire inst requester s
  | .arbEpochAdvance inst => Sys2Proof.Machine.execArbEpochAdvance inst s
  | .arbWithdraw inst requester => Sys2Proof.Machine.execArbWithdraw inst requester s
  | .arbCommit value => Sys2Proof.Machine.execArbCommit value s
  | .arbCountRead forced => Sys2Proof.Machine.execArbCountRead forced s
  | .scrubTurn part dram => Sys2Proof.Machine.execScrubTurn part dram s
  | .memUeClear value => Sys2Proof.Machine.execMemUeClear value s
  | .memCeRead part dram => Sys2Proof.Machine.execMemCeRead part dram s
  | .portEnable port value => Sys2Proof.Machine.execPortEnable port value s
  | .laneTrainingTimeout port lane => Sys2Proof.Machine.execLaneTrainingTimeout port lane s
  | .lnkCountRead port counter => Sys2Proof.Machine.execLnkCountRead port counter s
  | .frameForward link env frame => Sys2Proof.Machine.execFrameForward link env frame s
  | .neighbourSolicitation link env target => Sys2Proof.Machine.execNeighbourSolicitation link env target s
  | .ptpMessage arr domain fraction body => Sys2Proof.Machine.execPtpMessage arr domain fraction body s
  | .softAdvance value => Sys2Proof.Machine.execSoftAdvance value s
  | .hardAdvance value => Sys2Proof.Machine.execHardAdvance value s
  | .pnThreshold peer => Sys2Proof.Machine.execPnThreshold peer s
  | .advanceTimeout => Sys2Proof.Machine.execAdvanceTimeout s
  | .oldAnExpire peer => Sys2Proof.Machine.execOldAnExpire peer s
  | .laserLoss port power => Sys2Proof.Machine.execLaserLoss port power s
  | .laserRestore port power => Sys2Proof.Machine.execLaserRestore port power s
  | .countOff link env number => Sys2Proof.Machine.execCountOff link env number s
  | .claim link env hops number mac => Sys2Proof.Machine.execClaim link env hops number mac s
  | .defend link env hops number mac => Sys2Proof.Machine.execDefend link env hops number mac s
  | .claimTimer => Sys2Proof.Machine.execClaimTimer s
  | .discoveryFallback => Sys2Proof.Machine.execDiscoveryFallback s
  | .rediscover value => Sys2Proof.Machine.execRediscover value s
  | .hello rx mac reference records => Sys2Proof.Machine.execHello rx mac reference records s
  | .helloTimer => Sys2Proof.Machine.execHelloTimer s
  | .keeperLatencyUpdate slot => Sys2Proof.Machine.execKeeperLatencyUpdate slot s
  | .peerDead peer => Sys2Proof.Machine.execPeerDead peer s
  | .frameWrite rx ext data => Sys2Proof.Machine.execFrameWrite rx ext data s
  | .frameRead rx ext => Sys2Proof.Machine.execFrameRead rx ext s
  | .rdata rx ext data => Sys2Proof.Machine.execRdata rx ext data s
  | .atomic rx ext operand => Sys2Proof.Machine.execAtomic rx ext operand s
  | .wack rx move bytes => Sys2Proof.Machine.execWack rx move bytes s
  | .sack rx cum bitmap => Sys2Proof.Machine.execSack rx cum bitmap s
  | .sackTimer peer => Sys2Proof.Machine.execSackTimer peer s
  | .retransmitTimer peer seq => Sys2Proof.Machine.execRetransmitTimer peer seq s
  | .join vdev => Sys2Proof.Machine.execJoin vdev s
  | .activate vdev => Sys2Proof.Machine.execActivate vdev s
  | .rehost vdev => Sys2Proof.Machine.execRehost vdev s
  | .leave vdev => Sys2Proof.Machine.execLeave vdev s
  | .dissolve vdev => Sys2Proof.Machine.execDissolve vdev s
  | .request rx record => Sys2Proof.Machine.execRequest rx record s
  | .propose rx record => Sys2Proof.Machine.execPropose rx record s
  | .vote rx record => Sys2Proof.Machine.execVote rx record s
  | .compCommit rx record roster => Sys2Proof.Machine.execCompCommit rx record roster s
  | .compAbort rx record => Sys2Proof.Machine.execCompAbort rx record s
  | .reply rx record => Sys2Proof.Machine.execReply rx record s
  | .rosterSync rx vdev epoch record => Sys2Proof.Machine.execRosterSync rx vdev epoch record s
  | .partner rx tag vdev status => Sys2Proof.Machine.execPartner rx tag vdev status s
  | .handoff busy => Sys2Proof.Machine.execHandoff busy s
  | .hoOffer rx record => Sys2Proof.Machine.execHoOffer rx record s
  | .handoffCopyDone hid holder => Sys2Proof.Machine.execHandoffCopyDone hid holder s
  | .hoTake rx record => Sys2Proof.Machine.execHoTake rx record s
  | .hoAck rx record => Sys2Proof.Machine.execHoAck rx record s
  | .hoDone rx record => Sys2Proof.Machine.execHoDone rx record s
  | .hoRefuse rx record => Sys2Proof.Machine.execHoRefuse rx record s
  | .hoReport rx record => Sys2Proof.Machine.execHoReport rx record s
  | .hoDecide rx record => Sys2Proof.Machine.execHoDecide rx record s
  | .handoffTimer hid holder asHolder => Sys2Proof.Machine.execHandoffTimer hid holder asHolder s
  | .reportRepeat hid holder asHolder => Sys2Proof.Machine.execReportRepeat hid holder asHolder s
  | .keeperQueryTimeout hid holder => Sys2Proof.Machine.execKeeperQueryTimeout hid holder s
  | .decideRepeat hid holder => Sys2Proof.Machine.execDecideRepeat hid holder s
  | .rosLostClear value => Sys2Proof.Machine.execRosLostClear value s
  | .rosHoCountRead counter => Sys2Proof.Machine.execRosHoCountRead counter s
  | .hostLinkUp fast modules => Sys2Proof.Machine.execHostLinkUp fast modules s
  | .hostLinkDown => Sys2Proof.Machine.execHostLinkDown s
  | .hostLinkTimeout => Sys2Proof.Machine.execHostLinkTimeout s
  | .retrain value => Sys2Proof.Machine.execRetrain value s
  | .irqModerationExpire vector => Sys2Proof.Machine.execIrqModerationExpire vector s
  | .devModeWrite value => Sys2Proof.Machine.execDevModeWrite value s
  | .instanceWrite inst value => Sys2Proof.Machine.execInstanceWrite inst value s
  | .resetDrain inst => Sys2Proof.Machine.execResetDrain inst s
  | .resetSquash inst => Sys2Proof.Machine.execResetSquash inst s
  | .removeDrain inst => Sys2Proof.Machine.execRemoveDrain inst s
  | .removeSquash inst => Sys2Proof.Machine.execRemoveSquash inst s
  | .functionLevelReset inst => Sys2Proof.Machine.execFunctionLevelReset inst s
  | .cxlReset => Sys2Proof.Machine.execCxlReset s
  | .vfEnableClear => Sys2Proof.Machine.execVfEnableClear s
  | .instanceCommandDone inst => Sys2Proof.Machine.execInstanceCommandDone inst s
  | .rackGrant rx watts floor effective => Sys2Proof.Machine.execRackGrant rx watts floor effective s
  | .grantEffective => Sys2Proof.Machine.execGrantEffective s
  | .rackTimeout => Sys2Proof.Machine.execRackTimeout s
  | .rackReportTimer => Sys2Proof.Machine.execRackReportTimer s
  | .slackInterval slack => Sys2Proof.Machine.execSlackInterval slack s
  | .slack rx vdev value => Sys2Proof.Machine.execSlack rx vdev value s
  | .loanOrder rx vdev peer => Sys2Proof.Machine.execLoanOrder rx vdev peer s
  | .loan rx vdev expiry => Sys2Proof.Machine.execLoan rx vdev expiry s
  | .loanExpire => Sys2Proof.Machine.execLoanExpire s
  | .lentExpire => Sys2Proof.Machine.execLentExpire s
  | .railChoice die fits => Sys2Proof.Machine.execRailChoice die fits s
  | .railStepSettled die => Sys2Proof.Machine.execRailStepSettled die s
  | .pwrCommit value => Sys2Proof.Machine.execPwrCommit value s
  | .droop part => Sys2Proof.Machine.execDroop part s
  | .droopHoldExpire part => Sys2Proof.Machine.execDroopHoldExpire part s
  | .pwrDroopCntRead die => Sys2Proof.Machine.execPwrDroopCntRead die s
  | .pwrRsvShortRead part => Sys2Proof.Machine.execPwrRsvShortRead part s
  | .thermalOver die celsius => Sys2Proof.Machine.execThermalOver die celsius s
  | .thermalRecover die celsius => Sys2Proof.Machine.execThermalRecover die celsius s
  | .thermtrip => Sys2Proof.Machine.execThermtrip s
  | .install value busy tagOk kcvOk => Sys2Proof.Machine.execInstall value busy tagOk kcvOk s
  | .removeTenant value busy => Sys2Proof.Machine.execRemoveTenant value busy s
  | .removalWaitEnd => Sys2Proof.Machine.execRemovalWaitEnd s
  | .attest value busy => Sys2Proof.Machine.execAttest value busy s
  | .certs value busy => Sys2Proof.Machine.execCerts value busy s
  | .openBundle value busy tagOk kcvOk => Sys2Proof.Machine.execOpenBundle value busy tagOk kcvOk s
  | .decrypt value busy badChunk => Sys2Proof.Machine.execDecrypt value busy badChunk s
  | .closeBundle value busy => Sys2Proof.Machine.execCloseBundle value busy s
  | .eraseDomain value busy => Sys2Proof.Machine.execEraseDomain value busy s
  | .seal value busy => Sys2Proof.Machine.execSeal value busy s
  | .unseal value busy tagOk => Sys2Proof.Machine.execUnseal value busy tagOk s
  | .keyDebugEnable value => Sys2Proof.Machine.execKeyDebugEnable value s
  | .keyThaw value => Sys2Proof.Machine.execKeyThaw value s
  | .keyViolationsRead => Sys2Proof.Machine.execKeyViolationsRead s
  | .fltReset value => Sys2Proof.Machine.execFltReset value s
  | .salvageDone part => Sys2Proof.Machine.execSalvageDone part s
  | .salvageFallback part => Sys2Proof.Machine.execSalvageFallback part s
  | .salvageDeferredWrite part => Sys2Proof.Machine.execSalvageDeferredWrite part s
  | .zeroDone part => Sys2Proof.Machine.execZeroDone part s
  | .patternTestDone part failed => Sys2Proof.Machine.execPatternTestDone part failed s
  | .dramReinitDone part => Sys2Proof.Machine.execDramReinitDone part s
  | .channelReinitFailed channel => Sys2Proof.Machine.execChannelReinitFailed channel s
  | .partitionStranded part => Sys2Proof.Machine.execPartitionStranded part s
  | .retirementListWrite part flashOk => Sys2Proof.Machine.execRetirementListWrite part flashOk s
  | .fltRingWrite value => Sys2Proof.Machine.execFltRingWrite value s
  | .fltOvfClear value => Sys2Proof.Machine.execFltOvfClear value s
  | .faultSummaryWrite => Sys2Proof.Machine.execFaultSummaryWrite s
  | .seqset busy => Sys2Proof.Machine.execSeqset busy s
  | .retire busy => Sys2Proof.Machine.execRetire busy s
  | .retireClear busy => Sys2Proof.Machine.execRetireClear busy s
  | .extend busy => Sys2Proof.Machine.execExtend busy s
  | .compose busy => Sys2Proof.Machine.execCompose busy s
  | .fwWrite busy sigOk flashOk => Sys2Proof.Machine.execFwWrite busy sigOk flashOk s
  | .cfgWrite busy sigsOk flashOk => Sys2Proof.Machine.execCfgWrite busy sigsOk flashOk s
  | .journalRead busy => Sys2Proof.Machine.execJournalRead busy s
  | .faultSummary busy => Sys2Proof.Machine.execFaultSummary busy s
  | .telemetry busy => Sys2Proof.Machine.execTelemetry busy s
  | .ferRestart value => Sys2Proof.Machine.execFerRestart value s
  | .ferryHeartbeat => Sys2Proof.Machine.execFerryHeartbeat s
  | .ferryShed waitUs => Sys2Proof.Machine.execFerryShed waitUs s
  | .smbIdent => Sys2Proof.Machine.execSmbIdent s
  | .smbSerial => Sys2Proof.Machine.execSmbSerial s
  | .smbState => Sys2Proof.Machine.execSmbState s
  | .smbTemp => Sys2Proof.Machine.execSmbTemp s
  | .smbPower => Sys2Proof.Machine.execSmbPower s
  | .smbLaser => Sys2Proof.Machine.execSmbLaser s
  | .smbAlert => Sys2Proof.Machine.execSmbAlert s
  | .portTrained port iface => Sys2Proof.Machine.execPortTrained port iface s
  | .advanceConfirmed peer => Sys2Proof.Machine.execAdvanceConfirmed peer s
  | .peerAdvance peer hard => Sys2Proof.Machine.execPeerAdvance peer hard s
  | .salvageFallbackDone part => Sys2Proof.Machine.execSalvageFallbackDone part s
  | .reservedEncoding core word => Sys2Proof.Machine.execReservedEncoding core word s
  | .vfEnableSet numVfs => Sys2Proof.Machine.execVfEnableSet numVfs s
  | .ptpSyncInterval => Sys2Proof.Machine.execPtpSyncInterval s
  | .frameDiscarded arr frame => Sys2Proof.Machine.execFrameDiscarded arr frame s

end Sys2Proof.Machine
end

