-- ==== Sys2Proof/Machine/View.lean ====
section
/-! DEFINITION. What a read of each register returns: stored fields, shadows, and the fields that show state held elsewhere
(R11, R13, and the register tables of the chapters). No command of the table is a read but those of RC registers, which have
rows of their own; the reads here change nothing. -/

namespace Sys2Proof.Machine

def flagAt (b : Bool) (i : Nat) : Nat := if b then 2 ^ i else 0

/-- Whether an offset is element of an array of `n` registers, `stride` apart; and which. -/
def arrayIndex (off base stride n : Nat) : Option Nat :=
  if base ≤ off ∧ (off - base) % stride = 0 ∧ (off - base) / stride < n then some ((off - base) / stride) else none

/-! ## State held elsewhere, as registers show it -/

def berthCode : BerthState → Nat
  | .empty => 0
  | .loading => 1
  | .resident => 2
  | .unloading => 3

/-- BRT_BERTH[b] (R338). -/
def State.viewBerth (s : State) (b : BerthId) : Nat :=
  let x := s.berth b
  (if x.state = .empty then 0 else x.context.toNat * 2 ^ 48) + berthCode x.state * 2 ^ 46 + x.revoked.toNat * 2 ^ 16 + x.frozen.toNat

/-- DB_TAIL and DB_STATUS (R318). -/
def State.viewTail (s : State) (b : BerthId) (q : QueueId) : Nat := ((s.berth b).queue q).tail
def State.viewDbStatus (s : State) (b : BerthId) (q : QueueId) : Nat :=
  flagAt (s.qFrozen b q) 2 + flagAt (s.qRevoked b q) 1 + flagAt ((s.berth b).state == .resident && ((s.berth b).queue q).valid) 0

/-- MEM_UE[n]: HELD shows that a replay waits on the entry (R265). -/
def State.viewUe (s : State) (i : Fin 16) : Nat := match s.ueList[i] with
  | some (line, rewritten) => 2 ^ 63 + flagAt (s.manifests.any (fun m =>
      m.phase == .abandoned && s.replayHeld m && m.heldLines.contains line)) 62 + flagAt rewritten 61 + line
  | none => 0

/-- The index of the slot in force. -/
def slotIndexAt : List TtSlot → Nat → Nat
  | [], _ => 0
  | x :: rest, o => if o < x.beats then 0 else slotIndexAt rest (o - x.beats) + 1
def State.viewTtStatus (s : State) (p : PartId) : Nat :=
  let x := s.part p
  let t := x.timetable
  s.regField (R_TTB_STATUS + ttBase p) 30 30 * 2 ^ 30 + flagAt x.ttPending.isSome 31 +
  (if t.enable ∧ t.anchor ≤ s.beat then slotIndexAt t.slots (t.offsetAt s.beat) % 256 * 256 else 0)

/-- The registers that show the selected arbiter instance (R387, R388). -/
def State.viewArb (s : State) (off : Nat) : Nat :=
  let inst := s.regField R_ARB_SEL 8 0
  let a := s.arbNow inst
  let n := s.arbN inst
  if 0x180 < inst then 0
  else if off = R_ARB_CTRL then a.shadow.limit
  else if off = R_ARB_STATUS then flagAt a.refused 31 + a.base n * 2 ^ 17 + a.pointer * 2 ^ 11 + n
  else if off = R_ARB_BOUND then s.arbBound inst
  else if off = R_ARB_DEAD then a.dead.toNat
  else if off = R_ARB_FORCED then a.forced.toNat
  else match arrayIndex off R_ARB_SLOT 4 64 with
    | some i => (let e := mapGet (false, 0) a.shadow.slots i; flagAt e.1 31 + e.2)
    | none => match arrayIndex off R_ARB_PRIO 4 18 with
      | some r => if 0x170 ≤ inst then 0 else mapGet 0 a.shadow.prio r
      | none => match arrayIndex off R_ARB_WAIT 4 768 with
        | some r => if r < n then mapGet 0 a.wait r else 0
        | none => 0

/-- LNK_ROUTE and LNK_PEER_DELAY of the landing number LNK_ROUTE_SEL names (R395, R403). -/
def State.routeSel (s : State) : Landing := BitVec.ofNat 16 (s.regField R_LNK_ROUTE_SEL 15 0)
def State.viewRoute (s : State) : Nat :=
  let l := s.routeSel
  flagAt (l == s.landing && l != 0) 30 + (match mapGet none s.routes l.toNat with
    | some r => 2 ^ 31 + r.hops % 256 * 256 + r.port % 4 * 8 + r.iface % 8
    | none => 0)
def State.viewPeerDelay (s : State) : Nat := s.delayTo s.routeSel

/-- ROS_VSLOT, ROS_EPOCH, ROS_PART, ROS_LOST, ROS_PEER, ROS_HO_ACTIVE (R437). -/
def State.viewVslot (s : State) (v : SlotId) : Nat := match s.slotVdev v.val with
  | some d => 2 ^ 63 + flagAt (s.isKeeper d) 62 + flagAt d.severed 61 + flagAt (s.lostAll.getLsbD v.val) 60 +
      (match s.keeper d with
       | some k => k.toNat * 2 ^ 40
       | none => 0) + d.number.toNat
  | none => flagAt (s.lostAll.getLsbD v.val) 60
def State.viewEpoch (s : State) (v : SlotId) : Nat := match s.slotVdev v.val with
  | some d => d.epoch.toNat
  | none => 0
def partCode : PartState → Nat
  | .free => 0
  | .staging => 1
  | .active => 2
  | .leaving => 3
  | .resetting => 4
  | .stranded => 5
def State.viewPart (s : State) (p : PartId) : Nat :=
  let x := s.part p
  (match x.slot with
   | some v => x.rank * 256 + v.val * 16 + flagAt x.store 3
   | none => 0) + partCode x.state
def State.viewLost (s : State) (i : Fin 64) : Nat := match s.lost[i] with
  | some (v, q) => 2 ^ 63 + v.val * 2 ^ 20 + q.toNat
  | none => 0
def State.viewRosPeer (s : State) : Nat := match s.peer? (BitVec.ofNat 16 (s.regField R_ROS_PEER_SEL 15 0)) with
  | some p => flagAt p.live 31 + flagAt p.adjacent 30 + min 0xFFFF ((s.beat - p.lastHeard) / 1000)
  | none => 0xFFFF

/-- HST_INST_DRAIN[i]: partitions out of PARTS on which admitted work of the instance remains (R454). -/
def MPhase.isAdmitted : MPhase → Bool
  | .waitEvent => false
  | .admissible => false
  | .recorded => false
  | _ => true
def State.viewDrain (s : State) (i : Nat) : Nat :=
  let ms := s.manifests.filter (fun m => s.berthInst m.berth == some i && m.phase.isAdmitted)
  let parts := ms.flatMap (fun m => m.bookedParts ++ m.ranks.map (fun (r : RankRun) => r.part))
  ((List.range 16).map (fun c => flagAt (parts.contains c && !bitAt (s.instParts i) c) c)).foldl (· + ·) 0

/-- KEY_LINK: whether the flow from the peer KEY_LINK_SEL names is frozen (R514). -/
def State.viewKeyLink (s : State) : Nat := match s.peer? (BitVec.ofNat 16 (s.regField R_KEY_LINK_SEL 15 0)) with
  | some p => flagAt p.frozen 31
  | none => 0

/-! ## A whole register -/

/-- The elements of arrays that show state held elsewhere. -/
def State.viewArray (s : State) (off : Nat) : Option Nat :=
  match arrayIndex off R_BRT_BERTH 8 48 with
  | some b => some (if h : b < 48 then s.viewBerth ⟨b, h⟩ else 0)
  | none => match arrayIndex off R_XLT_EPOCH 4 48 with
  | some b => some (if h : b < 48 then (s.berth ⟨b, h⟩).epoch % 65536 else 0)
  | none => match arrayIndex off R_MEM_UE 8 16 with
  | some i => some (if h : i < 16 then s.viewUe ⟨i, h⟩ else 0)
  | none => match arrayIndex off R_TTB_STATUS 0x1000 16 with
  | some c => some (s.viewTtStatus (partOf c))
  | none => match arrayIndex off R_TTB_CYCLE 0x1000 16 with
  | some c => some ((s.part (partOf c)).timetable.cycle / 64)
  | none => match arrayIndex off R_TTB_BOOKED 0x1000 16 with
  | some c => some (s.bookedOn c)
  | none => match arrayIndex off R_ROS_VSLOT 8 16 with
  | some v => some (s.viewVslot (slotOf v))
  | none => match arrayIndex off R_ROS_EPOCH 4 16 with
  | some v => some (s.viewEpoch (slotOf v))
  | none => match arrayIndex off R_ROS_PART 4 16 with
  | some c => some (s.viewPart (partOf c))
  | none => match arrayIndex off R_ROS_LOST 8 64 with
  | some i => some (if h : i < 64 then s.viewLost ⟨i, h⟩ else 0)
  | none => match arrayIndex off R_HST_INST_DRAIN 4 64 with
  | some i => some (s.viewDrain i)
  | none => none

/-- A doorbell register: berth pages from 0x0100_0000, queue registers 0x1000 apart (R318). -/
def State.viewDoorbell (s : State) (off : Nat) : Option Nat :=
  if h : 0x1000000 ≤ off ∧ (off - 0x1000000) / 0x10000 < 48 then
    let b : BerthId := ⟨(off - 0x1000000) / 0x10000, h.2⟩
    let q : QueueId := ⟨off / 0x1000 % 16, by omega⟩
    if off % 0x1000 = 0 then some (s.viewTail b q) else if off % 0x1000 = 8 then some (s.viewDbStatus b q) else none
  else none

/-- The value a register shows, by its offset; RC fields are read here without clearing, and WO fields read zero. -/
def State.viewReg (s : State) (off : Nat) : Nat :=
  if off = R_DEV_BEAT then s.beat % 2 ^ 64
  else if off = R_SUB_STATUS then (s.manifests.filter (fun m => m.phase == .waitEvent)).length % 256
  else if off = R_XLT_STATUS then s.regField R_XLT_STATUS 5 5 * 32 + s.fences.length
  else if off = R_LNK_ROUTE then s.viewRoute
  else if off = R_LNK_PEER_DELAY then s.viewPeerDelay
  else if off = R_ROS_PEER then s.viewRosPeer
  else if off = R_ROS_HO_ACTIVE then s.handoffsHeld.length
  else if off = R_KEY_LINK then s.viewKeyLink
  else if off = R_FER_LOAD then (Config.ferryLoad s.free).toNat
  else if off = R_PWR_POWER then s.regField R_PWR_POWER 31 16 * 65536 + s.windowPower
  else if arbOff off ∧ off ≠ R_ARB_COMMIT then s.viewArb off
  else match s.viewArray off with
    | some v => v
    | none =>
      let stored := (s.reg off).toNat
      match findReg off with
      | some r => if r.fields.any (fun f => f.acc == .rws) then
          (r.fields.filter (fun f => f.acc == .rws)).foldl (fun w (f : RegField) => setWBits w f.hi f.lo (wbits (s.shad off) f.hi f.lo))
            (s.reg off) |>.toNat
        else stored
      | none => stored

/-- What a read by the host returns: all ones where the access completes without effect (R11, R441). An aligned read of eight bytes that
are wholly reserved, of which R11's list and R15's reserved bits say different things, returns all ones. DESIGN CHOICE (log entry 108,
unsafe). -/
def State.hostReadReg (s : State) (off size : Nat) : Nat :=
  let ones := 2 ^ (8 * size) - 1
  if !s.answers off then ones
  else match regAccess off size with
    | some (o, _, hi, lo) => bits (s.viewReg o) hi lo
    | none => match s.viewDoorbell (off / 8 * 8) with
      | some v => if size = 8 ∧ off % 8 = 0 ∧ off % 0x1000 = 0 then v
          else if size = 4 ∧ off % 4 = 0 then bits v (31 + off % 8 * 8) (off % 8 * 8) else ones
      | none => if size = 4 ∧ off % 4 = 0 then 0 else ones

end Sys2Proof.Machine
end

