-- ==== Sys2Proof/WellFormed.lean ====
section
/-! DEFINITION. Which commands the outside can send: the checks on operands that their types leave open. -/

namespace Sys2Proof

/-- Host physical addresses have at most 52 bits (R444). -/
def storesOk (w : HostStores) : Bool := w.all (fun p => decide (p.1 < 2 ^ 52))

/-- No value twice. -/
def distinct : List Nat → Bool
  | [] => true
  | x :: t => !t.contains x && distinct t

/-- PRIOR is zero without LASTOFF (R426). -/
def extOk (rx : Rx) (e : DataExt) : Bool := rx.lastOff || e.prior == 0

/-- A composition record names a partition from 0 to 15 and a rank of 14 bits (R428). -/
def recordOk (r : CompRecord) : Bool := decide (r.part.toNat < 16) && decide (r.rank.toNat < 2 ^ 14)

/-- A handoff record has a COUNT from 1 to 128 and a KIND of 0 or 1 (R431). -/
def handoffOk (r : HandoffRecord) : Bool :=
  decide (1 ≤ r.count.toNat) && decide (r.count.toNat ≤ 128) && decide (r.kind.toNat ≤ 1)

/-- The operands of a command are ones the outside can send. -/
def Instr.wellFormed : Instr → Bool
  | .powerGood => true
  | .powerDown => true
  | .supplyFault => true
  | .startAssay _ _ _ => true
  | .startRoot _ => true
  | .startFerry _ => true
  | .startCompute _ => true
  | .startDram _ _ => true
  | .startOptics _ => true
  | .startRoster _ => true
  | .registerWrite _ size _ stores => decide (0 < size.val) && storesOk stores
  | .add _ => true
  | .sub _ => true
  | .and _ => true
  | .or _ => true
  | .xor _ => true
  | .andn _ => true
  | .sll _ => true
  | .srl _ => true
  | .sra _ => true
  | .min _ => true
  | .max _ => true
  | .minu _ => true
  | .maxu _ => true
  | .mul _ => true
  | .mulhu _ => true
  | .mulhs _ => true
  | .divu _ => true
  | .divs _ => true
  | .remu _ => true
  | .rems _ => true
  | .clz _ => true
  | .ctz _ => true
  | .popc _ => true
  | .alui _ _ => true
  | .movi _ => true
  | .movh _ => true
  | .sel _ => true
  | .cmp _ _ => true
  | .cmpi _ _ => true
  | .pand _ => true
  | .por _ => true
  | .pxor _ => true
  | .pandn _ => true
  | .pnot _ => true
  | .ld8u _ => true
  | .ld16u _ => true
  | .ld32u _ => true
  | .ld64 _ => true
  | .ld8s _ => true
  | .ld16s _ => true
  | .ld32s _ => true
  | .st8 _ => true
  | .st16 _ => true
  | .st32 _ => true
  | .st64 _ => true
  | .bra _ => true
  | .call _ => true
  | .jr _ => true
  | .loopDec _ => true
  | .nop _ => true
  | .kend _ => true
  | .brk _ => true
  | .srd _ => true
  | .tdset _ => true
  | .tdscl _ => true
  | .tdadd _ => true
  | .mma _ => true
  | .azero _ => true
  | .adrn _ => true
  | .adrv _ => true
  | .vadd _ => true
  | .vsub _ => true
  | .vmul _ => true
  | .vfma _ => true
  | .vfnma _ => true
  | .vmin _ => true
  | .vmax _ => true
  | .vabs _ => true
  | .vneg _ => true
  | .vmov _ => true
  | .vrope _ => true
  | .vbadd _ => true
  | .vbsub _ => true
  | .vbmul _ => true
  | .vbfma _ => true
  | .vbfnma _ => true
  | .vbmin _ => true
  | .vbmax _ => true
  | .vfeq _ => true
  | .vflt _ => true
  | .vfle _ => true
  | .vfun _ => true
  | .vieq _ => true
  | .vilt _ => true
  | .viltu _ => true
  | .viadd _ => true
  | .visub _ => true
  | .viand _ => true
  | .vior _ => true
  | .vixor _ => true
  | .viandn _ => true
  | .visll _ => true
  | .visrl _ => true
  | .visra _ => true
  | .vimin _ => true
  | .vimax _ => true
  | .viminu _ => true
  | .vimaxu _ => true
  | .vimul _ => true
  | .vsel _ => true
  | .vbcast _ => true
  | .viota _ => true
  | .vfirst _ => true
  | .vget _ => true
  | .vput _ => true
  | .vperm _ => true
  | .vf2bf _ => true
  | .vbf2fl _ => true
  | .vbf2fh _ => true
  | .vf2h _ => true
  | .vh2fl _ => true
  | .vh2fh _ => true
  | .vf2i _ => true
  | .vf2iz _ => true
  | .vi2f _ => true
  | .vqmx _ => true
  | .vld _ => true
  | .vst _ => true
  | .vrsum _ => true
  | .vrmax _ => true
  | .vrmin _ => true
  | .vrisum _ => true
  | .exp2 _ => true
  | .log2 _ => true
  | .rcp _ => true
  | .rsq _ => true
  | .tanh _ => true
  | .sigm _ => true
  | .sin _ => true
  | .cos _ => true
  | .vosm _ => true
  | .vrms _ => true
  | .vrng _ => true
  | .srng _ => true
  | .topk _ => true
  | .tkmrg _ => true
  | .sdraw _ => true
  | .copy _ _ => true
  | .fill _ _ => true
  | .movementRetire _ => true
  | .allred _ => true
  | .allgath _ => true
  | .redscat _ => true
  | .cbar _ => true
  | .collectiveRetire _ _ _ remote => distinct (remote.map (·.1))
  | .eadd _ => true
  | .ewait _ => true
  | .erd _ => true
  | .eventRepoll _ _ => true
  | .rel _ => true
  | .acq _ => true
  | .mwait _ => true
  | .fset _ => true
  | .fwait _ => true
  | .lastoffPerform _ => true
  | .phys _ => true
  | .pmark _ => true
  | .pcnt _ => true
  | .sbnew _ => true
  | .sbcmt _ => true
  | .sbfree _ => true
  | .sbstat _ => true
  | .stree _ => true
  | .sanc _ => true
  | .sacpt _ => true
  | .scmt _ => true
  | .storageReturn _ => true
  | .foldSwitch _ _ _ => true
  | .doorbell _ _ _ _ _ stores => storesOk stores
  | .fetch _ _ => true
  | .waitEventPoll _ => true
  | .admission _ => true
  | .kernelIssue _ => true
  | .runEnd _ => true
  | .tokenRingPoll _ => true
  | .manifestComplete _ => true
  | .cringPoll _ _ => true
  | .manifestRetire _ => true
  | .replayReissue _ => true
  | .loadBerth _ _ => true
  | .berthLoaded _ => true
  | .unloadBerth _ _ => true
  | .berthEmpty _ => true
  | .brtQrevoke _ => true
  | .ldgAbandon _ => true
  | .ldgCountRead _ => true
  | .xltFenceGo _ => true
  | .fenceComplete => true
  | .xltCountRead _ => true
  | .ttbCommit _ _ => true
  | .ttbCommitEffect _ => true
  | .subCountRead _ => true
  | .arbitration _ present => distinct present
  | .waitCounterExpire _ _ => true
  | .arbEpochAdvance _ => true
  | .arbWithdraw _ _ => true
  | .arbCommit _ => true
  | .arbCountRead _ => true
  | .scrubTurn _ _ => true
  | .memUeClear _ => true
  | .memCeRead _ _ => true
  | .portEnable _ _ => true
  | .laneTrainingTimeout _ _ => true
  | .lnkCountRead _ _ => true
  | .frameForward _ _ frame => decide (frame.payload.length ≤ 4096)
  | .neighbourSolicitation _ _ _ => true
  | .ptpMessage _ _ _ _ => true
  | .softAdvance _ => true
  | .hardAdvance _ => true
  | .pnThreshold _ => true
  | .advanceTimeout => true
  | .oldAnExpire _ => true
  | .laserLoss _ _ => true
  | .laserRestore _ _ => true
  | .countOff _ _ _ => true
  | .claim _ _ _ _ _ => true
  | .defend _ _ _ _ _ => true
  | .claimTimer => true
  | .discoveryFallback => true
  | .rediscover _ => true
  | .hello _ _ _ records => decide (records.length ≤ 16)
  | .helloTimer => true
  | .keeperLatencyUpdate _ => true
  | .peerDead _ => true
  | .frameWrite rx ext _ => extOk rx ext && ext.len == 0
  | .frameRead rx ext => extOk rx ext
  | .rdata rx ext _ => extOk rx ext && ext.len == 0
  | .atomic rx ext _ => extOk rx ext && ext.len == 0
  | .wack _ _ _ => true
  | .sack _ _ _ => true
  | .sackTimer _ => true
  | .retransmitTimer _ _ => true
  | .join _ => true
  | .activate _ => true
  | .rehost _ => true
  | .leave _ => true
  | .dissolve _ => true
  | .request _ r => recordOk r
  | .propose _ r => recordOk r
  | .vote _ r => recordOk r
  | .compCommit _ r roster => recordOk r && distinct (roster.map (·.rank.val))
  | .compAbort _ r => recordOk r
  | .reply _ r => recordOk r
  | .rosterSync _ _ _ _ => true
  | .partner _ _ _ _ => true
  | .handoff _ => true
  | .hoOffer _ r => handoffOk r && r.pairs.length == r.count.toNat
  | .handoffCopyDone _ _ => true
  | .hoTake _ r => handoffOk r && r.pairs.isEmpty
  | .hoAck _ r => handoffOk r && r.pairs.isEmpty
  | .hoDone _ r => handoffOk r && r.pairs.isEmpty
  | .hoRefuse _ r => handoffOk r && r.pairs.isEmpty
  | .hoReport _ r => handoffOk r && r.pairs.isEmpty
  | .hoDecide _ r => handoffOk r && r.pairs.isEmpty
  | .handoffTimer _ _ _ => true
  | .reportRepeat _ _ _ => true
  | .keeperQueryTimeout _ _ => true
  | .decideRepeat _ _ => true
  | .rosLostClear _ => true
  | .rosHoCountRead _ => true
  | .hostLinkUp _ _ => true
  | .hostLinkDown => true
  | .hostLinkTimeout => true
  | .retrain _ => true
  | .irqModerationExpire _ => true
  | .devModeWrite _ => true
  | .instanceWrite _ _ => true
  | .resetDrain _ => true
  | .resetSquash _ => true
  | .removeDrain _ => true
  | .removeSquash _ => true
  | .functionLevelReset _ => true
  | .cxlReset => true
  | .vfEnableClear => true
  | .instanceCommandDone _ => true
  | .rackGrant _ _ _ _ => true
  | .grantEffective => true
  | .rackTimeout => true
  | .rackReportTimer => true
  | .slackInterval l => distinct (l.map (·.1.val))
  | .slack _ _ _ => true
  | .loanOrder _ _ _ => true
  | .loan _ _ _ => true
  | .loanExpire => true
  | .lentExpire => true
  | .railChoice _ _ => true
  | .railStepSettled _ => true
  | .pwrCommit _ => true
  | .droop _ => true
  | .droopHoldExpire _ => true
  | .pwrDroopCntRead _ => true
  | .pwrRsvShortRead _ => true
  | .thermalOver _ _ => true
  | .thermalRecover _ _ => true
  | .thermtrip => true
  | .install _ _ _ _ => true
  | .removeTenant _ _ => true
  | .removalWaitEnd => true
  | .attest _ _ => true
  | .certs _ _ => true
  | .openBundle _ _ _ _ => true
  | .decrypt _ _ badChunk => match badChunk with | some n => decide (n < 2 ^ 32) | none => true
  | .closeBundle _ _ => true
  | .eraseDomain _ _ => true
  | .seal _ _ => true
  | .unseal _ _ _ => true
  | .keyDebugEnable _ => true
  | .keyThaw _ => true
  | .keyViolationsRead => true
  | .fltReset _ => true
  | .salvageDone _ => true
  | .salvageFallback _ => true
  | .salvageDeferredWrite _ => true
  | .zeroDone _ => true
  | .patternTestDone _ _ => true
  | .dramReinitDone _ => true
  | .channelReinitFailed _ => true
  | .partitionStranded _ => true
  | .retirementListWrite _ _ => true
  | .fltRingWrite _ => true
  | .fltOvfClear _ => true
  | .faultSummaryWrite => true
  | .seqset _ => true
  | .retire _ => true
  | .retireClear _ => true
  | .extend _ => true
  | .compose _ => true
  | .fwWrite _ _ _ => true
  | .cfgWrite _ _ _ => true
  | .journalRead _ => true
  | .faultSummary _ => true
  | .telemetry _ => true
  | .ferRestart _ => true
  | .ferryHeartbeat => true
  | .ferryShed _ => true
  | .smbIdent => true
  | .smbSerial => true
  | .smbState => true
  | .smbTemp => true
  | .smbPower => true
  | .smbLaser => true
  | .smbAlert => true
  | .portTrained _ _ => true
  | .advanceConfirmed _ => true
  | .peerAdvance _ _ => true
  | .salvageFallbackDone _ => true
  | .reservedEncoding _ _ => true
  | .vfEnableSet numVfs => decide (numVfs < 2 ^ 16)
  | .ptpSyncInterval => true
  | .frameDiscarded _ _ => true

end Sys2Proof
end

