-- ==== Sys2Proof/Safety.lean ====
section
/-! DEFINITION. The terms claims use: canonical stores, a part that operates, what is left without power, when a logical
core dispatches an instruction and what the instruction leaves, and which commands can meet an undefined misuse. -/

namespace Sys2Proof.Machine

/-! ## Canonical stores -/

/-- Device memory with its error patterns and line keys, host memory and the flash are in canonical form. -/
def Memory.wf (s : State) : Bool :=
  mapWf 0 s.mem && mapWf [] s.lineErrors && mapWf .unwritten s.lineKeys && mapWf 0 s.host && mapWf 0 s.flash

/-- The registers and their shadows are in canonical form. -/
def Registers.wf (s : State) : Bool := mapWf none s.regs && mapWf none s.shadow

/-! ## Power -/

/-- The part operates within R19: PWRGD is asserted and the supply holds. -/
def Operates (s : State) : Prop := s.powered = true ∧ s.supplyBroken = false

/-- Without PWRGD nothing of the part holds but the flash (R560). The waiting commands, the host's memory, what has left the
part, and the model's own counters are not the part's. -/
def OnlyFlashHolds (s : State) : Prop :=
  s = { State.reset with
    pending := s.pending
    flash := s.flash
    host := s.host
    out := s.out
    free := s.free
    key := { KeySt.reset with randoms := s.key.randoms } }

/-- The invariant of the supply: while PWRGD is deasserted nothing but the flash holds, and a supply fault ends with it. -/
def SupplyInv (s : State) : Prop := s.powered = false → OnlyFlashHolds s

/-! ## Instructions of a logical core -/

/-- A logical core dispatches an instruction of this form and its operation runs: the core runs and is not frozen or folded
away, the encoding is legal, the predicate holds 1, and no hardware error is met (R55, R76 to R79, R95). -/
structure Dispatches (s : State) (a : CoreOp) (f : Form) : Prop where
  operates : Operates s
  running : (s.core a.core).phase = .running
  thawed : s.coreFrozen a.core = false
  placed : (s.part (corePart a.core)).onPos (coreNum a.core) = true
  legal : s.illegal a.core f = false
  predicated : a.pe = true → (s.core a.core).preg a.pred = true
  sound : a.upset = .none

/-- The word after an instruction of `n` words is one the program counter may reach (R81). -/
def FallsThrough (s : State) (a : CoreOp) (n : Nat) : Prop :=
  targetOk (s.core a.core).text ((s.core a.core).pc.toNat + n) = true

/-- The state after an instruction of `n` words that changes its own core by `g` and raises the flags `fl`: nothing else
changes, and the program counter moves past the instruction. -/
def afterInstr (s : State) (a : CoreOp) (n : Nat) (g : CoreSt → CoreSt) (fl : FpFlags) : State :=
  (s.orFlags a.core fl).updCore a.core (fun c => { g c with pc := BitVec.ofNat 32 (c.pc.toNat + n) })

/-- The instruction `i` of form `f` completes wherever it is dispatched on operands that satisfy `pre` and the next word may
be reached: it changes its core by `g`, raises the flags `fl`, and changes nothing else. -/
def Completes (i : Instr) (a : CoreOp) (f : Form) (pre : CoreSt → Prop) (g : CoreSt → CoreSt) (fl : CoreSt → FpFlags) :
    Prop :=
  ∀ s : State, Dispatches s a f → FallsThrough s a f.words → pre (s.core a.core) →
    exec i s = .next (afterInstr s a f.words g (fl (s.core a.core)))

/-- As `Completes`, for an instruction that raises no flags and runs on any operands. -/
def CompletesPure (i : Instr) (a : CoreOp) (f : Form) (g : CoreSt → CoreSt) : Prop :=
  Completes i a f (fun _ => True) g (fun _ => 0)

/-- A core takes an instruction into its movement-with-synchronisation unit's queue, where it waits to start (R145, R169). -/
def enqueue (kind : SyncKind) (a : CoreOp) (c : CoreSt) : CoreSt := { c with sync := c.sync ++ [⟨kind, a, c.pc, c.s⟩] }

/-- The state after an instruction raises an exception on its core. -/
def afterRaise (s : State) (a : CoreOp) (code : Nat) : State := s.framed (s.raise a.core code)

/-- The instruction a logical core dispatches with this command, and its form; none for the other commands. -/
def instrForm : Instr → Option (CoreOp × Form)
  | .powerGood => none
  | .powerDown => none
  | .supplyFault => none
  | .startAssay _ _ _ => none
  | .startRoot _ => none
  | .startFerry _ => none
  | .startCompute _ => none
  | .startDram _ _ => none
  | .startOptics _ => none
  | .startRoster _ => none
  | .registerWrite _ _ _ _ => none
  | .add a => some (a, plainForm (noImm a))
  | .sub a => some (a, plainForm (noImm a))
  | .and a => some (a, plainForm (noImm a))
  | .or a => some (a, plainForm (noImm a))
  | .xor a => some (a, plainForm (noImm a))
  | .andn a => some (a, plainForm (noImm a))
  | .sll a => some (a, plainForm (noImm a))
  | .srl a => some (a, plainForm (noImm a))
  | .sra a => some (a, plainForm (noImm a))
  | .min a => some (a, plainForm (noImm a))
  | .max a => some (a, plainForm (noImm a))
  | .minu a => some (a, plainForm (noImm a))
  | .maxu a => some (a, plainForm (noImm a))
  | .mul a => some (a, plainForm (noImm a))
  | .mulhu a => some (a, plainForm (noImm a))
  | .mulhs a => some (a, plainForm (noImm a))
  | .divu a => some (a, plainForm (noImm a))
  | .divs a => some (a, plainForm (noImm a))
  | .remu a => some (a, plainForm (noImm a))
  | .rems a => some (a, plainForm (noImm a))
  | .clz a => some (a, plainForm (noSrc2 a && noImm a))
  | .ctz a => some (a, plainForm (noSrc2 a && noImm a))
  | .popc a => some (a, plainForm (noSrc2 a && noImm a))
  | .alui a func => some (a, plainForm (aluiLegal a func.val))
  | .movi a => some (a, plainForm (noSrc1 a && noSrc2 a))
  | .movh a => some (a, plainForm (noSrc2 a && immBelow a 32))
  | .sel a => some (a, plainForm (immBelow a 3))
  | .cmp a func => some (a, plainForm (noImm a && isLow3 a.dst && (cmpFunc func.val).isSome))
  | .cmpi a func => some (a, plainForm (noSrc2 a && isLow3 a.dst && (cmpFunc func.val).isSome))
  | .pand a => some (a, plainForm (noImm a && isLow3 a.dst && isLow3 a.src1 && isLow3 a.src2))
  | .por a => some (a, plainForm (noImm a && isLow3 a.dst && isLow3 a.src1 && isLow3 a.src2))
  | .pxor a => some (a, plainForm (noImm a && isLow3 a.dst && isLow3 a.src1 && isLow3 a.src2))
  | .pandn a => some (a, plainForm (noImm a && isLow3 a.dst && isLow3 a.src1 && isLow3 a.src2))
  | .pnot a => some (a, plainForm (noImm a && noSrc2 a && isLow3 a.dst && isLow3 a.src1))
  | .ld8u a => some (a, benchForm (noSrc2 a))
  | .ld16u a => some (a, benchForm (noSrc2 a))
  | .ld32u a => some (a, benchForm (noSrc2 a))
  | .ld64 a => some (a, benchForm (noSrc2 a))
  | .ld8s a => some (a, benchForm (noSrc2 a))
  | .ld16s a => some (a, benchForm (noSrc2 a))
  | .ld32s a => some (a, benchForm (noSrc2 a))
  | .st8 a => some (a, benchForm (noDst a))
  | .st16 a => some (a, benchForm (noDst a))
  | .st32 a => some (a, benchForm (noDst a))
  | .st64 a => some (a, benchForm (noDst a))
  | .bra a => some (a, plainForm (noDst a && noSrc1 a && noSrc2 a))
  | .call a => some (a, plainForm (noSrc1 a && noSrc2 a))
  | .jr a => some (a, plainForm (noDst a && noSrc2 a))
  | .loopDec a => some (a, plainForm (noSrc1 a && noSrc2 a && a.dst != 0))
  | .nop a => some (a, plainForm (noDst a && noSrc1 a && noSrc2 a && noImm a))
  | .kend a => some (a, plainForm (noDst a && noSrc1 a && noSrc2 a && noImm a))
  | .brk a => some (a, plainForm (noDst a && noSrc1 a && noSrc2 a && noImm a))
  | .srd a => some (a, plainForm (noSrc1 a && noSrc2 a && immBelow a 12 && specialOk (opImm a 11 0)))
  | .tdset a => some (a, ⟨1, fmtIsMx (tdsetFmt a), fun _ => false, tdsetLegal a⟩)
  | .tdscl a => some (a, ⟨1, true, fun _ => false, isLow3 a.dst && noSrc2 a && immBelow a 13⟩)
  | .tdadd a => some (a, plainForm (isLow3 a.dst && noImm a))
  | .mma a => some (a, benchForm (isAcc a.dst && isLow3 a.src1 && isLow3 a.src2 && immBelow a 1))
  | .azero a => some (a, plainForm (isAcc a.dst && noSrc1 a && noSrc2 a && noImm a))
  | .adrn a => some (a, storeForm (isLow3 a.dst && isAcc a.src1 && noSrc2 a && immBelow a 1) (fun c => drainReads (c.dreg (low3 a.dst))))
  | .adrv a => some (a, plainForm (isAcc a.src1 && noSrc2 a && immBelow a 4))
  | .vadd a => some (a, plainForm (vecLegal a true false))
  | .vsub a => some (a, plainForm (vecLegal a true false))
  | .vmul a => some (a, plainForm (vecLegal a true false))
  | .vfma a => some (a, plainForm (vecLegal a true true))
  | .vfnma a => some (a, plainForm (vecLegal a true true))
  | .vmin a => some (a, plainForm (vecLegal a true false))
  | .vmax a => some (a, plainForm (vecLegal a true false))
  | .vabs a => some (a, plainForm (vecLegal a false false))
  | .vneg a => some (a, plainForm (vecLegal a false false))
  | .vmov a => some (a, plainForm (vecLegal a false false))
  | .vrope a => some (a, plainForm (vecLegal a true true))
  | .vbadd a => some (a, plainForm (vecLegal a true false))
  | .vbsub a => some (a, plainForm (vecLegal a true false))
  | .vbmul a => some (a, plainForm (vecLegal a true false))
  | .vbfma a => some (a, plainForm (vecLegal a true true))
  | .vbfnma a => some (a, plainForm (vecLegal a true true))
  | .vbmin a => some (a, plainForm (vecLegal a true false))
  | .vbmax a => some (a, plainForm (vecLegal a true false))
  | .vfeq a => some (a, plainForm (vecLegal a true false))
  | .vflt a => some (a, plainForm (vecLegal a true false))
  | .vfle a => some (a, plainForm (vecLegal a true false))
  | .vfun a => some (a, plainForm (vecLegal a true false))
  | .vieq a => some (a, plainForm (vecLegal a true false))
  | .vilt a => some (a, plainForm (vecLegal a true false))
  | .viltu a => some (a, plainForm (vecLegal a true false))
  | .viadd a => some (a, plainForm (vecLegal a true false))
  | .visub a => some (a, plainForm (vecLegal a true false))
  | .viand a => some (a, plainForm (vecLegal a true false))
  | .vior a => some (a, plainForm (vecLegal a true false))
  | .vixor a => some (a, plainForm (vecLegal a true false))
  | .viandn a => some (a, plainForm (vecLegal a true false))
  | .visll a => some (a, plainForm (vecLegal a true false))
  | .visrl a => some (a, plainForm (vecLegal a true false))
  | .visra a => some (a, plainForm (vecLegal a true false))
  | .vimin a => some (a, plainForm (vecLegal a true false))
  | .vimax a => some (a, plainForm (vecLegal a true false))
  | .viminu a => some (a, plainForm (vecLegal a true false))
  | .vimaxu a => some (a, plainForm (vecLegal a true false))
  | .vimul a => some (a, plainForm (vecLegal a true false))
  | .vsel a => some (a, plainForm (vecLegal a true true))
  | .vbcast a => some (a, plainForm (vecLegal a false false))
  | .viota a => some (a, plainForm (vecLegal a false false && noSrc1 a))
  | .vfirst a => some (a, plainForm (vecLegal a false false))
  | .vget a => some (a, plainForm (laneLegal a))
  | .vput a => some (a, plainForm (laneLegal a))
  | .vperm a => some (a, plainForm (vecLegal a true false))
  | .vf2bf a => some (a, plainForm (vecLegal a true false))
  | .vbf2fl a => some (a, plainForm (vecLegal a false false))
  | .vbf2fh a => some (a, plainForm (vecLegal a false false))
  | .vf2h a => some (a, plainForm (vecLegal a true false))
  | .vh2fl a => some (a, plainForm (vecLegal a false false))
  | .vh2fh a => some (a, plainForm (vecLegal a false false))
  | .vf2i a => some (a, plainForm (vecLegal a false false))
  | .vf2iz a => some (a, plainForm (vecLegal a false false))
  | .vi2f a => some (a, plainForm (vecLegal a false false))
  | .vqmx a => some (a, ⟨1, true, fun _ => false, noSrc2 a && opImm a 18 0 == 0 && immBelow a 23 && fmtIsMx (opImm a 22 19)⟩)
  | .vld a => some (a, benchForm (vldstLegal a && noSrc2 a))
  | .vst a => some (a, storeForm (vldstLegal a && noDst a) (vstReads a))
  | .vrsum a => some (a, plainForm (segLegal a && noSrc2 a))
  | .vrmax a => some (a, plainForm (segLegal a && noSrc2 a))
  | .vrmin a => some (a, plainForm (segLegal a && noSrc2 a))
  | .vrisum a => some (a, plainForm (segLegal a && noSrc2 a))
  | .exp2 a => some (a, plainForm (vecLegal a false false))
  | .log2 a => some (a, plainForm (vecLegal a false false))
  | .rcp a => some (a, plainForm (vecLegal a false false))
  | .rsq a => some (a, plainForm (vecLegal a false false))
  | .tanh a => some (a, plainForm (vecLegal a false false))
  | .sigm a => some (a, plainForm (vecLegal a false false))
  | .sin a => some (a, plainForm (vecLegal a false false))
  | .cos a => some (a, plainForm (vecLegal a false false))
  | .vosm a => some (a, plainForm (segLegal a && noSrc2 a))
  | .vrms a => some (a, plainForm (segLegal a))
  | .vrng a => some (a, plainForm ((opMe a || opVm a == 0) && opSrc3 a == 0 && immBelow a 19))
  | .srng a => some (a, plainForm (opImm a 10 0 == 0 && immBelow a 19))
  | .topk a => some (a, benchForm (evenReg a.dst && kLegal (opImm a 13 5) && immBelow a 14))
  | .tkmrg a => some (a, plainForm (evenReg a.dst && evenReg a.src1 && evenReg a.src2 && kLegal (opImm a 8 0) && immBelow a 9))
  | .sdraw a => some (a, plainForm (immBelow a 14))
  | .copy a second => some (a, moveForm a second false)
  | .fill a second => some (a, moveForm a second true)
  | .movementRetire _ => none
  | .allred a => some (a, collForm a fAllred)
  | .allgath a => some (a, collForm a fAllgath)
  | .redscat a => some (a, collForm a fRedscat)
  | .cbar a => some (a, collForm a fCbar)
  | .collectiveRetire _ _ _ _ => none
  | .eadd a => some (a, evtForm a (noDst a))
  | .ewait a => some (a, evtForm a true)
  | .erd a => some (a, evtForm a (noSrc2 a && opScope a == 0))
  | .eventRepoll _ _ => none
  | .rel a => some (a, fenceForm a (immBelow a 3 && scopeOk a))
  | .acq a => some (a, fenceForm a (immBelow a 3 && scopeOk a))
  | .mwait a => some (a, fenceForm a (immBelow a 16 && !noImm a))
  | .fset a => some (a, flagForm a (noDst a && immBelow a 12))
  | .fwait a => some (a, flagForm a (immBelow a 7))
  | .lastoffPerform _ => none
  | .phys a => some (a, plainForm (noSrc1 a && noSrc2 a && noImm a))
  | .pmark a => some (a, plainForm (noDst a && noSrc1 a && noSrc2 a && immBelow a 16))
  | .pcnt a => some (a, plainForm (noSrc1 a && noSrc2 a && immBelow a 8))
  | .sbnew a => some (a, sbForm (noSrc2 a && immBelow a 4))
  | .sbcmt a => some (a, sbForm (noImm a))
  | .sbfree a => some (a, sbForm (noImm a))
  | .sbstat a => some (a, sbForm (noSrc2 a && noImm a))
  | .stree a => some (a, sbForm (immBelow a 4))
  | .sanc a => some (a, specForm a (immBelow a 7))
  | .sacpt a => some (a, specForm a (noSrc2 a && immBelow a 7))
  | .scmt a => some (a, specForm a (immBelow a 11))
  | .storageReturn _ => none
  | .foldSwitch _ _ _ => none
  | .doorbell _ _ _ _ _ _ => none
  | .fetch _ _ => none
  | .waitEventPoll _ => none
  | .admission _ => none
  | .kernelIssue _ => none
  | .runEnd _ => none
  | .tokenRingPoll _ => none
  | .manifestComplete _ => none
  | .cringPoll _ _ => none
  | .manifestRetire _ => none
  | .replayReissue _ => none
  | .loadBerth _ _ => none
  | .berthLoaded _ => none
  | .unloadBerth _ _ => none
  | .berthEmpty _ => none
  | .brtQrevoke _ => none
  | .ldgAbandon _ => none
  | .ldgCountRead _ => none
  | .xltFenceGo _ => none
  | .fenceComplete => none
  | .xltCountRead _ => none
  | .ttbCommit _ _ => none
  | .ttbCommitEffect _ => none
  | .subCountRead _ => none
  | .arbitration _ _ => none
  | .waitCounterExpire _ _ => none
  | .arbEpochAdvance _ => none
  | .arbWithdraw _ _ => none
  | .arbCommit _ => none
  | .arbCountRead _ => none
  | .scrubTurn _ _ => none
  | .memUeClear _ => none
  | .memCeRead _ _ => none
  | .portEnable _ _ => none
  | .laneTrainingTimeout _ _ => none
  | .lnkCountRead _ _ => none
  | .frameForward _ _ _ => none
  | .neighbourSolicitation _ _ _ => none
  | .ptpMessage _ _ _ _ => none
  | .softAdvance _ => none
  | .hardAdvance _ => none
  | .pnThreshold _ => none
  | .advanceTimeout => none
  | .oldAnExpire _ => none
  | .laserLoss _ _ => none
  | .laserRestore _ _ => none
  | .countOff _ _ _ => none
  | .claim _ _ _ _ _ => none
  | .defend _ _ _ _ _ => none
  | .claimTimer => none
  | .discoveryFallback => none
  | .rediscover _ => none
  | .hello _ _ _ _ => none
  | .helloTimer => none
  | .keeperLatencyUpdate _ => none
  | .peerDead _ => none
  | .frameWrite _ _ _ => none
  | .frameRead _ _ => none
  | .rdata _ _ _ => none
  | .atomic _ _ _ => none
  | .wack _ _ _ => none
  | .sack _ _ _ => none
  | .sackTimer _ => none
  | .retransmitTimer _ _ => none
  | .join _ => none
  | .activate _ => none
  | .rehost _ => none
  | .leave _ => none
  | .dissolve _ => none
  | .request _ _ => none
  | .propose _ _ => none
  | .vote _ _ => none
  | .compCommit _ _ _ => none
  | .compAbort _ _ => none
  | .reply _ _ => none
  | .rosterSync _ _ _ _ => none
  | .partner _ _ _ _ => none
  | .handoff _ => none
  | .hoOffer _ _ => none
  | .handoffCopyDone _ _ => none
  | .hoTake _ _ => none
  | .hoAck _ _ => none
  | .hoDone _ _ => none
  | .hoRefuse _ _ => none
  | .hoReport _ _ => none
  | .hoDecide _ _ => none
  | .handoffTimer _ _ _ => none
  | .reportRepeat _ _ _ => none
  | .keeperQueryTimeout _ _ => none
  | .decideRepeat _ _ => none
  | .rosLostClear _ => none
  | .rosHoCountRead _ => none
  | .hostLinkUp _ _ => none
  | .hostLinkDown => none
  | .hostLinkTimeout => none
  | .retrain _ => none
  | .irqModerationExpire _ => none
  | .devModeWrite _ => none
  | .instanceWrite _ _ => none
  | .resetDrain _ => none
  | .resetSquash _ => none
  | .removeDrain _ => none
  | .removeSquash _ => none
  | .functionLevelReset _ => none
  | .cxlReset => none
  | .vfEnableClear => none
  | .instanceCommandDone _ => none
  | .rackGrant _ _ _ _ => none
  | .grantEffective => none
  | .rackTimeout => none
  | .rackReportTimer => none
  | .slackInterval _ => none
  | .slack _ _ _ => none
  | .loanOrder _ _ _ => none
  | .loan _ _ _ => none
  | .loanExpire => none
  | .lentExpire => none
  | .railChoice _ _ => none
  | .railStepSettled _ => none
  | .pwrCommit _ => none
  | .droop _ => none
  | .droopHoldExpire _ => none
  | .pwrDroopCntRead _ => none
  | .pwrRsvShortRead _ => none
  | .thermalOver _ _ => none
  | .thermalRecover _ _ => none
  | .thermtrip => none
  | .install _ _ _ _ => none
  | .removeTenant _ _ => none
  | .removalWaitEnd => none
  | .attest _ _ => none
  | .certs _ _ => none
  | .openBundle _ _ _ _ => none
  | .decrypt _ _ _ => none
  | .closeBundle _ _ => none
  | .eraseDomain _ _ => none
  | .seal _ _ => none
  | .unseal _ _ _ => none
  | .keyDebugEnable _ => none
  | .keyThaw _ => none
  | .keyViolationsRead => none
  | .fltReset _ => none
  | .salvageDone _ => none
  | .salvageFallback _ => none
  | .salvageDeferredWrite _ => none
  | .zeroDone _ => none
  | .patternTestDone _ _ => none
  | .dramReinitDone _ => none
  | .channelReinitFailed _ => none
  | .partitionStranded _ => none
  | .retirementListWrite _ _ => none
  | .fltRingWrite _ => none
  | .fltOvfClear _ => none
  | .faultSummaryWrite => none
  | .seqset _ => none
  | .retire _ => none
  | .retireClear _ => none
  | .extend _ => none
  | .compose _ => none
  | .fwWrite _ _ _ => none
  | .cfgWrite _ _ _ => none
  | .journalRead _ => none
  | .faultSummary _ => none
  | .telemetry _ => none
  | .ferRestart _ => none
  | .ferryHeartbeat => none
  | .ferryShed _ => none
  | .smbIdent => none
  | .smbSerial => none
  | .smbState => none
  | .smbTemp => none
  | .smbPower => none
  | .smbLaser => none
  | .smbAlert => none
  | .portTrained _ _ => none
  | .advanceConfirmed _ => none
  | .peerAdvance _ _ => none
  | .salvageFallbackDone _ => none
  | .reservedEncoding _ _ => none
  | .vfEnableSet _ => none
  | .ptpSyncInterval => none
  | .frameDiscarded _ _ => none

/-- The commands whose effect can meet a misuse that the specification calls undefined and gives no effect: those that resolve
an address, an event or a flag, or read through a context's tables. -/
def canMisuse (i : Instr) : Bool :=
  match i with
  | .copy _ _ => true
  | .fill _ _ => true
  | .movementRetire _ => true
  | .allred _ => true
  | .allgath _ => true
  | .redscat _ => true
  | .cbar _ => true
  | .collectiveRetire _ _ _ _ => true
  | .eadd _ => true
  | .ewait _ => true
  | .erd _ => true
  | .eventRepoll _ _ => true
  | .fset _ => true
  | .fwait _ => true
  | .scmt _ => true
  | .fetch _ _ => true
  | .waitEventPoll _ => true
  | .admission _ => true
  | .kernelIssue _ => true
  | .runEnd _ => true
  | .tokenRingPoll _ => true
  | .manifestComplete _ => true
  | .cringPoll _ _ => true
  | .hostLinkUp _ _ => true
  | .arbitration _ _ => true
  | .frameWrite _ _ _ => true
  | .frameRead _ _ => true
  | .rdata _ _ _ => true
  | .atomic _ _ _ => true
  | .wack _ _ _ => true
  | .lastoffPerform _ => true
  | .replayReissue _ => true
  | _ => false

/-- The register that the read of a counter of code RC reads and clears; ARB_DEAD and ARB_FORCED lie in an instance. -/
def counterOf (i : Instr) : Option Nat :=
  match i with
  | .ldgCountRead releases => some (if releases then R_LDG_RELEASES else R_LDG_BINDS)
  | .xltCountRead counter => some (R_XLT_RC_HIT + 4 * counter.val)
  | .subCountRead counter => some (R_SUB_ADMITTED + 4 * counter.val)
  | .memCeRead part dram => some ((if dram then R_MEM_CE_DR else R_MEM_CE_CS) + 4 * part.val)
  | .lnkCountRead port counter => some (R_LNK_FEC_CW + 0x100 * port.val + 4 * counter.val)
  | .rosHoCountRead counter => some (R_ROS_HO_TAKEN + 4 * counter.val)
  | .pwrDroopCntRead die => some (R_PWR_DROOP_CNT + 4 * die.val)
  | .pwrRsvShortRead part => some (R_PWR_RSV_SHORT + 16 * part.val)
  | .keyViolationsRead => some R_KEY_VIOLATIONS
  | _ => none

/-- The message of IEEE 1588, whose forward step may move the beat counter (R402). -/
def isPtpMessage : Instr → Bool
  | .ptpMessage _ _ _ _ => true
  | _ => false

/-! ## Quiet states -/

/-- Nothing of the device waits for a retirement elsewhere: no partition is being left, and no composition or handoff is in
progress. -/
def QuietDevice (s : State) : Prop :=
  (∀ p, (s.part p).state ≠ .leaving) ∧ s.proposals = [] ∧ s.handoffsHeld = []

/-- No instruction waits in a movement-with-synchronisation unit's queue (R53). -/
def NothingQueued (s : State) : Prop := ∀ c, (s.core c).sync = []

/-- Every movement and held write has a number below the next one. -/
def NumbersFresh (s : State) : Prop :=
  (∀ m ∈ s.moves, m.id < s.nextMove) ∧ (∀ h ∈ s.held, h.fromDevice = none → h.move < s.nextMove)

/-! ## The mailbox -/

/-- What an accepted mailbox command of OP 1 to 11 does, by its OP; signatures, tags and the flash hold. -/
def mailRun (op : Nat) : Option (State → Nat → State) :=
  match op with
  | 1 => some runSeqset
  | 2 => some runRetire
  | 3 => some runRetireClear
  | 4 => some runExtend
  | 5 => some State.runCompose
  | 6 => some State.runHandoff
  | 7 => some (runFwWrite true true)
  | 8 => some (runCfgWrite true true)
  | 9 => some runJournalRead
  | 10 => some runFaultSummary
  | 11 => some runTelemetry
  | _ => none

/-! ## Commands that complete -/

/-- A command completes: on every part that operates, in a state where `pre` holds, exec answers the state its effect `f` leaves. -/
def Performs (i : Instr) (pre : State → Prop) (f : State → State) : Prop :=
  ∀ s : State, Operates s → pre s → exec i s = .next (s.framed (f s))

/-- As `Performs`, for a sequenced frame of the fabric that is accepted and new: `pre` is of the state after its acceptance, and `f`
comes on top of that state. -/
def PerformsFrame (i : Instr) (rx : Rx) (ty : Nat) (pre : State → Prop) (f : State → State) : Prop :=
  ∀ s u : State, Operates s → s.acceptSeq rx ty = (u, true) → pre u → exec i s = .next (s.framed (f u))

end Sys2Proof.Machine
end

