-- ==== Sys2Proof/Certificates/Slice0/Obligations.lean ====
section
/-! DEFINITION. The statements about the model, family by family, in the order of the opcode table; the words they use are in
Safety.lean. -/

open Sys2Proof Sys2Proof.Machine

/-! ## Scalar instructions (R96 to R104) -/

/-- R97: each ALU instruction of two registers writes its result to DST, moves to the next word and changes nothing else; the
forms are those whose IMM is zero. R97: products, quotients and remainders. R97: the counts of bits, on the forms whose SRC2
and IMM are zero: CLZ and CTZ count the zero bits before the first one bit from the top and from the bottom, 64 where x is
zero; POPC counts the one bits. R98: ALUI takes its second operand from IMM, sign-extended, for the ALU functions 0x00 to 0x0C
and 0x10; every other FUNC raises ILLEGAL, whatever the predicate. -/
def Obligations.ScalarArithmetic : Prop :=
  (
  ∀ a : CoreOp,
    let two (i : Instr) (f : Word → Word → Word) : Prop :=
      CompletesPure i a (plainForm (noImm a)) (fun c => c.setS a.dst (f (opX a c) (opY a c)))
    two (.add a) (fun x y => x + y) ∧ two (.sub a) (fun x y => x - y) ∧
    two (.and a) (fun x y => x &&& y) ∧ two (.or a) (fun x y => x ||| y) ∧ two (.xor a) (fun x y => x ^^^ y) ∧
    two (.andn a) (fun x y => x &&& ~~~y) ∧
    two (.sll a) (fun x y => x <<< (y.toNat % 64)) ∧ two (.srl a) (fun x y => x >>> (y.toNat % 64)) ∧
    two (.sra a) (fun x y => x.sshiftRight (y.toNat % 64)) ∧
    two (.min a) (fun x y => if x.toInt < y.toInt then x else y) ∧
    two (.max a) (fun x y => if x.toInt < y.toInt then y else x) ∧
    two (.minu a) (fun x y => if x.toNat < y.toNat then x else y) ∧
    two (.maxu a) (fun x y => if x.toNat < y.toNat then y else x)) ∧
  (
  ∀ a : CoreOp,
    let two (i : Instr) (f : Word → Word → Word) : Prop :=
      CompletesPure i a (plainForm (noImm a)) (fun c => c.setS a.dst (f (opX a c) (opY a c)))
    two (.mul a) (fun x y => BitVec.ofNat 64 (x.toNat * y.toNat)) ∧
    two (.mulhu a) (fun x y => BitVec.extractLsb' 64 64 (x.zeroExtend 128 * y.zeroExtend 128)) ∧
    two (.mulhs a) (fun x y => BitVec.extractLsb' 64 64 (x.signExtend 128 * y.signExtend 128)) ∧
    two (.divu a) (fun x y => if y = 0 then BitVec.allOnes 64 else BitVec.ofNat 64 (x.toNat / y.toNat)) ∧
    two (.divs a) (fun x y => if y = 0 then BitVec.allOnes 64 else BitVec.ofInt 64 (Int.tdiv x.toInt y.toInt)) ∧
    two (.remu a) (fun x y => if y = 0 then x else BitVec.ofNat 64 (x.toNat % y.toNat)) ∧
    two (.rems a) (fun x y => if y = 0 then x else BitVec.ofInt 64 (Int.tmod x.toInt y.toInt))) ∧
  (
  (∀ a : CoreOp,
    let one (i : Instr) (f : Word → Word) : Prop :=
      CompletesPure i a (plainForm (noSrc2 a && noImm a)) (fun c => c.setS a.dst (f (opX a c)))
    one (.clz a) clzW ∧ one (.ctz a) ctzW ∧ one (.popc a) popcW) ∧
  clzW 0 = 64 ∧ ctzW 0 = 64 ∧
  (∀ (x : Word) (n : Nat), n < 64 → x.getLsbD (63 - n) = true → (∀ j, 63 - n < j → x.getLsbD j = false) →
    clzW x = BitVec.ofNat 64 n) ∧
  (∀ (x : Word) (n : Nat), n < 64 → x.getLsbD n = true → (∀ j, j < n → x.getLsbD j = false) →
    ctzW x = BitVec.ofNat 64 n) ∧
  (∀ x : Word, popcW x = BitVec.ofNat 64 ((List.range 64).countP (fun j => x.getLsbD j)))) ∧
  (
  ∀ (a : CoreOp) (func : Fin 64),
    let one (n : Nat) (f : Word → Word → Word) : Prop :=
      func.val = n → CompletesPure (.alui a func) a (plainForm (noSrc2 a && (!(decide (6 ≤ n) && decide (n ≤ 8)) ||
        decide (a.imm.toNat < 64)))) (fun c => c.setS a.dst (f (opX a c) (a.imm.signExtend 64)))
    one 0x00 (fun x y => x + y) ∧ one 0x01 (fun x y => x - y) ∧ one 0x02 (fun x y => x &&& y) ∧
    one 0x03 (fun x y => x ||| y) ∧ one 0x04 (fun x y => x ^^^ y) ∧ one 0x05 (fun x y => x &&& ~~~y) ∧
    one 0x06 (fun x y => x <<< (y.toNat % 64)) ∧ one 0x07 (fun x y => x >>> (y.toNat % 64)) ∧
    one 0x08 (fun x y => x.sshiftRight (y.toNat % 64)) ∧
    one 0x09 (fun x y => if x.toInt < y.toInt then x else y) ∧
    one 0x0A (fun x y => if x.toInt < y.toInt then y else x) ∧
    one 0x0B (fun x y => if x.toNat < y.toNat then x else y) ∧
    one 0x0C (fun x y => if x.toNat < y.toNat then y else x) ∧
    one 0x10 (fun x y => BitVec.ofNat 64 (x.toNat * y.toNat)) ∧
    (0x0C < func.val → func.val ≠ 0x10 → ∀ s : State, Operates s → (s.core a.core).phase = .running →
      s.coreFrozen a.core = false → (s.part (corePart a.core)).onPos (coreNum a.core) = true →
      exec (.alui a func) s = .next (afterRaise s a exIllegal)))

/-- R99, R103, R104: MOVI, MOVH, SEL, NOP and SRD write their results and move to the next word; SRD gives the logical core
number, the beat counter and the rank the core's kernel runs for. R100, R101: the compares and the predicate functions write
predicate DST[2:0]. -/
def Obligations.MovesAndPredicates : Prop :=
  (
  ∀ a : CoreOp,
    CompletesPure (.movi a) a (plainForm (noSrc1 a && noSrc2 a)) (fun c => c.setS a.dst (a.imm.signExtend 64)) ∧
    CompletesPure (.movh a) a (plainForm (noSrc2 a && decide (a.imm.toNat < 2 ^ 32)))
      (fun c => c.setS a.dst (BitVec.ofNat 64 (a.imm.toNat % 2 ^ 32 * 2 ^ 32 + (opX a c).toNat % 2 ^ 32))) ∧
    CompletesPure (.sel a) a (plainForm (decide (a.imm.toNat < 8)))
      (fun c => c.setS a.dst (if c.preg ⟨a.imm.toNat % 8, Nat.mod_lt _ (by decide)⟩ then opX a c else opY a c)) ∧
    CompletesPure (.nop a) a (plainForm (noDst a && noSrc1 a && noSrc2 a && noImm a)) (fun c => c) ∧
    (∀ (s : State) (v : Word),
      Dispatches s a (plainForm (noSrc1 a && noSrc2 a && immBelow a 12 && specialOk a.imm.toNat)) → FallsThrough s a 1 →
      specialValue s a.core a.imm.toNat = some v →
      exec (.srd a) s = .next (afterInstr s a 1 (fun c => c.setS a.dst v) 0)) ∧
    (∀ s : State, specialValue s a.core 0x000 = some (BitVec.ofNat 64 (a.core.val % 12)) ∧
      specialValue s a.core 0x080 = some (BitVec.ofNat 64 s.beat) ∧
      (∀ k, (s.core a.core).kernel = some k →
        specialValue s a.core 0x001 = some (BitVec.ofNat 64 k.rank) ∧
        specialValue s a.core 0x004 = some (BitVec.ofNat 64 k.kindex)))) ∧
  (
  (∀ (a : CoreOp) (func : Fin 64),
    let both (n : Nat) (f : Word → Word → Bool) : Prop :=
      func.val = n →
      CompletesPure (.cmp a func) a (plainForm (noImm a && isLow3 a.dst))
        (fun c => c.setP (low3 a.dst) (f (opX a c) (opY a c))) ∧
      CompletesPure (.cmpi a func) a (plainForm (noSrc2 a && isLow3 a.dst))
        (fun c => c.setP (low3 a.dst) (f (opX a c) (a.imm.signExtend 64)))
    both 0 (fun x y => decide (x = y)) ∧ both 1 (fun x y => decide (x ≠ y)) ∧
    both 2 (fun x y => decide (x.toInt < y.toInt)) ∧ both 3 (fun x y => decide (y.toInt ≤ x.toInt)) ∧
    both 4 (fun x y => decide (x.toNat < y.toNat)) ∧ both 5 (fun x y => decide (y.toNat ≤ x.toNat))) ∧
  ∀ a : CoreOp,
    let two (i : Instr) (f : Bool → Bool → Bool) : Prop :=
      CompletesPure i a (plainForm (noImm a && isLow3 a.dst && isLow3 a.src1 && isLow3 a.src2))
        (fun c => c.setP (low3 a.dst) (f (c.preg (low3 a.src1)) (c.preg (low3 a.src2))))
    two (.pand a) (fun p q => p && q) ∧ two (.por a) (fun p q => p || q) ∧ two (.pxor a) (fun p q => p ^^ q) ∧
    two (.pandn a) (fun p q => p && !q) ∧
    CompletesPure (.pnot a) a (plainForm (noImm a && noSrc2 a && isLow3 a.dst && isLow3 a.src1))
      (fun c => c.setP (low3 a.dst) (!c.preg (low3 a.src1))))

/-- R72: a write of s0 or of p0 changes no register, and both read as constants. -/
def Obligations.HardWiredRegisters : Prop :=
  ∀ (c : CoreSt) (v : Word) (b : Bool),
    c.setS 0 v = c ∧ c.setP 0 b = c ∧ c.sreg 0 = 0 ∧ c.preg 0 = true ∧
    (∀ i : Fin 32, i ≠ 0 → (c.setS i v).sreg i = v ∧ ∀ j : Fin 32, j ≠ i → (c.setS i v).sreg j = c.sreg j) ∧
    (∀ i : Fin 8, i ≠ 0 → (c.setP i b).preg i = b ∧ ∀ j : Fin 8, j ≠ i → (c.setP i b).preg j = c.preg j)

/-- R102: a load within the bench and aligned writes DST with the bytes read, zero-extended or sign-extended. R102: a store
within the bench and aligned writes the low bytes of y in little-endian order, and every other byte of the bench reads as
before. R102, R92: an access beyond the bench raises RANGE, and one within it that is not aligned raises ALIGN. -/
def Obligations.BenchAccesses : Prop :=
  (
  ∀ a : CoreOp,
    let address (c : CoreSt) : Nat := (opX a c + a.imm.signExtend 64).toNat
    let one (i : Instr) (n : Nat) (f : Nat → Word) : Prop :=
      Completes i a (benchForm (noSrc2 a)) (fun c => address c + n ≤ 0x80000 ∧ address c % n = 0)
        (fun c => c.setS a.dst (f (leNat (c.bytes (address c) n)))) (fun _ => 0)
    one (.ld8u a) 1 (BitVec.ofNat 64) ∧ one (.ld16u a) 2 (BitVec.ofNat 64) ∧ one (.ld32u a) 4 (BitVec.ofNat 64) ∧
    one (.ld64 a) 8 (BitVec.ofNat 64) ∧ one (.ld8s a) 1 (fun x => (BitVec.ofNat 8 x).signExtend 64) ∧
    one (.ld16s a) 2 (fun x => (BitVec.ofNat 16 x).signExtend 64) ∧
    one (.ld32s a) 4 (fun x => (BitVec.ofNat 32 x).signExtend 64)) ∧
  (
  ∀ a : CoreOp,
    let address (c : CoreSt) : Nat := (opX a c + a.imm.signExtend 64).toNat
    let one (i : Instr) (n : Nat) : Prop :=
      Completes i a (benchForm (noDst a)) (fun c => address c + n ≤ 0x80000 ∧ address c % n = 0)
        (fun c => c.putBytes (address c) (leBytes n (opY a c).toNat)) (fun _ => 0)
    one (.st8 a) 1 ∧ one (.st16 a) 2 ∧ one (.st32 a) 4 ∧ one (.st64 a) 8 ∧
    ∀ (c : CoreSt) (n : Nat), mapWf none c.bench = true →
      (∀ i, i < n → (c.putBytes (address c) (leBytes n (opY a c).toNat)).byte (address c + i) =
        BitVec.ofNat 8 ((opY a c).toNat / 256 ^ i)) ∧
      (∀ j, j < address c ∨ address c + n ≤ j →
        (c.putBytes (address c) (leBytes n (opY a c).toNat)).byte j = c.byte j)) ∧
  (
  ∀ (a : CoreOp) (s : State),
    let address : Nat := (opX a (s.core a.core) + a.imm.signExtend 64).toNat
    let raises (i : Instr) (n : Nat) (legal : Bool) : Prop :=
      Dispatches s a (benchForm legal) →
        (0x80000 < address + n → exec i s = .next (afterRaise s a exRange)) ∧
        (address + n ≤ 0x80000 → address % n ≠ 0 → exec i s = .next (afterRaise s a exAlign))
    raises (.ld8u a) 1 (noSrc2 a) ∧ raises (.ld16u a) 2 (noSrc2 a) ∧ raises (.ld32u a) 4 (noSrc2 a) ∧
    raises (.ld64 a) 8 (noSrc2 a) ∧ raises (.ld8s a) 1 (noSrc2 a) ∧ raises (.ld16s a) 2 (noSrc2 a) ∧
    raises (.ld32s a) 4 (noSrc2 a) ∧ raises (.st8 a) 1 (noDst a) ∧ raises (.st16 a) 2 (noDst a) ∧
    raises (.st32 a) 4 (noDst a) ∧ raises (.st64 a) 8 (noDst a))

/-- R81, R103: BRA, CALL, JR and LOOP set the program counter to their target where it is the first word of an instruction,
and raise BRANCH where it is not; LOOP falls through once its counter reaches zero. What the specification leaves open here is
the model's choice, log entry 26. -/
def Obligations.Branches : Prop :=
  ∀ (a : CoreOp) (s : State),
    let c := s.core a.core
    let relative : Word := BitVec.ofNat 64 c.pc.toNat + a.imm.signExtend 64
    let goes (i : Instr) (legal : Bool) (target : Word) (g : CoreSt → CoreSt) : Prop :=
      Dispatches s a (plainForm legal) →
        (targetOk c.text target.toNat = true →
          exec i s = .next (s.updCore a.core (fun c => { g c with pc := BitVec.ofNat 32 target.toNat }))) ∧
        (targetOk c.text target.toNat = false → exec i s = .next (afterRaise s a exBranch))
    goes (.bra a) (noDst a && noSrc1 a && noSrc2 a) relative (fun c => c) ∧
    goes (.call a) (noSrc1 a && noSrc2 a) relative (fun c => c.setS a.dst (BitVec.ofNat 64 (c.pc.toNat + 1))) ∧
    goes (.jr a) (noDst a && noSrc2 a) (opX a c + a.imm.signExtend 64) (fun c => c) ∧
    (c.sreg a.dst ≠ 1 →
      goes (.loopDec a) (noSrc1 a && noSrc2 a && decide (a.dst ≠ 0)) relative (fun c => c.setS a.dst (c.sreg a.dst - 1))) ∧
    (c.sreg a.dst = 1 → Dispatches s a (plainForm (noSrc1 a && noSrc2 a && decide (a.dst ≠ 0))) → FallsThrough s a 1 →
      exec (.loopDec a) s = .next (afterInstr s a 1 (fun c => c.setS a.dst 0) 0))

/-- R82, R103: KEND ends the kernel on a core that has no movement in flight and no collective part of its own outstanding,
and otherwise waits; BRK halts the core where invasive debug is enabled and otherwise raises BREAK. -/
def Obligations.KernelEndAndBreak : Prop :=
  ∀ (a : CoreOp) (s : State), Dispatches s a (plainForm (noDst a && noSrc1 a && noSrc2 a && noImm a)) →
    (s.coreQuiet a.core = true → exec (.kend a) s = .next (s.framed (s.endKernel a.core))) ∧
    (s.coreQuiet a.core = false →
      exec (.kend a) s = .next (s.updCore a.core (fun c => { c with phase := .waiting .kernelEnd }))) ∧
    (s.key.debug = true → exec (.brk a) s = .next { s.updCore a.core (fun c => { c with phase := .halted }) with
      out := s.out ++ [.debugHalt a.core.val] }) ∧
    (s.key.debug = false → exec (.brk a) s = .next (afterRaise s a exBreak))

/-! ## Tiles (R108 to R121) -/

/-- R112: TDSET writes a descriptor from its operands with SADDR and SSTRIDE zero; TDSCL replaces SADDR and SSTRIDE; TDADD
advances ADDR and SADDR modulo 2^19; every other bit of the descriptor stays. R116, R185: AZERO leaves every element of its
accumulator zero and the other accumulator as it was. -/
def Obligations.TilesAndZero : Prop :=
  (
  ∀ a : CoreOp,
    CompletesPure (.tdset a) a ⟨1, fmtIsMx (tdsetFmt a), fun _ => false, tdsetLegal a⟩
      (fun c => c.setD (low3 a.dst) (tdsetDesc a (opX a c) (opY a c))) ∧
    (∀ x y : Word,
      let d := tdsetDesc a x y
      dAddr d = x.toNat % 2 ^ 19 ∧ dRows d = a.imm.toNat % 128 ∧ dCols d = a.imm.toNat / 128 % 4096 ∧
      dFmt d = a.imm.toNat / 2 ^ 19 % 16 ∧ dStride d = y.toNat % 2 ^ 19 ∧ dSaddr d = 0 ∧ dSstride d = 0) ∧
    CompletesPure (.tdscl a) a ⟨1, true, fun _ => false, isLow3 a.dst && noSrc2 a && immBelow a 13⟩
      (fun c => c.setD (low3 a.dst)
        (setDesc (setDesc (c.dreg (low3 a.dst)) 114 96 ((opX a c).toNat % 2 ^ 19)) 127 115 (a.imm.toNat % 2 ^ 13))) ∧
    CompletesPure (.tdadd a) a (plainForm (isLow3 a.dst && noImm a))
      (fun c =>
        let d := c.dreg (low3 a.dst)
        c.setD (low3 a.dst) (setDesc (setDesc d 18 0 ((dAddr d + (opX a c).toNat) % 2 ^ 19)) 114 96
          ((dSaddr d + (opY a c).toNat) % 2 ^ 19)))) ∧
  (
  ∀ a : CoreOp,
    CompletesPure (.azero a) a (plainForm (isAcc a.dst && noSrc1 a && noSrc2 a && noImm a))
      (fun c => c.accClear a.dst.val) ∧
    ∀ (c : CoreSt) (i j m n : Nat), m < 64 → n < 64 →
      (c.accClear i).accElem j m n = if j = i then AccElem.zero else c.accElem j m n)

/-- R113, R118: an MMA of fewer steps than the toll asks for whose descriptors pass their checks adds every element of the
product to its accumulator and raises the flags of the additions; ADRN stores the converted accumulator row by row, and ADRV
writes four of its rows to a vector register; nothing else changes but the core's count of steps. R114: an MMA of `heavySteps`
steps or more is held, and the core stays at it, until its toll has been granted in full; it is then performed, on a core that
does not overdraw its toll. What the specification leaves open here is the model's choice, log entries 34 and 41. -/
def Obligations.MatrixProducts : Prop :=
  (
  ∀ a : CoreOp,
    let da (c : CoreSt) : DescWord := c.dreg (low3 a.src1)
    let db (c : CoreSt) : DescWord := c.dreg (low3 a.src2)
    let steps (c : CoreSt) : Nat := (mmaSteps (dFmt (da c)) (dFmt (db c)) (dCols (da c))).getD 0
    let product (c : CoreSt) : CoreSt × FpFlags := mmaApply c (da c) (db c) a.dst.val (a.imm.toNat % 2 == 1)
    Completes (.mma a) a (benchForm (isAcc a.dst && isLow3 a.src1 && isLow3 a.src2 && immBelow a 1))
      (fun c => mmaFault (da c) (db c) = none ∧ steps c < heavySteps)
      (fun c => { (product c).1.countUp 0 (steps c) with tollHeld := none }) (fun c => (product c).2) ∧
    (let d (c : CoreSt) : DescWord := c.dreg (low3 a.dst)
     Completes (.adrn a) a (storeForm (isLow3 a.dst && isAcc a.src1 && noSrc2 a && immBelow a 1) (fun c => drainReads (c.dreg (low3 a.dst))))
      (fun c => drainFault (d c) = none)
      (fun c => if a.imm.toNat % 2 = 1 then (drainTile c a.src1.val (d c)).1.accClear a.src1.val
        else (drainTile c a.src1.val (d c)).1)
      (fun c => (drainTile c a.src1.val (d c)).2)) ∧
    (let lane (c : CoreSt) (l : Fin 256) : Nat × FpFlags :=
      (c.accElem a.src1.val (4 * (a.imm.toNat % 16) + l.val / 64) (l.val % 64)).drain 10
     Completes (.adrv a) a (plainForm (isAcc a.src1 && noSrc2 a && immBelow a 4)) (fun _ => True)
      (fun c => c.setV a.dst (Vector.ofFn (fun l => BitVec.ofNat 32 (lane c l).1)))
      (fun c => flagsOf ((List.finRange 256).map (lane c))))) ∧
  (
  ∀ (a : CoreOp) (s : State),
    let c := s.core a.core
    let da := c.dreg (low3 a.src1)
    let db := c.dreg (low3 a.src2)
    let steps : Nat := (mmaSteps (dFmt da) (dFmt db) (dCols da)).getD 0
    Dispatches s a (benchForm (isAcc a.dst && isLow3 a.src1 && isLow3 a.src2 && immBelow a 1)) →
    mmaFault da db = none → heavySteps ≤ steps →
      (c.tollHeld = none → exec (.mma a) s = .next (s.updCore a.core (fun c => { c with tollHeld := some steps }))) ∧
      (∀ n, c.tollHeld = some n → 0 < n → exec (.mma a) s = .next s) ∧
      (c.tollHeld = some 0 → FallsThrough s a 1 →
        mapGet 0 (s.part (corePart a.core)).tollPerformed (coreNum a.core) + steps ≤
          mapGet 0 (s.part (corePart a.core)).tollGranted (coreNum a.core) + 1024 → ∃ t, exec (.mma a) s = .next t ∧
        (t.core a.core).acc = (mmaApply c da db a.dst.val (a.imm.toNat % 2 == 1)).1.acc ∧
        (t.core a.core).tollHeld = none ∧ (t.core a.core).pc = BitVec.ofNat 32 (c.pc.toNat + 1) ∧
        (t.core a.core).bench = c.bench ∧ (t.core a.core).s = c.s ∧ (t.core a.core).v = c.v ∧
        (∀ d, d ≠ a.core → t.core d = s.core d) ∧ t.mem = s.mem))

/-! ## Vector instructions (R122 to R140) -/

/-- R122 to R125: each FP32 vector instruction writes its result to the enabled lanes of DST, leaves the others, and raises
the flags of the enabled lanes; VABS, VNEG and VMOV raise none. R126: a packed BF16 instruction applies its operation to the
low and to the high element of every enabled lane. -/
def Obligations.VectorFloatingPoint : Prop :=
  (
  ∀ a : CoreOp,
    let lanes (i : Instr) (u2 u3 : Bool) (f : CoreSt → Fin 256 → Lane × FpFlags) : Prop :=
      Completes i a (plainForm (vecLegal a u2 u3)) (fun _ => True)
        (fun c => c.setV a.dst (laneResult (c.vreg a.dst) (laneOn a c) (f c))) (fun c => laneFlags (laneOn a c) (f c))
    let two (i : Instr) (op : Nat → Nat → Nat × FpFlags) : Prop :=
      lanes i true false (fun c l => fpLane (op (laneX a c l).toNat (laneY a c l).toNat))
    let three (i : Instr) (op : Nat → Nat → Nat → Nat × FpFlags) : Prop :=
      lanes i true true (fun c l => fpLane (op (laneX a c l).toNat (laneY a c l).toNat (laneZ a c l).toNat))
    let moved (x : Lane) (v : Lane) : Lane := if (fpDecode fp32 x.toNat).isNan then 0x7FC00000 else v
    two (.vadd a) (fpAdd fp32) ∧ two (.vsub a) (fpSub fp32) ∧ two (.vmul a) (fpMul fp32) ∧
    two (.vmin a) (fpMin fp32) ∧ two (.vmax a) (fpMax fp32) ∧
    three (.vfma a) (fpFma fp32 false) ∧ three (.vfnma a) (fpFma fp32 true) ∧
    lanes (.vabs a) false false (fun c l => (moved (laneX a c l) (laneX a c l &&& 0x7FFFFFFF), 0)) ∧
    lanes (.vneg a) false false (fun c l => (moved (laneX a c l) (laneX a c l ^^^ 0x80000000), 0)) ∧
    lanes (.vmov a) false false (fun c l => (laneX a c l, 0)) ∧
    Completes (.vrope a) a (plainForm (vecLegal a true true)) (fun _ => True)
      (fun c => c.setV a.dst (laneResult (c.vreg a.dst) (fun l => laneOn a c (pairFirst l)) (ropeLane a c)))
      (fun c => laneFlags (fun l => laneOn a c (pairFirst l)) (ropeLane a c))) ∧
  (
  ∀ a : CoreOp,
    let lanes (i : Instr) (u3 : Bool) (lo hi : CoreSt → Fin 256 → Nat × FpFlags) : Prop :=
      let f (c : CoreSt) (l : Fin 256) : Lane × FpFlags :=
        (BitVec.ofNat 32 ((lo c l).1 + 65536 * (hi c l).1), (lo c l).2 ||| (hi c l).2)
      Completes i a (plainForm (vecLegal a true u3)) (fun _ => True)
        (fun c => c.setV a.dst (laneResult (c.vreg a.dst) (laneOn a c) (f c))) (fun c => laneFlags (laneOn a c) (f c))
    let low (x : Lane) : Nat := x.toNat % 65536
    let high (x : Lane) : Nat := x.toNat / 65536
    let two (i : Instr) (op : Nat → Nat → Nat × FpFlags) : Prop :=
      lanes i false (fun c l => op (low (laneX a c l)) (low (laneY a c l)))
        (fun c l => op (high (laneX a c l)) (high (laneY a c l)))
    let three (i : Instr) (op : Nat → Nat → Nat → Nat × FpFlags) : Prop :=
      lanes i true (fun c l => op (low (laneX a c l)) (low (laneY a c l)) (low (laneZ a c l)))
        (fun c l => op (high (laneX a c l)) (high (laneY a c l)) (high (laneZ a c l)))
    two (.vbadd a) (fpAdd bf16) ∧ two (.vbsub a) (fpSub bf16) ∧ two (.vbmul a) (fpMul bf16) ∧
    two (.vbmin a) (fpMin bf16) ∧ two (.vbmax a) (fpMax bf16) ∧
    three (.vbfma a) (fpFma bf16 false) ∧ three (.vbfnma a) (fpFma bf16 true))

/-- R127, R128: the vector compares write all ones or all zeros, and the integer instructions their results modulo 2^32, to
the enabled lanes; none raises a flag. R129: the lane moves. VGET and VPUT take their lane from IMM[18:11] and no mask; VPERM
takes lane indexes modulo 256. -/
def Obligations.VectorComparesIntegersMoves : Prop :=
  (
  ∀ a : CoreOp,
    let two (i : Instr) (f : Lane → Lane → Lane) : Prop :=
      CompletesPure i a (plainForm (vecLegal a true false))
        (fun c => c.setV a.dst (Vector.ofFn (fun l =>
          if laneOn a c l then f (laneX a c l) (laneY a c l) else (c.vreg a.dst)[l])))
    let holds (b : Bool) : Lane := if b then 0xFFFFFFFF else 0
    let nan (x : Lane) : Bool := (fpDecode fp32 x.toNat).isNan
    two (.vfeq a) (fun x y => holds (fpEq fp32 x.toNat y.toNat)) ∧
    two (.vflt a) (fun x y => holds (fpLt fp32 x.toNat y.toNat)) ∧
    two (.vfle a) (fun x y => holds (fpLe fp32 x.toNat y.toNat)) ∧
    two (.vfun a) (fun x y => holds (nan x || nan y)) ∧
    two (.vieq a) (fun x y => holds (decide (x = y))) ∧
    two (.vilt a) (fun x y => holds (decide (x.toInt < y.toInt))) ∧
    two (.viltu a) (fun x y => holds (decide (x.toNat < y.toNat))) ∧
    two (.viadd a) (fun x y => x + y) ∧ two (.visub a) (fun x y => x - y) ∧
    two (.viand a) (fun x y => x &&& y) ∧ two (.vior a) (fun x y => x ||| y) ∧ two (.vixor a) (fun x y => x ^^^ y) ∧
    two (.viandn a) (fun x y => x &&& ~~~y) ∧
    two (.visll a) (fun x y => x <<< (y.toNat % 32)) ∧ two (.visrl a) (fun x y => x >>> (y.toNat % 32)) ∧
    two (.visra a) (fun x y => x.sshiftRight (y.toNat % 32)) ∧
    two (.vimin a) (fun x y => if x.toInt < y.toInt then x else y) ∧
    two (.vimax a) (fun x y => if x.toInt < y.toInt then y else x) ∧
    two (.viminu a) (fun x y => if x.toNat < y.toNat then x else y) ∧
    two (.vimaxu a) (fun x y => if x.toNat < y.toNat then y else x) ∧
    two (.vimul a) (fun x y => x * y)) ∧
  (
  ∀ a : CoreOp,
    let lanes (i : Instr) (legal : Bool) (f : CoreSt → Fin 256 → Lane) : Prop :=
      CompletesPure i a (plainForm legal)
        (fun c => c.setV a.dst (Vector.ofFn (fun l => if laneOn a c l then f c l else (c.vreg a.dst)[l])))
    let low (c : CoreSt) : Lane := BitVec.ofNat 32 (opX a c).toNat
    lanes (.vsel a) (vecLegal a true true) (fun c l => if (laneZ a c l).getLsbD 0 then laneX a c l else laneY a c l) ∧
    lanes (.vbcast a) (vecLegal a false false) (fun c _ => low c) ∧
    lanes (.viota a) (vecLegal a false false && noSrc1 a) (fun _ l => BitVec.ofNat 32 l.val) ∧
    lanes (.vfirst a) (vecLegal a false false) (fun c l => if l.val < (opX a c).toNat then 0xFFFFFFFF else 0) ∧
    lanes (.vperm a) (vecLegal a true false)
      (fun c l => (c.vreg a.src1)[(laneY a c l).toNat % 256]'(Nat.mod_lt _ (by decide))) ∧
    CompletesPure (.vget a) a (plainForm (laneLegal a))
      (fun c => c.setS a.dst (BitVec.ofNat 64 (laneX a c (opLane a)).toNat)) ∧
    CompletesPure (.vput a) a (plainForm (laneLegal a))
      (fun c => c.setV a.dst (Vector.ofFn (fun l => if l = opLane a then low c else (c.vreg a.dst)[l]))))

/-- R130, R131: the conversions write every enabled lane and raise their flags; VQMX writes the quantised image of a whole
register whatever the mask. What the
specification leaves open here is the model's choice, log entries 29 and 114. -/
def Obligations.VectorConversions : Prop :=
  ∀ a : CoreOp,
    let lanes (i : Instr) (u2 : Bool) (f : CoreSt → Fin 256 → Lane × FpFlags) : Prop :=
      Completes i a (plainForm (vecLegal a u2 false)) (fun _ => True)
        (fun c => c.setV a.dst (laneResult (c.vreg a.dst) (laneOn a c) (f c))) (fun c => laneFlags (laneOn a c) (f c))
    let narrowed (i : Instr) (dst : FpFmt) : Prop :=
      lanes i true (fun c l => packPair (fpConvert fp32 dst (laneX a c l).toNat) (fpConvert fp32 dst (laneY a c l).toNat))
    let widened (i : Instr) (from_ : FpFmt) (part : Lane → Nat) : Prop :=
      lanes i false (fun c l => fpLane (fpConvert from_ fp32 (part (laneX a c l))))
    narrowed (.vf2bf a) bf16 ∧ narrowed (.vf2h a) fp16 ∧
    widened (.vbf2fl a) bf16 (fun x => x.toNat % 65536) ∧ widened (.vbf2fh a) bf16 (fun x => x.toNat / 65536) ∧
    widened (.vh2fl a) fp16 (fun x => x.toNat % 65536) ∧ widened (.vh2fh a) fp16 (fun x => x.toNat / 65536) ∧
    lanes (.vf2i a) false (fun c l => toInt32 false (fpDecode fp32 (laneX a c l).toNat)) ∧
    lanes (.vf2iz a) false (fun c l => toInt32 true (fpDecode fp32 (laneX a c l).toNat)) ∧
    lanes (.vi2f a) false (fun c l => fpLane (ofInt32 (laneX a c l))) ∧
    Completes (.vqmx a) a ⟨1, true, fun _ => false, noSrc2 a && opImm a 18 0 == 0 && immBelow a 23 && fmtIsMx (opImm a 22 19)⟩
      (fun _ => True) (fun c => c.setV a.dst (quantise (opImm a 22 19) (c.vreg a.src1)).1)
      (fun c => (quantise (opImm a 22 19) (c.vreg a.src1)).2)

/-- R132: VLD and VST move 1,024 bytes of the bench at a multiple of 64 to and from the enabled lanes, lane l at byte 4l;
bench bytes of lanes that are not enabled keep their value. -/
def Obligations.VectorLoadsAndStores : Prop :=
  ∀ a : CoreOp,
    let aligned (c : CoreSt) : Prop := vecAddr a c + 1024 ≤ 0x80000 ∧ vecAddr a c % 64 = 0
    Completes (.vld a) a (benchForm (vldstLegal a && noSrc2 a)) aligned
      (fun c => c.setV a.dst (Vector.ofFn (fun l =>
        if laneOn a c l then BitVec.ofNat 32 (leNat (c.bytes (vecAddr a c + 4 * l.val) 4)) else (c.vreg a.dst)[l])))
      (fun _ => 0) ∧
    Completes (.vst a) a (storeForm (vldstLegal a && noDst a) (vstReads a)) aligned
      (fun c => storeLanes c (vecAddr a c) (laneOn a c) (c.vreg a.src2)) (fun _ => 0) ∧
    ∀ c : CoreSt, mapWf none c.bench = true → ∀ j : Nat,
      (storeLanes c (vecAddr a c) (laneOn a c) (c.vreg a.src2)).byte j =
        if h : vecAddr a c ≤ j ∧ j < vecAddr a c + 1024 then
          let l : Fin 256 := ⟨(j - vecAddr a c) / 4, by omega⟩
          if laneOn a c l then BitVec.ofNat 8 ((c.vreg a.src2)[l].toNat / 256 ^ ((j - vecAddr a c) % 4)) else c.byte j
        else c.byte j

/-- R123, R133, R191: each segment's reduction over its enabled lanes, the identity standing for the others, is written to the
segment's enabled lanes. R134: each special function is computed lane by lane on the enabled lanes, and the core counts those
lanes. R135, R136: VOSM replaces the maximum and sum of each segment in lanes 2j and 2j + 1 of DST whatever the mask and leaves
DST's other lanes; VRMS writes each segment's reciprocal root mean square to its enabled lanes, and a segment without one raises
no flag. What the specification leaves open here is the model's choice, log entries 29 and 113. -/
def Obligations.ReductionsAndFunctions : Prop :=
  (
  ∀ a : CoreOp,
    let one (i : Instr) (op : Nat → Nat → Nat × FpFlags) (ident : Nat) : Prop :=
      let g : Nat := segSize a
      let result (c : CoreSt) (j : Nat) : Nat × FpFlags := segReduce op (c.vreg a.src1) (laneOn a c) ident g j
      Completes i a (plainForm (segLegal a && noSrc2 a)) (fun _ => True)
        (fun c => c.setV a.dst (Vector.ofFn (fun l =>
          if laneOn a c l then BitVec.ofNat 32 (result c (l.val / g)).1 else (c.vreg a.dst)[l])))
        (fun c => flagsOf ((List.range (256 / g)).map (result c)))
    one (.vrsum a) (fpAdd fp32) 0x80000000 ∧ one (.vrmax a) (fpMax fp32) 0xFF800000 ∧
    one (.vrmin a) (fpMin fp32) 0x7F800000 ∧ one (.vrisum a) (fun x y => ((x + y) % 2 ^ 32, 0)) 0) ∧
  (
  ∀ a : CoreOp,
    let one (i : Instr) (f : Nat → SfuResult) : Prop :=
      let r (c : CoreSt) (l : Fin 256) : Lane × FpFlags := fpLane (f (laneX a c l).toNat)
      Completes i a (plainForm (vecLegal a false false)) (fun _ => True)
        (fun c => (c.setV a.dst (laneResult (c.vreg a.dst) (laneOn a c) (r c))).countUp 2
          ((List.finRange 256).filter (laneOn a c)).length) (fun c => laneFlags (laneOn a c) (r c))
    one (.exp2 a) sfuExp2 ∧ one (.log2 a) sfuLog2 ∧ one (.rcp a) sfuRcp ∧ one (.rsq a) sfuRsq ∧
    one (.tanh a) sfuTanh ∧ one (.sigm a) sfuSigm ∧ one (.sin a) sfuSin ∧ one (.cos a) sfuCos) ∧
  (
  ∀ a : CoreOp,
    let g : Nat := segSize a
    let step (c : CoreSt) (j : Nat) : Nat × Nat × FpFlags :=
      softmaxStep g ((c.vreg a.dst).toList.getD (2 * j) 0).toNat ((c.vreg a.dst).toList.getD (2 * j + 1) 0).toNat
        (segValues (c.vreg a.src1) (laneOn a c) 0xFF800000 g j)
    let squares (c : CoreSt) : Vector Lane 256 := Vector.ofFn (fun l =>
      BitVec.ofNat 32 (fpMul fp32 (laneX a c l).toNat (laneX a c l).toNat).1)
    let rms (c : CoreSt) (j : Nat) : Nat × FpFlags :=
      if ∃ l : Fin 256, l.val / g = j ∧ laneOn a c l = true then
        rmsStep g ((opY a c).toNat % 2 ^ 32) (segValues (squares c) (laneOn a c) 0x80000000 g j)
      else (0, 0)
    Completes (.vosm a) a (plainForm (segLegal a && noSrc2 a)) (fun _ => True)
      (fun c => c.setV a.dst (Vector.ofFn (fun l =>
        if l.val / 2 < 256 / g then
          BitVec.ofNat 32 (if l.val % 2 = 0 then (step c (l.val / 2)).1 else (step c (l.val / 2)).2.1)
        else (c.vreg a.dst)[l])))
      (fun c => ((List.range (256 / g)).map (step c)).foldl (fun (acc : FpFlags) r => acc ||| r.2.2) 0) ∧
    Completes (.vrms a) a (plainForm (segLegal a)) (fun _ => True)
      (fun c => c.setV a.dst (Vector.ofFn (fun l =>
        if laneOn a c l then BitVec.ofNat 32 (rms c (l.val / g)).1 else (c.vreg a.dst)[l])))
      (fun c => flagsOf ((List.range (256 / g)).map (rms c))))

/-- R137 to R140: VRNG writes word l of the stream to each enabled lane l and SRNG the first two words to DST; TOPK and TKMRG
write the best candidates to DST and the next register; SDRAW writes the index of the candidate drawn. R138: the list that
TOPK and TKMRG keep holds at most k candidates, each of them one of those given, in rank order, and no candidate left out
ranks before one kept. Which of two candidates of equal value and index stands first is free, and so are the lanes of TOPK
from N to k - 1, and the token and flags of SDRAW on an odd register or a k outside 1 to 256, which are the model's choices, log
entries 30 and 31. -/
def Obligations.SamplingAndCandidates : Prop :=
  (
  ∀ (a : CoreOp) (s : State),
    let c := s.core a.core
    let word (l : Nat) : Nat := (drawWords a s c (l / 4)).getD (l % 4) 0
    (Dispatches s a (plainForm ((opMe a || opVm a == 0) && opSrc3 a == 0 && immBelow a 19)) → FallsThrough s a 1 →
      exec (.vrng a) s = .next (afterInstr s a 1 (fun c => c.setV a.dst (Vector.ofFn (fun l =>
        if laneOn a c l then BitVec.ofNat 32 (word l.val) else (c.vreg a.dst)[l]))) 0)) ∧
    (Dispatches s a (plainForm (opImm a 10 0 == 0 && immBelow a 19)) → FallsThrough s a 1 →
      exec (.srng a) s = .next (afterInstr s a 1 (fun c => c.setS a.dst (BitVec.ofNat 64 (word 0 + 2 ^ 32 * word 1))) 0)) ∧
    (let addr : Nat := (opX a c).toNat
     let n : Nat := (opY a c).toNat
     let base : Lane := BitVec.ofNat 32 (c.sreg (fin32 (opImm a 4 0))).toNat
     let all : List Cand := (List.range n).map (fun j =>
       (BitVec.ofNat 32 (leNat (c.bytes (addr + 4 * j) 4)), base + BitVec.ofNat 32 j))
     Dispatches s a (benchForm (evenReg a.dst && kLegal (opImm a 13 5) && immBelow a 14)) → FallsThrough s a 1 →
     addr + 4 * n ≤ 0x80000 → addr % 4 = 0 → 1 ≤ n →
      exec (.topk a) s = .next (afterInstr (if n < opImm a 13 5 then s.tick else s) a 1
        (fun c => c.putCands a.dst (topkList s.free (opImm a 13 5) all)) 0)) ∧
    (Dispatches s a (plainForm (evenReg a.dst && evenReg a.src1 && evenReg a.src2 && kLegal (opImm a 8 0) && immBelow a 9)) →
     FallsThrough s a 1 →
      exec (.tkmrg a) s = .next (afterInstr s a 1
        (fun c => c.putCands a.dst (candBest (opImm a 8 0) (c.cands a.src1 ++ c.cands a.src2))) 0)) ∧
    (let vs : List Nat := ((c.vreg a.src1).toList.take (opImm a 13 5)).map (·.toNat)
     let r : Nat := (c.sreg (fin32 (opImm a 4 0))).toNat % 2 ^ 32
     let d : Nat × FpFlags := drawRank vs ((opY a c).toNat % 2 ^ 32) ((opY a c).toNat / 2 ^ 32) r
     Dispatches s a (plainForm (immBelow a 14)) → FallsThrough s a 1 →
      ((evenReg a.src1 && kLegal (opImm a 13 5)) = true → exec (.sdraw a) s = .next (afterInstr s a 1
        (fun c => c.setS a.dst (BitVec.ofNat 64 ((c.vreg (nextReg a.src1)).toList.getD d.1 0).toNat)) d.2)) ∧
      ((evenReg a.src1 && kLegal (opImm a 13 5)) = false → ∃ (v : Lane) (fl : FpFlags), ivDz fl = fl ∧
        exec (.sdraw a) s = .next (afterInstr s.tick a 1 (fun c => c.setS a.dst (BitVec.ofNat 64 v.toNat)) fl)))) ∧
  (
  ∀ (k : Nat) (l : List Cand),
    (candBest k l).length = min k l.length ∧
    (∀ f, (topkList f k l).take l.length = candBest k l ∧ (topkList f k l).length = k) ∧
    candBest k l = (candBest l.length l).take k ∧
    (candBest l.length l).Perm l ∧
    (candBest k l).Pairwise (fun p q => candBefore p q = true) ∧
    (∀ p ∈ l, p ∉ candBest k l → ∀ q ∈ candBest k l, candBefore q p = true))

/-! ## Movements, collectives, events, flags and fences (R144 to R171) -/

/-- R144, R153: a COPY or FILL of one row of 64 bytes within the bench moves the row, or fills it with x, at once, and is in
flight, in its completion group, until it retires; the program counter moves past both words. R146: a movement with nothing
left retires, and its bytes are counted for its core. R145: a core with 16 movements and collectives in flight takes a further
COPY or FILL into its unit's queue, and dispatch goes on. What the specification leaves open here is the model's choice, log
entries 34, 36, 37, 43 and 106. -/
def Obligations.Movements : Prop :=
  (
  ∀ (a : CoreOp) (second : Word) (s : State) (k : KernelSlot) (m : Manifest),
    let c := s.core a.core
    let f := moveFields a second
    let src : Nat := (opX a c).toNat
    let dst : Nat := (c.sreg a.dst).toNat
    s.running a.core = some (k, m) → s.moverFrozen a.core = false → s.misused = none → c.sync = [] → FallsThrough s a 2 →
    (16 ≤ s.inFlight a.core →
      (Dispatches s a (moveForm a second false) →
        exec (.copy a second) s = .next (afterInstr s a 2 (enqueue (.copy second) a) 0)) ∧
      (Dispatches s a (moveForm a second true) →
        exec (.fill a second) s = .next (afterInstr s a 2 (enqueue (.fill second) a) 0))) ∧
    (s.inFlight a.core < 16 → NumbersFresh s → f.rows = 1 → f.dcls = 0 → f.last = false → opY a c = 64 → dst % 64 = 0 → dst + 64 ≤ 0x80000 →
    let done (i : Instr) (bs : List Byte) : Prop := ∃ t v, exec i s = .next t ∧
      t.core a.core = { c.putBytes dst bs with pc := BitVec.ofNat 32 (c.pc.toNat + 2) } ∧
      t.moves = s.moves ++ [v] ∧ v.id = s.nextMove ∧ v.core = a.core ∧ v.group = a.imm.toNat % 16 ∧ v.bytes = 64 ∧
      t.moveDone v = true ∧ (∀ d, d ≠ a.core → t.core d = s.core d) ∧ t.mem = s.mem ∧ t.host = s.host
    (Dispatches s a (moveForm a second false) → f.scls = 0 → src % 64 = 0 → src + 64 ≤ 0x80000 →
      done (.copy a second) (c.bytes src 64)) ∧
    (Dispatches s a (moveForm a second true) →
      done (.fill a second) ((List.replicate 8 (leBytes 8 (opX a c).toNat)).flatten)))) ∧
  (
  ∀ (s : State) (id : Nat) (m : Movement), Operates s → s.misused = none → s.move? id = some m → m.rowsLeft = [] →
    s.moveDone m = true → (s.core m.core).phase = .running → QuietDevice s → NothingQueued s →
    ∃ t, exec (.movementRetire id) s = .next t ∧ t.moves = s.moves.filter (fun x => x.id != m.id) ∧
      (t.core m.core).counters = mapPut 0 (s.core m.core).counters 3
        (mapGet 0 (s.core m.core).counters 3 + BitVec.ofNat 64 m.bytes) ∧
      (∀ d, d ≠ m.core → t.core d = s.core d) ∧ t.manifests = s.manifests)

/-- R160, R161: a COLL between addresses of the bench joins its collective with the core's index and the bytes of its source
as they are at submission; CBAR joins with none. The core's next COLL of the same TEAM joins the next collective. R146, R161:
a core's part of an agreed collective whose sources are all there, whose tolls are granted and whose participants are all of
this device, retires with its result in the core's bench. What the specification leaves open here is the model's choice, log
entry 39. -/
def Obligations.Collectives : Prop :=
  (
  ∀ (a : CoreOp) (s : State) (k : KernelSlot) (m : Manifest),
    let c := s.core a.core
    let team := collTeam a
    let n : Nat := participants m k team
    let len : Nat := (opY a c).toNat
    let src : Nat := (opX a c).toNat
    let dst : Nat := (c.sreg a.dst).toNat
    s.running a.core = some (k, m) → s.inFlight a.core < 16 → s.moverFrozen a.core = false → s.misused = none →
    c.sync = [] → FallsThrough s a 1 →
    let joined (i : Instr) (bs : List Byte) : Prop := ∃ t l p, exec i s = .next t ∧ l ∈ t.colls ∧
      l.joins k a.core team (c.collOrdinal team) = true ∧ p ∈ l.parts ∧ p.core = a.core ∧
      p.index = participantIndex m k a.core team ∧ p.source = bs ∧
      (t.core a.core).collOrdinal team = c.collOrdinal team + 1 ∧
      (t.core a.core).pc = BitVec.ofNat 32 (c.pc.toNat + 1) ∧ (t.core a.core).bench = c.bench ∧
      (∀ d, d ≠ a.core → t.core d = s.core d) ∧ t.mem = s.mem ∧ t.moves = s.moves
    let moved (i : Instr) (func destBytes : Nat) : Prop :=
      Dispatches s a (collForm a func) → collScls a = 0 → collDcls a = 0 → src % 64 = 0 → dst % 64 = 0 →
      len % 64 = 0 → 0 < len → (func = fRedscat → len % (64 * n) = 0) → src + len ≤ 0x80000 → dst + destBytes ≤ 0x80000 →
      joined i (c.bytes src len)
    moved (.allred a) fAllred len ∧ moved (.allgath a) fAllgath (n * len) ∧ moved (.redscat a) fRedscat (len / n) ∧
    (Dispatches s a (collForm a fCbar) → joined (.cbar a) [])) ∧
  (
  ∀ (s : State) (core : CoreId) (team : Bool) (ordinal : Nat) (remote : List (Nat × List Byte)) (k : KernelSlot) (m : Manifest)
    (l : Coll) (p : CollPart) (srcs : List (List Byte)) (d : Nat),
    let result : List Byte := collResult l.func l.redop l.length srcs p.index
    Operates s → s.misused = none → QuietDevice s → NothingQueued s → (s.core core).phase = .running →
    s.running core = some (k, m) → s.colls.find? (fun l => l.joins k core team ordinal) = some l →
    l.parts.find? (fun (p : CollPart) => p.core == core) = some p → l.mismatched = false → l.retired.contains core = false →
    (mapGet [] l.tolls core.val).isEmpty = true → l.sources = some srcs → l.crosses m srcs.length = false →
    p.dest = [⟨.bench core d, result.length⟩] → result.length % 64 = 0 → mapWf none (s.core core).bench = true →
    ∃ t, exec (.collectiveRetire core team ordinal remote) s = .next t ∧
      (t.core core).bytes d result.length = result ∧
      (∀ j, j < d ∨ d + result.length ≤ j → (t.core core).byte j = (s.core core).byte j) ∧
      (∀ x ∈ t.colls, x.joins k core team ordinal = true → x.retired.contains core = true))

/-- R165, R166, R331: EADD adds y to an event, EWAIT writes 0 where the event is at least y, 1 where it is abandoned, and
waits otherwise, ERD reads the event. R169: an EADD whose release is not complete takes an entry of its unit's queue, and
dispatch goes on; the forms are those with nothing in that queue. A waiting EWAIT that is polled again passes on the same terms. R171: EVENT_REPOLL lets a
waiting EWAIT pass where its event has reached the threshold or is abandoned, and a waiting FWAIT where its flag has; a core
that goes on takes its next word. What the specification leaves open here is the model's choice, log entries 42 and 43. -/
def Obligations.EventsAndWaits : Prop :=
  (
  ∀ (a : CoreOp) (s : State) (k : KernelSlot) (m : Manifest) (e : LedgerEntry),
    let c := s.core a.core
    let t : Lane := BitVec.ofNat 32 (opX a c).toNat
    let scope := opScope a
    let acquired (c : CoreSt) : CoreSt := if 4 ≤ scope then { c with readBuffer := [] } else c
    s.running a.core = some (k, m) → (opX a c).toNat < 2 ^ 32 → s.hostUp = true → s.eventEntry t = some e →
    m.namesTicket t = true → s.misused = none → c.sync = [] → FallsThrough s a 1 →
    (Dispatches s a (evtForm a (noDst a)) → s.trouble e.place 8 true = none →
      (s.released a.core scope = true → m.hedged k.rank = false → ∀ u, s.wordAdd e.place (opY a c) = (u, none) →
        exec (.eadd a) s = .next (afterInstr u a 1 (fun c => c) 0)) ∧
      (s.released a.core scope = false → exec (.eadd a) s = .next (afterInstr s a 1 (enqueue .eadd a) 0))) ∧
    (∀ u v, s.trouble e.place 8 false = none → s.wordRead e.place = (u, .inl v) →
      (Dispatches s a (evtForm a (noSrc2 a && opScope a == 0)) →
        exec (.erd a) s = .next (afterInstr u a 1 (fun c => c.setS a.dst v) 0)) ∧
      (Dispatches s a (evtForm a true) → e.abandoned = false →
        (opY a c ≤ v → exec (.ewait a) s = .next (afterInstr u a 1 (fun c => (acquired c).setS a.dst 0) 0)) ∧
        (¬ opY a c ≤ v → exec (.ewait a) s =
          .next (u.updCore a.core (fun c => { c with phase := .waiting (.event t (opY a c) a.dst scope) }))))) ∧
    (Dispatches s a (evtForm a true) → e.abandoned = true →
      exec (.ewait a) s = .next (afterInstr s a 1 (fun c => (acquired c).setS a.dst 1) 0))) ∧
  (
  ∀ (s : State) (core : CoreId) (remote : Option Word) (k : KernelSlot) (m : Manifest) (threshold : Word) (dst : Fin 32)
    (scope : Nat) (u : State) (v : Word),
    let c := s.core core
    let gone (w : Word) (c : CoreSt) : CoreSt :=
      { ({ (if 4 ≤ scope then { c with readBuffer := [] } else c) with phase := .running } : CoreSt).setS dst w with
        pc := BitVec.ofNat 32 (c.pc.toNat + 1) }
    Operates s → s.misused = none → s.running core = some (k, m) → c.sync = [] →
    targetOk c.text (c.pc.toNat + 1) = true →
    (∀ (t : Lane) (e : LedgerEntry), c.phase = .waiting (.event t threshold dst scope) → s.hostUp = true →
      s.eventEntry t = some e →
      (e.abandoned = true → exec (.eventRepoll core remote) s = .next (s.updCore core (gone 1))) ∧
      (e.abandoned = false → s.trouble e.place 8 false = none → s.wordRead e.place = (u, .inl v) →
        (threshold ≤ v → exec (.eventRepoll core remote) s = .next (u.updCore core (gone 0))) ∧
        (¬ threshold ≤ v → exec (.eventRepoll core remote) s = .next u))) ∧
    (∀ (a : Nat) (epoch : Nat), c.phase = .waiting (.flag (.bench core a) threshold dst scope epoch) →
      let w : Word := BitVec.ofNat 64 (leNat (c.bytes a 8))
      (threshold ≤ w → exec (.eventRepoll core remote) s = .next (s.updCore core (gone w))) ∧
      (¬ threshold ≤ w → exec (.eventRepoll core remote) s = .next s)))

/-- R168, R279: FSET of a flag in the core's bench writes y to its eight bytes; R169: one whose release is not complete takes an
entry of its unit's queue, and dispatch goes on; the forms are those with nothing in that queue. FWAIT writes the flag's value to DST where it
is at least y and waits otherwise; a held last-off write to host memory is performed once the earlier writes of its stream
are. What the specification leaves open here is the model's choice, log entries 36, 37, 38 and 43. -/
def Obligations.FlagsAndHeldWrites : Prop :=
  (∀ (a : CoreOp) (s : State) (k : KernelSlot) (m : Manifest),
    let c := s.core a.core
    let reg : Nat := (opX a c).toNat
    let v : Word := BitVec.ofNat 64 (leNat (c.bytes reg 8))
    let scope := opScope a
    s.running a.core = some (k, m) → s.moverFrozen a.core = false → s.misused = none → opFlagClass a = 0 → reg % 8 = 0 →
    reg + 8 ≤ 0x80000 → c.sync = [] → FallsThrough s a 1 →
    (Dispatches s a (flagForm a (noDst a && immBelow a 12)) → s.released a.core scope = false →
      exec (.fset a) s = .next (afterInstr s a 1 (enqueue .fset a) 0)) ∧
    (Dispatches s a (flagForm a (noDst a && immBelow a 12)) → s.released a.core scope = true → opImm a 7 7 = 0 → NumbersFresh s →
      ∃ t, exec (.fset a) s = .next t ∧ t.moves = s.moves ∧ (∀ d, d ≠ a.core → t.core d = s.core d) ∧ t.mem = s.mem ∧
        t.core a.core = { c.putBytes reg (leBytes 8 (opY a c).toNat) with pc := BitVec.ofNat 32 (c.pc.toNat + 1) }) ∧
    (Dispatches s a (flagForm a (immBelow a 7)) →
      (opY a c ≤ v → exec (.fwait a) s = .next (afterInstr s a 1
        (fun c => (if 4 ≤ scope then { c with readBuffer := [] } else c).setS a.dst v) 0)) ∧
      (¬ opY a c ≤ v → ∃ t, exec (.fwait a) s = .next t ∧ (t.core a.core).pc = c.pc ∧
        (t.core a.core).phase =
          .waiting (.flag (.bench a.core reg) (opY a c) a.dst scope (s.epochOf m))))) ∧
  (∀ (s : State) (id : Nat) (h : Held) (addr : Nat), Operates s → s.misused = none → NothingQueued s → s.held.find? (fun h => h.id == id) = some h →
    s.heldReady h = true → h.fromDevice = none → h.place = .host addr → s.move? h.move = none →
    exec (.lastoffPerform id) s =
      .next { s with held := s.held.filter (fun x => x.id != id), host := mapWrite 0 s.host addr h.data })

/-- R167, R169, R172, R173, R484: REL passes once the core's earlier writes are covered, and until then takes an entry of its
unit's queue, from which it goes once they are; ACQ empties the remote read buffer at the wide scopes; MWAIT passes once its
groups have retired and waits until then; PHYS gives the physical location; PMARK adds to the trace where it is enabled; PCNT
reads the counters that the model keeps. R145, R169: behind an entry of the unit's queue, a movement, a collective, an addition
to an event, a release and an update of a flag take an entry each and dispatch goes on, until the queue is full; a wait, a read
of an event and an acquire stay until it is empty. What the specification leaves open here is the model's choice, log entries
21, 33 and 43. -/
def Obligations.FencesAndSystem : Prop :=
  (
  ∀ (a : CoreOp) (second : Word) (s : State), (s.core a.core).sync ≠ [] → s.misused = none →
    let held : Nat := (s.core a.core).sync.length
    let queues (i : Instr) (f : Form) (kind : SyncKind) : Prop := Dispatches s a f →
      (held < 32 → FallsThrough s a f.words → exec i s = .next (afterInstr s a f.words (enqueue kind a) 0)) ∧
      (32 ≤ held → exec i s = .next s)
    let stays (i : Instr) (f : Form) : Prop := Dispatches s a f → exec i s = .next s
    queues (.copy a second) (moveForm a second false) (.copy second) ∧
    queues (.fill a second) (moveForm a second true) (.fill second) ∧
    queues (.allred a) (collForm a fAllred) (.coll fAllred) ∧ queues (.allgath a) (collForm a fAllgath) (.coll fAllgath) ∧
    queues (.redscat a) (collForm a fRedscat) (.coll fRedscat) ∧ queues (.cbar a) (collForm a fCbar) (.coll fCbar) ∧
    queues (.eadd a) (evtForm a (noDst a)) .eadd ∧ queues (.rel a) (fenceForm a (immBelow a 3 && scopeOk a)) .rel ∧
    queues (.fset a) (flagForm a (noDst a && immBelow a 12)) .fset ∧
    stays (.ewait a) (evtForm a true) ∧ stays (.erd a) (evtForm a (noSrc2 a && opScope a == 0)) ∧
    stays (.acq a) (fenceForm a (immBelow a 3 && scopeOk a)) ∧ stays (.mwait a) (fenceForm a (immBelow a 16 && !noImm a)) ∧
    stays (.fwait a) (flagForm a (immBelow a 7))) ∧
  (
  ∀ (s : State) (core : CoreId) (e : SyncOp), Operates s → s.misused = none → (s.core core).phase = .running →
    s.coreFrozen core = false → (s.part (corePart core)).onPos (coreNum core) = true → (s.core core).sync = [e] →
    e.kind = .rel → e.op.core = core → s.released core (opScope e.op) = true →
    exec (.eventRepoll core none) s = .next (s.updCore core (fun c => { c with sync := [] }))) ∧
  (
  ∀ (a : CoreOp) (s : State), FallsThrough s a 1 →
    (Dispatches s a (fenceForm a (immBelow a 3 && scopeOk a)) → (s.core a.core).sync = [] →
      (s.released a.core (opScope a) = true → exec (.rel a) s = .next (afterInstr s a 1 (fun c => c) 0)) ∧
      (s.released a.core (opScope a) = false → exec (.rel a) s = .next (afterInstr s a 1 (enqueue .rel a) 0)) ∧
      exec (.acq a) s = .next (afterInstr s a 1 (fun c => if 4 ≤ opScope a then { c with readBuffer := [] } else c) 0)) ∧
    (Dispatches s a (fenceForm a (immBelow a 16 && !noImm a)) → (s.core a.core).sync = [] →
      (s.groupsDone a.core (a.imm.toNat % 2 ^ 16) = true → exec (.mwait a) s = .next (afterInstr s a 1 (fun c => c) 0)) ∧
      (s.groupsDone a.core (a.imm.toNat % 2 ^ 16) = false →
        exec (.mwait a) s = .next (s.updCore a.core (fun c => { c with phase := .waiting (.groups (a.imm.toNat % 2 ^ 16)) })))) ∧
    (Dispatches s a (plainForm (noSrc1 a && noSrc2 a && noImm a)) →
      exec (.phys a) s = .next (afterInstr s a 1 (fun c => c.setS a.dst (s.physWord a.core)) 0) ∧
      (s.physWord a.core).toNat / 2 ^ 24 % 2 ^ 16 = s.landing.toNat ∧
      (s.physWord a.core).toNat / 2 ^ 8 % 2 ^ 16 = a.core.val / 12) ∧
    (Dispatches s a (plainForm (noDst a && noSrc1 a && noSrc2 a && immBelow a 16)) →
      (s.tracing = true → exec (.pmark a) s =
        .next (afterInstr { s with trace := s.trace ++ [(BitVec.ofNat 16 a.imm.toNat, s.beat)] } a 1 (fun c => c) 0)) ∧
      (s.tracing = false → exec (.pmark a) s = .next (afterInstr s a 1 (fun c => c) 0))) ∧
    (Dispatches s a (plainForm (noSrc1 a && noSrc2 a && immBelow a 8)) →
      ∃ v, exec (.pcnt a) s = .next (afterInstr s.tick a 1 (fun c => c.setS a.dst v) 0) ∧
        (a.imm = 0 ∨ a.imm = 2 ∨ a.imm = 3 → v = mapGet 0 (s.core a.core).counters a.imm.toNat) ∧
        (7 < a.imm.toNat → v = 0)))

/-! ## The block map, draft trees and folding (R67, R222 to R230) -/

/-- R223 to R225: an SBLK instruction on a key of a sequence that is not lost applies its operation to each entry of its range
in order and writes to DST the first status other than OK with, from bit 32, how many entries succeeded; SBSTAT writes the
state and class of an entry, an In transit block reading as Committed. R224, R225: what one entry's state makes of each
operation: SBNEW leaves a block of the same class as it is, refuses one of another class with EXISTS and one In transit with
STATE; SBCMT commits a Provisional block, leaves a Committed one and refuses a Free one with STATE; SBFREE leaves a Free
block, refuses one In transit, and otherwise releases the storage to wait for the movements that resolved it. What the
specification leaves open here is the model's choice, log entries 15 and 83. -/
def Obligations.BlocksAndTheirStates : Prop :=
  (
  ∀ (a : CoreOp) (s : State) (k : KernelSlot) (m : Manifest),
    let key : Nat := (opX a (s.core a.core)).toNat
    let count : Nat := (opY a (s.core a.core)).toNat
    let name := blockName m.vslot.val key
    let cls : Nat := a.imm.toNat % 16
    s.running a.core = some (k, m) → keyOk key = true → keyLine key = 0 → s.seqLost m.vslot.val (keySeq key) = false →
    (s.part 0).state ≠ .resetting → FallsThrough s a 1 →
    let free (blocks : Nat × Nat) : Prop := s.spanWaits m.vslot.val key [blocks] = false
    let answers (i : Instr) (r : State × Nat × Nat) : Prop :=
      r.2.1 ≠ sbUe → r.1.cores = s.cores → ∃ t, exec i s = .next t ∧
        t.core a.core = { (s.core a.core).setS a.dst (BitVec.ofNat 64 (r.2.2 * 2 ^ 32 + r.2.1)) with
          pc := BitVec.ofNat 32 ((s.core a.core).pc.toNat + 1) } ∧
        t.resident = r.1.resident ∧ t.bins = r.1.bins ∧ t.freed = r.1.freed ∧ t.mem = r.1.mem
    (Dispatches s a (sbForm (noSrc2 a && immBelow a 4)) → free (keyBlock key, keyBlock key) →
      s.allocWaits [name] name.slot cls = false →
      answers (.sbnew a) (sbRange (fun s n => s.sbnewOne n cls) 1 s name sbOk 0)) ∧
    (Dispatches s a (sbForm (noImm a)) → free (keyBlock key, keyBlock key + count - 1) → sbRangeOk (keyBlock key) count = true →
      answers (.sbcmt a) (sbRange (fun s n => s.sbcmtOne n) count s name sbOk 0) ∧
      answers (.sbfree a) (sbRange (fun s n => s.sbfreeOne n) count s name sbOk 0)) ∧
    (Dispatches s a (sbForm (immBelow a 4)) → free (treeBlock0, treeBlock0 + 3) → 1 ≤ count → count ≤ 64 → keyBlock key = 0 →
      s.allocWaits ((List.range ((count + 15) / 16)).map (fun i => { name with block := treeBlock0 + i })) name.slot cls = false →
      answers (.stree a) (sbRange (fun s n => s.sbnewOne n cls) ((count + 15) / 16) s { name with block := treeBlock0 } sbOk 0)) ∧
    (Dispatches s a (sbForm (noSrc2 a && noImm a)) → free (keyBlock key, keyBlock key) → ∀ (u : State) (e : BlockEntry), s.lookup name = (u, .entry e) →
      u.cores = s.cores → ∃ t, exec (.sbstat a) s = .next t ∧
        t.core a.core = { (s.core a.core).setS a.dst
            (BitVec.ofNat 64 (4 * e.cls + if e.state = stInTransit then stCommitted else e.state)) with
          pc := BitVec.ofNat 32 ((s.core a.core).pc.toNat + 1) })) ∧
  (
  ∀ (s u : State) (n : BlockName) (e : BlockEntry), s.lookup n = (u, .entry e) →
    (∀ cls, (s.classRec n.slot cls).usable = false → s.sbnewOne n cls = (s, sbClass)) ∧
    (∀ cls, (s.classRec n.slot cls).usable = true → e.state ≠ stFree →
      s.sbnewOne n cls = (u, if e.state = stInTransit then sbState else if e.cls = cls then sbOk else sbExists)) ∧
    (e.state = stProvisional → ∀ v, u.changeEntry n { e with state := stCommitted } = (v, true) → s.sbcmtOne n = (v, sbOk)) ∧
    (e.state = stFree → s.sbcmtOne n = (u, sbState) ∧ s.sbfreeOne n = (u, sbOk)) ∧
    (e.state = stCommitted → s.sbcmtOne n = (u, sbOk)) ∧
    (e.state = stInTransit → s.sbfreeOne n = (u, sbState)) ∧
    (e.state ≠ stFree → e.state ≠ stInTransit → ∀ v, u.changeEntry n .free = (v, true) → ∃ t f, s.sbfreeOne n = (t, sbOk) ∧
      t.freed = v.freed ++ [f] ∧ f.storage = e.storage ∧ f.cls = e.cls ∧ f.slot = n.slot ∧
      ∀ i ∈ f.blockers, ∃ v ∈ t.moves, v.id = i ∧ v.blocks.contains e.storage.toNat = true))

/-- R228, R229: SANC writes the mask of a node and its ancestors, and SACPT walks from the root to the child whose token is
the sample of its parent, writes ACCEPTED and PATH, and gives the sample, the last node and the count. R230: SCMT on a sound
tree record, key and position runs the commit of the accepted path, moves to the next word where its rows have all moved, and
waits for them where they have not.
What the specification leaves open here is the model's choice, log entry 84. -/
def Obligations.DraftTrees : Prop :=
  (
  ∀ (a : CoreOp) (s : State),
    let c := s.core a.core
    let r : Nat := (opX a c).toNat
    let n : Nat := a.imm.toNat % 128
    treeFault c r n = none → FallsThrough s a 1 →
    (Dispatches s a (specForm a (immBelow a 7)) → (opY a c).toNat < n →
      exec (.sanc a) s = .next (afterInstr s a 1 (fun c => c.setS a.dst (BitVec.ofNat 64 (ancestors c r 64 (opY a c).toNat))) 0)) ∧
    (Dispatches s a (specForm a (noSrc2 a && immBelow a 7)) →
      let path : List Nat := 0 :: acceptWalk c r n 64 0
      let last : Nat := path.getLastD 0
      exec (.sacpt a) s = .next (afterInstr s a 1 (fun c =>
        ((c.putBytes (r + 8) [BitVec.ofNat 8 (path.length - 1)]).putBytes (r + 0x280)
          ((List.range 64).map (fun j => BitVec.ofNat 8 (path.getD j 0xFF)))).setS a.dst
          (BitVec.ofNat 64 (c.treeSample r last * 2 ^ 32 + last * 256 + (path.length - 1)))) 0))) ∧
  (
  ∀ (a : CoreOp) (s u : State) (k : KernelSlot) (m : Manifest),
    let c := s.core a.core
    let r : Nat := (opX a c).toNat
    let key : Nat := (opY a c).toNat
    let path : List Nat := (List.range (c.treeAccepted r + 1)).map (fun i => if i < 64 then c.treePath r i else 0xFF)
    Dispatches s a (specForm a (immBelow a 11)) → s.misused = none → s.running a.core = some (k, m) →
    treeFault c r (opNodes a) = none → keyOk key = true → keyLine key = 0 → s.seqLost m.vslot.val (keySeq key) = false →
    (s.part 0).state ≠ .resetting →
    s.spanWaits m.vslot.val key [(treeBlock0, treeBlock0 + 3), (c.treePos r / 16, (c.treePos r + c.treeAccepted r) / 16)] = false →
    keyBlock key = 0 → c.treePos r + c.treeAccepted r < 16 * treeBlock0 → (∀ n ∈ path, n < 64) → s.moverFrozen a.core = false →
    u.misused = none → (u.core a.core).phase = .running → (u.core a.core).kernel = c.kernel →
    let run : Body := scmtRun a s k m key (c.treePos r) path (opImm a 10 7)
    (run = .next u → FallsThrough u a 1 →
      exec (.scmt a) s = .next (s.framed (u.updCore a.core (fun c => { c with pc := BitVec.ofNat 32 (c.pc.toNat + 1) })))) ∧
    (∀ w, run = .wait u w → exec (.scmt a) s = .next (s.framed (u.updCore a.core (fun c => { c with phase := .waiting w })))))

/-- R222, R67: storage returns to the bin of its class once the movements that resolved it have retired; a position takes the
lowest-numbered of its other logical cores that can run once its core gives it up. R55, R68: a parity error in the save of a core
with a kernel raises STATE_PARITY there, and an uncorrectable line of the slot of the core that returns stops the switch. What
the specification leaves open here is the model's choice, log entries 83 and 100. -/
def Obligations.StorageAndFolding : Prop :=
  (∀ (s : State) (id : Nat) (f : Freed), Operates s → s.freed.find? (fun f => f.id == id) = some f →
    (∀ i ∈ f.blockers, s.move? i = none) → (mapGet [] s.bins (binKey f.slot f.cls)).length < 64 →
    exec (.storageReturn id) s = .next { s with
      freed := s.freed.filter (fun x => x.id != id)
      bins := mapPut [] s.bins (binKey f.slot f.cls) (f.storage :: mapGet [] s.bins (binKey f.slot f.cls)) }) ∧
  (∀ (s : State) (part : PartId) (pos : Fin 15) (first : Nat) (rest : List Nat) (n : Nat),
    let carried := carriedBy (s.part part).working pos.val
    let idOf (n : Nat) : CoreId := coreIdOf part ⟨n % 12, by omega⟩
    let out : Nat := (mapGet none (s.part part).onPosition pos.val).getD first
    Operates s → carried = first :: rest → carried.find? (fun n => n != out && s.canRun (idOf n)) = some n →
    (s.core (idOf out)).givesUp = true → s.benchQuiet (idOf out) = true →
    ((s.core (idOf out)).kernel.isSome = true →
      exec (.foldSwitch part pos true) s = .next (s.framed (s.raise (idOf out) exStateParity))) ∧
    (∀ u, s.readFoldSlot part n ((s.core (idOf n)).kernel.map (·.manifest)) = (u, false) →
      exec (.foldSwitch part pos false) s = .next (s.framed u)) ∧
    ((s.core (idOf n)).phase = .running → (s.core (idOf n)).kernel.isSome = true →
      s.readFoldSlot part n ((s.core (idOf n)).kernel.map (·.manifest)) = (s, true) →
    ∃ t, exec (.foldSwitch part pos false) s = .next t ∧ (t.part part).onPosition = mapPut none (s.part part).onPosition pos.val (some n) ∧
      (t.core (idOf out)).readBuffer = [] ∧ (t.core (idOf n)).s = (s.core (idOf n)).s ∧ (t.core (idOf n)).pc = (s.core (idOf n)).pc))

/-! ## What stops every instruction (R55, R66, R76 to R79, R93 to R95, R507) -/

/-- R76 to R79: every instruction whose encoding is illegal raises ILLEGAL whatever its predicate, an instruction whose
predicate holds 0 has no effect but the program counter, and an undefined OP or FUNC raises ILLEGAL. A core that does not run,
is frozen or is folded away dispatches nothing (R55, R66, R507). R75, R78: the bits of a word give the fields of the instruction a
core dispatches, and OP and FUNC its command; a word whose OP and FUNC are not defined is none. -/
def Obligations.IllegalPredicatedStopped : Prop :=
  (
  (∀ (i : Instr) (a : CoreOp) (f : Form) (s : State), instrForm i = some (a, f) → Operates s → s.misused = none →
    (s.core a.core).phase = .running → s.coreFrozen a.core = false →
    (s.part (corePart a.core)).onPos (coreNum a.core) = true →
    (s.illegal a.core f = true → (s.raise a.core exIllegal).misused = none →
      exec i s = .next (afterRaise s a exIllegal)) ∧
    (s.illegal a.core f = false → a.pe = true → (s.core a.core).preg a.pred = false → FallsThrough s a f.words →
      exec i s = .next (afterInstr s a f.words (fun c => c) 0))) ∧
  (∀ (core : CoreId) (word : Word) (s : State), Operates s → (s.core core).phase = .running → s.coreFrozen core = false →
    (s.part (corePart core)).onPos (coreNum core) = true → wordDefined word = false →
    exec (.reservedEncoding core word) s = .next (s.framed (s.raise core exIllegal)))) ∧
  (
  ∀ (i : Instr) (a : CoreOp) (f : Form) (s : State), instrForm i = some (a, f) → Operates s → s.misused = none →
    ((s.core a.core).phase ≠ .running ∨ s.coreFrozen a.core = true ∨
      (s.part (corePart a.core)).onPos (coreNum a.core) = false) →
    exec i s = .next s) ∧
  (
  ∀ (core : CoreId) (u : Upset) (w second : Word),
    let a := wordFields core u w
    a.core = core ∧ a.upset = u ∧ a.pe = w.getLsbD 12 ∧ a.pred.val = (w.extractLsb' 13 3).toNat ∧
    a.dst.val = (w.extractLsb' 16 5).toNat ∧ a.src1.val = (w.extractLsb' 21 5).toNat ∧
    a.src2.val = (w.extractLsb' 26 5).toNat ∧ a.imm = w.extractLsb' 31 33 ∧
    (wordDefined w = false → wordCommand core u w second = none) ∧
    (wordDefined w = true → ∃ i f, wordCommand core u w second = some i ∧ instrForm i = some (a, f)))

/-- R93, R94: an exception with a code below 0x10 ends the manifest of the kernel with status EXCEPTION and the code, and the
manifest keeps the code, the rank, the logical core and the program counter of the instruction. What the specification leaves
open here is the model's choice, log entries 26 and 28. -/
def Obligations.ExceptionsEndTheJob : Prop :=
  ∀ (s : State) (c : CoreId) (code : Nat) (k : KernelSlot) (m : Manifest), code < 0x10 →
    (s.core c).kernel = some k → s.manifest? k.manifest = some m → m.phase.over = false →
    ∃ m', (s.raise c code).manifest? m.id = some m' ∧ m'.phase = .ending stException code ∧ m'.excCode = code ∧
      m'.excRank = k.rank ∧ m'.excCore = c.val % 12 ∧ m'.excPc = (s.core c).pc.toNat

/-! ## Every command, the queue, power and the stores -/

/-- The model's queue: a step takes the command at the front and runs it on the state with the rest waiting. What the
specification leaves open here is the model's choice, log entry 10. -/
def Obligations.FrontCommand : Prop :=
  ∀ (c : Instr) (rest : List Instr) (s : State),
    step { s with pending := c :: rest } = exec c { s with pending := rest }

/-- R6, R402, with the model's choice that a beat passes when no command waits (log entry 9): while PWRGD is asserted the beat counter
advances by one beat, and by one more or one less whenever the servo has slewed it by a whole beat; nothing else changes, and without
PWRGD nothing changes at all. -/
def Obligations.IdleBeat : Prop :=
  ∀ s : State, s.pending = [] →
    (s.powered = false → step s = .next s) ∧
    (s.powered = true → s.ptp.rate = 0 → -1000000 < s.ptp.drift → s.ptp.drift < 1000000 →
      step s = .next { s with beat := s.beat + 1 }) ∧
    (s.powered = true → ∃ t, step s = .next t ∧ s.beat ≤ t.beat ∧ t.beat ≤ s.beat + 2 ∧
      1000000 * ((t.beat : Int) - s.beat) + t.ptp.drift = 1000000 + s.ptp.drift + s.ptp.rate ∧
      t = { s with beat := t.beat, ptp := { s.ptp with drift := t.ptp.drift } })

/-- The frame of every command: the queue stays, no mark of a misuse appears, PWRGD and the supply change under the three
commands of the supply alone, and the beat counter under those and, by its one forward step, a message of IEEE 1588 (R6, R402,
R560). What the specification leaves open here is the model's choice, log entries 1 and 2. -/
def Obligations.EveryCommandFrame : Prop :=
  ∀ (i : Instr) (s t : State), exec i s = .next t →
    t.pending = s.pending ∧ (s.misused = none → t.misused = none) ∧
    (i ≠ .powerGood → i ≠ .powerDown → i ≠ .supplyFault →
      t.powered = s.powered ∧ t.supplyBroken = s.supplyBroken ∧ (isPtpMessage i = false → t.beat = s.beat))

/-- R19, R560: no command is refused; without PWRGD only POWER_GOOD does anything; after a supply fault every command but
POWER_DOWN and a further SUPPLY_FAULT stops as outside the limits; and a part that operates stops only where a command that
can meet an undefined misuse meets one. What the specification leaves open here is the model's choice, log entries 2, 3 and 4. -/
def Obligations.WhereCommandsStop : Prop :=
  ∀ (i : Instr) (s : State),
    (∀ r, exec i s ≠ .refused r) ∧
    (s.powered = false → s.supplyBroken = false → i ≠ .powerGood → exec i s = .next s) ∧
    (s.powered = true → s.supplyBroken = true → i ≠ .powerDown → i ≠ .supplyFault → exec i s = .fault .outsideLimits) ∧
    (Operates s → ∀ f, exec i s = .fault f → ∃ r, f = .undefinedMisuse r ∧ canMisuse i = true)

/-- R560: without PWRGD nothing of the part holds but the flash, whatever step is taken. What the specification leaves open
here is the model's choice, log entry 72. -/
def Obligations.SupplyInvariantKept : Prop :=
  ∀ s t : State, SupplyInv s → step s = .next t → SupplyInv t

/-- Every step keeps device memory, its error patterns and line keys, host memory and the flash in canonical form, so that
equal memories are equal data, and the registers and their shadows too. What the specification leaves open here is the model's
choice, log entry 11. -/
def Obligations.MemoryStaysCanonical : Prop :=
  (∀ s t : State, Memory.wf s = true → step s = .next t → Memory.wf t = true) ∧
  (∀ s t : State, Registers.wf s = true → step s = .next t → Registers.wf t = true)

/-- R13, R560, and the model's choice to take reset as the part before PWRGD is first asserted: every register holds the reset
value its table gives, every memory is in canonical form, nothing waits, and the invariants of the model hold. What the
specification leaves open here is the model's choice, log entries 5, 6 and 7. -/
def Obligations.ResetState : Prop :=
  (∀ off, State.reset.reg off = regReset off) ∧ Memory.wf State.reset = true ∧ Registers.wf State.reset = true ∧ SupplyInv State.reset ∧
  State.reset.misused = none ∧ State.reset.pending = [] ∧ State.reset.powered = false ∧
  (∀ c, State.reset.core c = CoreSt.reset) ∧ (∀ b, State.reset.berth b = BerthSt.empty)

/-! ## Power, start, the host's registers and the management port (R11 to R15, R537 to R546, R556, R560, R562) -/

/-- R560: POWER_GOOD on a part without power starts step 1 of a start from what the flash holds: the count of starts rises by
one and is in KEY_START_COUNT and in the flash, DEV_SERIAL holds the identity area's serial number, and every core, berth and
partition is as reset leaves it; POWER_DOWN leaves the flash alone; a supply fault puts the part outside its limits. What the
specification leaves open here is the model's choice, log entries 4, 5, 8 and 72. -/
def Obligations.PowerCommands : Prop :=
  (∀ s : State, s.powered = false → s.supplyBroken = false → ∃ t, exec .powerGood s = .next t ∧
    t.powered = true ∧ t.pending = s.pending ∧ t.beat = 0 ∧ t.cores = State.reset.cores ∧ t.parts = State.reset.parts ∧
    t.berths = State.reset.berths ∧ t.mem = [] ∧
    t.flash = mapWrite 0 s.flash flashStartCount (leBytes 4 ((s.flashNat flashStartCount 4 + 1) % 2 ^ 32)) ∧
    t.reg R_KEY_START_COUNT = BitVec.ofNat 64 ((s.flashNat flashStartCount 4 + 1) % 2 ^ 32) ∧
    t.reg R_DEV_SERIAL = BitVec.ofNat 64 (t.flashNat flashSerial 8)) ∧
  (∀ s : State, s.powered = true → ∃ t, exec .powerDown s = .next t ∧ OnlyFlashHolds t ∧ t.powered = false ∧
    t.supplyBroken = false ∧ t.flash = s.flash ∧ t.pending = s.pending) ∧
  (∀ s : State, s.powered = true → exec .supplyFault s = .next { s with supplyBroken := true })

/-- R541, R544, R545: each step of a start, while it is in progress, ends with its journal entry and begins the next: the boot
assay where the slot's and the record's signatures, the record and VERSION are right, the root of trust, the Ferryman, the
compute dies, the DRAM, the optics and the roster; an assay or a Ferryman that fails ends the start in FAILED. What the
specification leaves open here is the model's choice, log entries 8, 70 and 71. -/
def Obligations.StartSteps : Prop :=
  ∀ s : State, Operates s → s.devState ≠ devFailed →
    (s.startStep = 2 → s.start.rerun = false →
      let u := s.applyOperator true
      let slot := u.start.normalSlot
      let b := (u.setSlot slot).beginStep 2 pathNormal
      let m0 := b.extendMeas 0 (b.stageOneDigest slot)
      let m2 := (m0.extendMeas 1 (m0.managementDigest slot)).extendMeas 2 (hash 32 (mapRead 0 m0.flash flashConfig configBytes))
      s.ecilamoOk true = true → s.operatorOk true = true → u.pathOf 2 = pathNormal → u.slotFull slot = true →
      b.slotFull slot = true → minFwOf m0 ≤ m0.flashNat (slotBase slot + 4) 4 →
      exec (.startAssay true true true) s = .next (s.framed (State.setFerState (m2.nextStep 2 codeNone slot) ferStarting)) ∧
      exec (.startAssay false true true) s = .next (s.framed (m0.startFails 2 codeSignature))) ∧
    (s.startStep = 3 → s.start.path = pathNormal →
      exec (.startRoot true) s = .next (s.framed (State.afterRoot
        (State.setRegField { s.drawNonce with
          key := { s.drawNonce.key with seed := fitBytes 32 Config.pufSeed, rootFailed := false } } R_KEY_TENANT 31 31 0) codeNone))) ∧
    (s.startStep = 4 →
      exec (.startFerry true) s = .next (s.framed (State.setFerState (s.nextStep 4 codeNone s.slotInUse) ferRunning)) ∧
      exec (.startFerry false) s = .next (s.framed (s.startFails 4 codeTimeout))) ∧
    (s.startStep = 5 → ∃ t u : State, exec (.startCompute 0) s = .next t ∧ t = s.framed (u.nextStep 5 codeNone 0) ∧
      u.mem = (s.zeroRange 0 (16 * storeBytes)).mem ∧
      ∀ p, (u.part p).bad = s.flashMask (flashConfig + 0x10) p ||| s.flashMask flashRetirement p) ∧
    (s.startStep = 6 → (∀ p, (s.part p).state ≠ .stranded) →
      let u := (List.finRange 32).foldl (fun (s : State) k => s.setReg (channelReg k.val) 1) s
      exec (.startDram 0 0) s = .next (s.framed ((u.setRegField R_DEV_STATE 3 0 devReady).nextStep 6 codeNone 0))) ∧
    (s.startStep = 7 → s.ferryDown = false →
      (s.start.path = pathSkipped → ∀ lanes, exec (.startOptics lanes) s = .next (s.framed (s.nextStep 7 codeNone 0))) ∧
      (s.start.path ≠ pathSkipped → ∀ lanes, ∃ (u : State) (d c : Nat), exec (.startOptics lanes) s = .next (s.framed (u.nextStep 7 c d)))) ∧
    (s.startStep = 8 → s.ferryDown = false → s.start.path ≠ pathSkipped →
      exec (.startRoster true) s = .next (s.framed (s.startDiscovery.nextStep 8 codeNone 0)) ∧
      exec (.startRoster false) s = .next (s.framed (s.nextStep 8 codeDiscovery 0)))

/-- R13, R15: a write of the host reaches the bits its size covers of the register at its offset, each field by its access
code: RW takes the bits, W1C clears the bits written 1, RWS goes to the shadow, and RO, WO and RC keep theirs; a write that
reaches no register changes none, and the host's stores are there before it. What the specification leaves open here is the
model's choice, log entry 60. -/
def Obligations.RegisterWrites : Prop :=
  (∀ (offset : BitVec 26) (size : Fin 65) (value : Word) (stores : HostStores) (s : State), Operates s →
    let u := s.hostStores stores
    (∀ o r hi lo, u.hostReaches offset.toNat = true → regAccess offset.toNat size.val = some (o, r, hi, lo) →
      ownRow r.base = false → arbOff o = false → r.base ∉ [R_FER_REQ, R_HST_INST_CMD, R_KEY_CMD, R_HST_INST, R_FLT_RING,
        R_HST_BERTH, R_LNK_PORT_CTRL, R_LDG_BASE, R_LDG_REL_BASE] →
      exec (.registerWrite offset size value stores) s =
        .next (s.framed (u.writeFields o hi lo (if lo = 32 then value <<< 32 else value) r))) ∧
    (u.hostReaches offset.toNat = false ∨ regAccess offset.toNat size.val = none →
      exec (.registerWrite offset size value stores) s = .next u)) ∧
  (∀ (s : State) (off hi lo : Nat) (v : Word) (f : RegField), max f.lo lo ≤ min f.hi hi →
    let a := max f.lo lo
    let b := min f.hi hi
    s.writeField off hi lo v f = (match f.acc with
      | .rw => s.setReg off (setWBits (s.reg off) b a (wbits v b a))
      | .w1c => s.setReg off (s.reg off &&& ~~~ (setWBits 0 b a (wbits v b a)))
      | .rws => s.setShad off (setWBits (s.shad off) b a (wbits v b a))
      | .ro => s
      | .wo => s
      | .rc => s)) ∧
  (∀ off size x, regAccess off size = some x → (size = 4 ∧ off % 4 = 0) ∨ (size = 8 ∧ off % 8 = 0))

/-- R11, R13: the read of a counter of code RC returns its value and leaves it zero; while its block does not answer it
returns all ones and leaves it; ARB_DEAD and ARB_FORCED are those of the selected instance. R562: from 2 ms after PWRGD the
management port answers each of its reads with the bytes of its table, and a read of ALERT clears the alerts. What the
specification leaves open here is the model's choice, log entries 60 and 89. -/
def Obligations.CountersAndManagementPort : Prop :=
  (
  ∀ s : State, Operates s → s.hostUp = true →
    (∀ i off, counterOf i = some off →
      (s.answers off = true → exec i s = .next { s.setReg off 0 with busRead := s.reg off }) ∧
      (s.answers off = false → exec i s = .next { s with busRead := allOnes })) ∧
    (∀ forced, s.answers (if forced then R_ARB_FORCED else R_ARB_DEAD) = true → s.regField R_ARB_SEL 8 0 ≤ 0x180 →
      let n := s.regField R_ARB_SEL 8 0
      let a := s.arb n
      exec (.arbCountRead forced) s = .next { (s.setArb n (if forced then { a with forced := 0 } else { a with dead := 0 })) with
        busRead := (if forced then a.forced else a.dead).setWidth 64 })) ∧
  (
  ∀ s : State, Operates s → 2000000 ≤ s.beat →
    let reply (i : Instr) (d : List Byte) : Prop :=
      exec i s = .next { s with busRead := BitVec.ofNat 64 (leNat d), out := s.out ++ [.smbus d] }
    reply .smbIdent (leBytes 4 (s.reg R_DEV_IDENT).toNat) ∧ reply .smbSerial (leBytes 8 (s.reg R_DEV_SERIAL).toNat) ∧
    reply .smbState (leBytes 1 (s.devState + (if s.ferState = ferRunning then 128 else 0))) ∧
    reply .smbTemp (leBytes 2 (s.regField R_PWR_TEMP 15 0)) ∧
    reply .smbPower (leBytes 2 s.windowPower ++ leBytes 2 (grantW s)) ∧
    reply .smbLaser ((List.range 4).flatMap (fun p => leBytes 2 (s.regField (R_LNK_LASER_PWR + 0x100 * p) 15 0))) ∧
    exec .smbAlert s = .next { s with alerts := 0, busRead := BitVec.ofNat 64 (leNat (leBytes 1 (s.alerts.toNat % 64))), out := s.out ++ [.smbus (leBytes 1 (s.alerts.toNat % 64))] })

/-! ## Berths, doorbells, manifests and arbitration (R236 to R239, R286, R305 to R390) -/

/-- R316, R317, R333: a request of LOAD that is taken up refuses a berth in use, a context resident elsewhere and a bad
record, and otherwise makes the berth Loading; the berth becomes Resident with HEAD, TAIL and the completion counts of its
record; UNLOAD makes it Unloading; and it becomes Empty, keeping its epoch alone, once its manifests have retired; a
revocation sets REVOKED and ends what the queues have fetched. R318 to R320, R452: a doorbell of the berth's owner on a
Resident berth offers its value, with the host's stores there first: a tail from the present one up to one ring beyond HEAD is
taken, another leaves an entry of source HOST; a doorbell on a Loading berth is held; one of another sender freezes the queue;
and any other access, or a berth that is Empty or Unloading, has no effect but the stores. What the specification leaves open
here is the model's choice, log entry 75. -/
def Obligations.BerthsAndDoorbells : Prop :=
  (
  ∀ (s : State) (b : BerthId), Operates s →
    (∀ value : Lane, Registers.wf s = true → s.hostReaches R_BRT_REQ = true → value.getLsbD 31 = true →
      bits value.toNat 21 16 = b.val → s.ferryDown = false →
      let u := s.setReg R_BRT_REQ (BitVec.ofNat 64 (value.toNat &&& 0x383FFFFF))
      let ctx := bits value.toNat 15 0
      u.regBit R_BRT_REQ_STATUS 31 = false →
      (bits value.toNat 29 28 = 0 → exec (.loadBerth value none) s = .next (s.framed (u.load b ctx)) ∧
        ∀ us, exec (.loadBerth value (some us)) s = .next (s.framed (u.brtAnswer brtFerryBusy us.toNat))) ∧
      (bits value.toNat 29 28 = 1 → exec (.unloadBerth value none) s = .next (s.framed (u.unload b ctx)))) ∧
    (∀ (ctx : Nat) (x : BerthSt), (s.berth b).state = .empty →
      (∀ i, (s.berth i).state = .empty ∨ (s.berth i).context.toNat ≠ ctx) → s.sharing = modeUnshared →
      s.contextRec (s.regField R_BRT_REQ_ADDR 51 6 * 64) ctx = some x →
      ((s.load b ctx).berth b) = { x with epoch :=
          ((s.fences.filter (fun f => f.context == x.context)).map (·.epoch)).foldl max 0 } ∧
        x.state = .loading ∧ (s.load b ctx).brtServed = some b) ∧
    (∀ ctx, (s.berth b).state ≠ .empty → s.load b ctx = s.brtAnswer brtBerthUsed 0) ∧
    (∀ ctx, (s.berth b).state = .resident → ((s.unload b ctx).berth b).state = .unloading ∧ (s.unload b ctx).brtServed = some b) ∧
    ((s.berth b).state = .loading → s.hostUp = true → s.ferryDown = false → (∀ q, ((s.berth b).queue q).held = []) →
      ∃ t, exec (.berthLoaded b) s = .next t ∧ (t.berth b).state = .resident ∧ (t.berth b).context = (s.berth b).context ∧
        ∀ q, ((s.berth b).queue q).valid = true →
          let r := (s.berth b).record + 0x40 + 64 * q.val
          ((t.berth b).queue q).tail = s.hostNat (r + 0x10) 8 ∧ ((t.berth b).queue q).head = s.hostNat (r + 0x18) 8 ∧
          ((t.berth b).queue q).cringProduced = s.hostNat (r + 0x30) 8 ∧
          ((t.berth b).queue q).cringConsumed = s.hostNat (r + 0x38) 8) ∧
    ((s.berth b).state = .unloading → s.berthBusy b = false → s.instCmds = [] → s.key.removal ≠ 1 →
      ∃ t, exec (.berthEmpty b) s = .next t ∧ t.berth b = { BerthSt.empty with epoch := (s.berth b).epoch } ∧
        (s.brtServed = some b → t.brtServed = none)) ∧
    (∀ value : Lane, s.hostReaches R_BRT_QREVOKE = true → value.getLsbD 31 = true → bits value.toNat 21 16 = b.val →
      (s.berth b).state = .resident →
      exec (.brtQrevoke value) s = .next (s.framed (s.revoke b (value.setWidth 16))))) ∧
  (
  ∀ (s : State) (b : BerthId) (q : QueueId) (v : Word) (sender : DbSender) (w : HostStores), Operates s →
    s.hostUp = true → s.devUp = true → s.sharing ≠ modeMediated → (∀ i, sender ≠ .function i) →
    let u := s.hostStores w
    let x := (s.berth b).queue q
    (∀ access, access ≠ .tail → exec (.doorbell b q access v sender w) s = .next u) ∧
    ((s.berth b).state = .empty ∨ (s.berth b).state = .unloading → exec (.doorbell b q .tail v sender w) s = .next u) ∧
    (s.ownsBerth b sender = false → (s.berth b).state = .resident ∨ (s.berth b).state = .loading →
      exec (.doorbell b q .tail v sender w) s = .next (s.framed (u.freezeQueue b q 1))) ∧
    (s.ownsBerth b sender = true → (s.berth b).state = .loading →
      exec (.doorbell b q .tail v sender w) s = .next (u.updQueue b q (fun x => { x with held := x.held ++ [v] }))) ∧
    (s.ownsBerth b sender = true → (s.berth b).state = .resident →
      (x.valid = false ∨ s.qRevoked b q = true ∨ s.qFrozen b q = true → exec (.doorbell b q .tail v sender w) s = .next u) ∧
      (x.valid = true → s.qRevoked b q = false → s.qFrozen b q = false →
        (x.tail ≤ v.toNat ∧ v.toNat - x.head ≤ 2 ^ x.ringLog2 →
          exec (.doorbell b q .tail v sender w) s = .next (u.updQueue b q (fun x => { x with tail := v.toNat }))) ∧
        (¬ (x.tail ≤ v.toNat ∧ v.toNat - x.head ≤ 2 ^ x.ringLog2) →
          exec (.doorbell b q .tail v sender w) s = .next (s.framed (u.addFault { FaultEntry.bare 6 1 with
            bq := some (b.val, q.val), context := (s.berth b).context, addr := v }))))))

/-- R321, R327, R343: a queue that may fetch takes the manifest at HEAD with its continuations, binds its tickets, advances
HEAD past it, and the manifest waits for its event; one of a wrong format or with a ticket that does not bind is refused, with
FORMAT before TICKET (R569). A
manifest whose event word has reached its value, or that names no event, takes the next place in the order of admission. What
the specification leaves open here is the model's choice, log entries 42, 76 and 77. -/
def Obligations.FetchAndEventWaits : Prop :=
  (∀ (s : State) (b : BerthId) (q : QueueId), Operates s → s.misused = none → s.mayFetch b q = true →
    let x := (s.berth b).queue q
    let e := s.ringEntries x x.head 1
    let k := entryConts x.format e
    1 + k ≤ x.tail - x.head →
    let conts := s.ringEntries x (x.head + 1) k
    let blank := Manifest.blank s.nextManifest b q (s.berth b).context
    let r := if x.format = 1 then manifestV1 blank e conts else manifestV2 blank e conts
    let m : Manifest := { r.1 with vdev := match s.slotVdev r.1.vslot.val with
      | some v => v.number
      | none => 0 }
    let fetched (s1 : State) (m1 : Manifest) : State :=
      State.publish (State.updQueue { s1 with manifests := s1.manifests ++ [m1], nextManifest := s1.nextManifest + 1 } b q
        (fun y => { y with head := x.head + 1 + k })) ((s.berth b).record + 0x58 + 64 * q.val)
        (leBytes 8 (x.head + 1 + k)) []
    (r.2 = false → ((fetched s m).refuse m.id rsFormat).misused = none →
      exec (.fetch b q) s = .next (s.framed ((fetched s m).refuse m.id rsFormat))) ∧
    (∀ s1 s2 short, r.2 = true → s.bindManifest m = (s1, none) → (fetched s1 m).shortOfCode m = (s2, short) →
      let u := s2.refuse m.id (if short then rsFormat else rsTicket)
      u.misused = none → exec (.fetch b q) s = .next (s.framed u)) ∧
    (∀ s1 m1, r.2 = true → s.bindManifest m = (s1, some m1) → ((fetched s1 m1).pollEvent m.id).misused = none →
      exec (.fetch b q) s = .next (s.framed ((fetched s1 m1).pollEvent m.id)))) ∧
  (∀ (s u : State) (m : Manifest) (e : LedgerEntry) (v : Word), Operates s → s.misused = none →
    s.manifest? m.id = some m → m.phase = .waitEvent → s.hostUp = true →
    let ready (s : State) : State := State.updManifest { s with admitOrder := s.admitOrder + 1 } m.id
      (fun m => { m with phase := .admissible, readyAt := s.admitOrder, readyBeat := s.beat })
    (m.waitEvent = 0 → exec (.waitEventPoll m.id) s = .next (ready s)) ∧
    (m.waitEvent ≠ 0 → s.eventEntry m.waitEvent = some e → e.abandoned = false → s.trouble e.place 8 false = none →
      s.wordRead e.place = (u, .inl v) → u.misused = none →
      exec (.waitEventPoll m.id) s = .next (s.framed (if m.waitValue ≤ v then ready u else u))))

/-- R305, R332, R348: LDG_ABANDON marks the event abandoned and completes the waits on it; a fence takes its number, drops the
runs it names, advances the context's epoch and waits its turn; the oldest fence completes when no earlier work of its context
is left. What the specification leaves open here is the model's choice, log entry 86. -/
def Obligations.LedgerAndFences : Prop :=
  ∀ s : State, Operates s →
    (∀ (t : Lane) (e : LedgerEntry), s.hostReaches R_LDG_ABANDON = true → s.eventEntry t = some e →
      exec (.ldgAbandon t) s = .next (s.framed (State.wakeAbandoned
        (s.hostPutNat (e.addr + 8) 8 (setBits (s.hostNat (e.addr + 8) 8) 20 20 1))))) ∧
    (∀ t : Lane, s.hostReaches R_LDG_ABANDON = true → s.eventEntry t = none →
      exec (.ldgAbandon t) s = .next (s.setRegField R_LDG_STATUS 1 1 1)) ∧
    (∀ v : Lane, s.hostReaches R_XLT_FENCE_GO = true → v.getLsbD 0 = true →
      let ctx : BitVec 16 := (s.reg R_XLT_FENCE_CTX).setWidth 16
      let lo := s.regField R_XLT_FENCE_BASE 47 16 * 65536
      let hi := (s.regField R_XLT_FENCE_LIMIT 47 16 + 1) * 65536
      ctx ≠ 0 → (16 ≤ s.fences.length → exec (.xltFenceGo v) s = .next (s.setRegField R_XLT_STATUS 5 5 1)) ∧
      (s.fences.length < 16 → ∃ t f, exec (.xltFenceGo v) s = .next t ∧ t.fences = s.fences ++ [f] ∧ f.context = ctx ∧
        t.cache = s.cache.filter (fun c => !(c.context == ctx &&
          ((s.reg R_XLT_FENCE_CTX).getLsbD 31 || (decide (lo < hi) && c.overlaps lo hi)))) ∧
        (∀ b, (s.berth b).state ≠ .empty → (s.berth b).context = ctx → (t.berth b).epoch = (s.berth b).epoch + 1) ∧
        (∀ b, (s.berth b).state = .empty ∨ (s.berth b).context ≠ ctx → t.berth b = s.berth b))) ∧
    (∀ f rest, s.fences = f :: rest →
      (s.fenceWork f = true → exec .fenceComplete s = .next s) ∧
      (s.fenceWork f = false →
        exec .fenceComplete s = .next (State.setReg { s with fences := rest } R_XLT_FENCE_DONE (f.seq.setWidth 64))))

/-- R357, R358, R360 to R363, R383, R569: of the manifests whose wait has ended, the first in the order of admission, which is the one
whose came to hold first where one did, is admitted where no cause of refusal holds: its booking, its floor and its ranks are recorded
and SUB_ADMITTED rises; with a cause it ends REFUSED, or with DEADLINE where a later run of a promised manifest no longer fits; an open
one that waits for a host keeps its place (R38). R84, R351, R352: the kernel the arbiter
chooses has its text read and goes to the engine queues of every core of its mask at once, and the manifest runs. What the
specification leaves open here is the model's choice, log entries 77, 78 and 81. -/
def Obligations.AdmissionAndIssue : Prop :=
  (
  ∀ (s s1 : State) (m : Manifest) (v : VDev) (o : CodeObj), Operates s → s.misused = none →
    s.manifest? m.id = some m → m.phase = .admissible → m.trailersDone = true → m.running = false →
    s.nextAdmitted m = true → s.slotVdev m.vslot.val = some v → s.readCode m = (s1, .obj o) →
    let u := s1.admissionTurn m
    let reason := u.cause m (.obj o) none (some v)
    (reason = 0 → State.waitsForHost m v = false → (u.admitRun m o none v).misused = none →
      exec (.admission m.id) s = .next (s.framed (u.admitRun m o none v))) ∧
    (reason = 0 → State.waitsForHost m v = true → s1.misused = none → exec (.admission m.id) s = .next (s.framed s1)) ∧
    (reason ≠ 0 → ¬ (reason = rsNoTime ∧ 0 < m.iter) → (u.refuse m.id reason).misused = none →
      exec (.admission m.id) s = .next (s.framed (u.refuse m.id reason))) ∧
    (reason = rsNoTime → 0 < m.iter → (u.endManifest m.id stDeadline 0).misused = none →
      exec (.admission m.id) s = .next (s.framed (u.endManifest m.id stDeadline 0)))) ∧
  (
  ∀ (s : State) (m : Manifest), (∀ x ∈ s.admissible, x = m ∨ m.readyBeat < x.readyBeat) → s.nextAdmitted m = true) ∧
  (
  (∀ (s s1 : State) (p : PartId) (x : Ready) (bs : List Byte), Operates s → s.misused = none → s.issues p = true →
    s.pickKernel p = some x →
    s.readVirt (some p.val) x.m (x.o.base + x.o.textOff + 8 * x.k.start) (8 * x.k.words) true = (s1, .ok bs) →
    let u := State.placeKernel { s1 with arbs := (s.issueTurn p x).arbs } p x (wordsOf bs)
    u.misused = none → exec (.kernelIssue p) s = .next (s.framed u)) ∧
  (∀ (s : State) (p : PartId) (x : Ready) (text : List Word) (c : CoreId), corePart c = p → x.k.mask.testBit (coreNum c) = true →
    (s.core c).phase = .waiting .kernelEnd →
    ((s.placeKernel p x text).core c).engine = (s.core c).engine ++ [⟨x.m.id, x.r.kindex, x.r.rank, x.r.shadow, text⟩]))

/-- R236, R237, R239: a run that has ended on every named rank counts its tokens up to the first stop token; they are
delivered where the ring has room, and the manifest ends with STOP or LIMIT or goes to its next run; without room it waits and
CONSUMED alone is read again. R286, R327, R347 to R349, R532: an ended manifest writes its completion record where the completion
ring has room and none waits before it; a full ring is read again; a manifest whose record is written retires, returning every
count it took; and an abandoned one that no listed line holds while UE_HOLD is 1 is issued again, its step record restored (R240,
R258). What the specification leaves open here is the model's
choice, log entry 80. -/
def Obligations.RunsAndManifestsEnd : Prop :=
  (
  ∀ (s s1 : State) (m : Manifest) (r : RunRec) (bs : List Byte), Operates s → s.misused = none →
    s.manifest? m.id = some m → m.runRec = some r → s.stepTrouble r false = none → s.readStep r = (s1, .ok bs) →
    (m.phase = .running → m.leadersDone = true → 1 ≤ natAt bs 0 4 → natAt bs 0 4 ≤ 64 →
      let c := scanStops r.stops ((List.range (natAt bs 0 4)).map (fun i => laneAt bs (0x10 + 4 * i)))
      (s1.deliverRun m r c.1 c.2 bs).misused = none →
      exec (.runEnd m.id) s = .next (s.framed (s1.deliverRun m r c.1 c.2 bs)))) ∧
  (
  ∀ (s : State) (m : Manifest) (r : RunRec) (c : Nat) (stop : Bool) (bs : List Byte), Operates s → s.misused = none →
    (s.manifest? m.id = some m → m.runRec = some r → m.phase = .runEnd c stop bs → (s.deliverRun m r c stop bs).misused = none →
      exec (.tokenRingPoll m.id) s = .next (s.framed (s.deliverRun m r c stop bs))) ∧
    (s.hostUp = true → m.nodeliver = false → 2 ^ r.ringLog2 - c < s.ringCount r 0 - s.ringCount r 8 →
      s.deliverRun m r c stop bs = s.updManifest m.id (fun m => { m with phase := .runEnd c stop bs }))) ∧
  (
  ∀ (s : State) (m : Manifest), Operates s → s.misused = none → s.manifest? m.id = some m →
    (∀ st dt, m.phase = .ending st dt → s.signalWaits m st = false →
      (((s.berth m.berth).queue m.queue).cringFull = false → ((s.berth m.berth).queue m.queue).waiting = [] →
        (s.complete m st dt).misused = none → exec (.manifestComplete m.id) s = .next (s.framed (s.complete m st dt)))) ∧
    (∀ (b : BerthId) (q : QueueId), ((s.berth b).queue q).waiting ≠ [] → s.hostUp = true →
      let u := State.drainRecords (((s.berth b).queue q).waiting.length + 1) (s.readCringConsumed b q) b q
      u.misused = none → exec (.cringPoll b q) s = .next (s.framed u)) ∧
    (m.phase = .recorded → m.trailersDone = true → exec (.manifestRetire m.id) s = .next (s.framed (s.retireManifest m))) ∧
    (m.phase = .abandoned → m.heldLines ≠ [] → s.regBit R_MEM_CTRL 0 = true → exec (.replayReissue m.id) s = .next s) ∧
    (m.phase = .abandoned → (m.heldLines = [] ∨ s.regBit R_MEM_CTRL 0 = false) →
      let again (u : State) : State :=
        u.updManifest m.id (fun m => { m with phase := .admitted, replays := m.replays + 1, heldLines := [] })
      (m.runRec = none → exec (.replayReissue m.id) s = .next (again s)) ∧
      (∀ r st s1, m.runRec = some r → m.step = some st → st.readable = true → s.stepTrouble r true = none →
        s.restoreStep r st.bytes = (s1, none) → s1.misused = none →
        exec (.replayReissue m.id) s = .next (s.framed (again s1)))))

/-- R373: a commit of sound shadows takes effect at once where the timetable is off or has not begun, and at the end of the
cycle in force otherwise; it is refused where one is pending, the shadows are unsound, or a booking does not fit. R376 to
R381, R386: a turn of an instance below the booths goes to one of the requests present: the owner of the slot at the pointer
where it requests, else the one of the least order; the winner's counter clears, each other present one rises up to LIMIT, and
the pointer moves on, and a requester that no longer requests keeps no count; a counter at LIMIT expires, the rotation base moves after 64 turns, a withdrawal passes the turn dead,
and a commit puts sound shadows in force. What the specification leaves open here is the model's choice, log entries 44, 45 and 110. -/
def Obligations.TimetablesAndTurns : Prop :=
  (
  ∀ (s : State) (p : PartId), Operates s →
    (∀ v : Lane, s.hostReaches (R_TTB_COMMIT + ttBase p) = true → v.getLsbD 0 = true →
      let x := s.part p
      let refused := s.setRegField (R_TTB_STATUS + ttBase p) 30 30 1
      (x.ttPending.isSome = true → exec (.ttbCommit p v) s = .next refused) ∧
      (x.ttPending = none → s.ttShadow p = none → exec (.ttbCommit p v) s = .next refused) ∧
      (∀ t, x.ttPending = none → s.ttShadow p = some t →
        (x.timetable.enable = false ∨ s.beat < x.timetable.anchor → exec (.ttbCommit p v) s = .next (s.framed (s.ttEffect p t))) ∧
        (x.timetable.enable = true → x.timetable.anchor ≤ s.beat → ∃ t', exec (.ttbCommit p v) s = .next t' ∧
          (t'.part p).ttPending = some t ∧ (t'.part p).timetable = x.timetable ∧
          (t'.part p).ttPendingAt =
            x.timetable.anchor + ((s.beat - x.timetable.anchor) / x.timetable.cycle + 1) * x.timetable.cycle))) ∧
    (∀ t, (s.part p).ttPending = some t → (s.part p).ttPendingAt ≤ s.beat →
      exec (.ttbCommitEffect p) s = .next (s.framed (s.ttEffect p t)) ∧
      (s.retest p t = true → ((s.ttEffect p t).part p).timetable = t ∧ ((s.ttEffect p t).part p).ttPending = none)) ∧
    (∀ t, s.ttShadow p = some t → 1 ≤ t.slots.length ∧ t.slots.length ≤ 256 ∧ t.anchor % 64 = 0 ∧
      ∀ x ∈ t.slots, 1 ≤ x.units ∧ x.units ≤ 4096 ∧ ∀ b, x.owner = some b → b < 48)) ∧
  (
  ∀ (s : State) (i : ArbIndex), Operates s → s.misused = none →
    (∀ present : List Nat, i.val < 0x160 → (arbOwner i.val).all (fun p => (s.part p).state != .stranded) = true →
      let here := (present.filter (fun r => decide (r < s.arbN i.val))).eraseDups
      here ≠ [] →
      let a := ((s.arb i.val).keepOnly here).turn (s.arbN i.val) here
      exec (.arbitration i present) s = .next (s.setArb i.val a) ∧
      ∃ w ∈ here, a.granted = some w ∧ a.pointer = ((s.arb i.val).pointer + 1) % 64 ∧
        (∀ o ∈ here, (s.arb i.val).slotOwner = some o → w = o)) ∧
    (∀ r, r < s.arbN i.val → exec (.waitCounterExpire i r) s = .next (s.setArb i.val ((s.arb i.val).expire r))) ∧
    exec (.arbEpochAdvance i) s = .next (s.setArb i.val (if (s.arb i.val).epoch < (s.arb i.val).turns / 64
      then { s.arb i.val with epoch := (s.arb i.val).epoch + 1 } else s.arb i.val)) ∧
    (∀ r, (s.arb i.val).granted = some r → ∃ a, exec (.arbWithdraw i r) s = .next (s.setArb i.val a) ∧ a.granted = none ∧
      a.dead.toNat = satAdd (s.arb i.val).dead.toNat 0xFFFFFFFF) ∧
    (∀ v : Lane, s.hostReaches R_ARB_COMMIT = true → v.getLsbD 0 = true → s.regField R_ARB_SEL 8 0 ≤ 0x180 →
      let n := s.regField R_ARB_SEL 8 0
      let a := s.arb n
      exec (.arbCommit v) s = .next (s.setArb n (if arbCommitOk n (s.arbN n) a.shadow then { a with active := a.shadow }
        else { a with refused := true }))))

/-! ## Faults, scrubbing and reset (R254 to R258, R516 to R536) -/

/-- R254 to R256, R258: a turn of a scrub engine takes the queued line first, else the next in order, does to it what R256
says, and moves on; a line with no symbol error is left as it is, one within correction is written back clean and counted, one
beyond it leaves an entry and is listed; a clear of a listed line releases the replays it held. What the specification leaves
open here is the model's choice, log entry 46. -/
def Obligations.ScrubAndUncorrectable : Prop :=
  (∀ (s : State) (p : PartId) (dram : Bool), Operates s → s.devUp = true → (s.part p).state ≠ .resetting →
    (s.part p).state ≠ .stranded → s.regField (if dram then R_MEM_SCRUB_DR else R_MEM_SCRUB_CS) 15 0 ≠ 0 →
    let q := if dram then (s.part p).scrubDr else (s.part p).scrubCs
    let set (s : State) (y : ScrubSt) : State :=
      s.updPart p (fun x => if dram then { x with scrubDr := y } else { x with scrubCs := y })
    (∀ l rest, q.queued = l :: rest →
      exec (.scrubTurn p dram) s = .next (s.framed (set (s.scrubLine p dram true l) { q with queued := rest }))) ∧
    (q.queued = [] → q.next + 1 < scrubLines dram →
      exec (.scrubTurn p dram) s = .next (s.framed (set (s.scrubLine p dram false (scrubBase p dram + 64 * q.next))
        { q with next := q.next + 1 })))) ∧
  (∀ (s : State) (p : PartId) (dram queued : Bool) (line : Nat),
    (∀ x, addrKind line = .data x → mapGet .unwritten s.lineKeys line ≠ .unwritten) →
    (mapGet [] s.lineErrors line = [] → s.scrubLine p dram queued line = s) ∧
    (rsDecode (mapGet [] s.lineErrors line) = .uncorrectable →
      s.scrubLine p dram queued line = State.listUe (s.addFault (memFault 3 (some p.val) line)) line) ∧
    (rsDecode (mapGet [] s.lineErrors line) = .corrected [] → (s.scrubLine p dram queued line).lineErrors =
      mapPut [] s.lineErrors line [])) ∧
  (∀ (s : State) (v : Lane) (i : Fin 16) (line : Nat) (a : Bool), Operates s → s.hostReaches R_MEM_UE_CLEAR = true →
    v.toNat % 16 = i.val → s.ueList[i] = some (line, a) →
    exec (.memUeClear v) s = .next { s with
      ueList := s.ueList.set i none
      manifests := s.manifests.map (fun m => { m with heldLines := m.heldLines.filter (fun l => l != line) }) })

/-- R518, R519, R535, R536, R546: a write of FLT_RING while every berth is Empty begins a ring with every queued entry,
PRODUCED from zero, and is ignored otherwise; a clear of overflow counts clears the counts and times of the sources it names;
the summary of the last 32 entries goes to the flash; and so does the retirement list, or an entry where the flash fails. What
the specification leaves open here is the model's choice, log entries 8 and 69. -/
def Obligations.FaultRecords : Prop :=
  ∀ s : State, Operates s →
    (∀ v : Word, s.hostReaches R_FLT_RING = true →
      ((∃ b, (s.berth b).state ≠ .empty) → exec (.fltRingWrite v) s = .next s) ∧
      ((∀ b, (s.berth b).state = .empty) →
        let u := (s.setRegField R_FLT_RING 51 12 (wbits v 51 12)).setRegField R_FLT_RING 3 0 (wbits v 3 0)
        let r : State := State.setReg { u with faultMirrored := 0, faultConsumed := 0 } R_FLT_PRODUCED 0
        exec (.fltRingWrite v) s = .next (s.framed (r.faults.foldl State.mirrorOne r)))) ∧
    (∀ v : Lane, s.hostReaches R_FLT_OVF_CLEAR = true →
      let u := ((List.range 16).filter (fun k => v.getLsbD k)).foldl (fun (s : State) k =>
        State.setReg (State.setReg (s.setReg (R_FLT_OVF_COUNT + 4 * k) 0) (R_FLT_OVF_FIRST + 8 * k) 0) (R_FLT_OVF_LAST + 8 * k) 0) s
      ((∀ k, k < 16 → u.reg (R_FLT_OVF_COUNT + 4 * k) = 0) → exec (.fltOvfClear v) s = .next (u.setRegField R_FLT_STATUS 31 31 0)) ∧
      ((∃ k, k < 16 ∧ u.reg (R_FLT_OVF_COUNT + 4 * k) ≠ 0) →
        exec (.fltOvfClear v) s = .next (u.setRegField R_FLT_STATUS 31 31 1))) ∧
    (s.ferryDown = false → s.devUp = true →
      exec .faultSummaryWrite s = .next (s.flashPut flashSummary s.faultSummaryBytes)) ∧
    (∀ p : PartId, (s.part p).unlisted ≠ 0 → (s.part p).state ≠ .resetting → s.ferryDown = false →
      let a := flashRetirement + 2 * p.val
      let u := s.updPart p (fun x => { x with unlisted := 0 })
      exec (.retirementListWrite p true) s = .next (u.flashPut a (leBytes 2 (s.flashNat a 2 ||| (s.part p).unlisted.toNat))) ∧
      exec (.retirementListWrite p false) s = .next (s.framed (u.addFault { FaultEntry.bare 1 5 with part := some p.val })))

/-- R521, R526 to R529: FLT_RESET starts the reset of each partition it names, and refuses one that is Resetting or stranded;
the salvage of step 2 writes its record on the main path, or after 100 µs on the fall-back, numbered in order, and a record
whose half is being reset waits and is written later. R64, R522, R524, R530: the reset clears every core of the partition and
zeroes its cluster store, retires every pending position with those the pattern test finds, publishes the core map, and ends
when both channels are initialised again; a channel that fails, or 10 ms, strands the partition. What the specification leaves
open here is the model's choice, log entry 69. -/
def Obligations.PartitionReset : Prop :=
  (
  ∀ (s : State) (p : PartId), Operates s →
    (∀ v : Lane, s.hostReaches R_FLT_RESET = true → v.getLsbD 31 = true → (∀ c : PartId, v.getLsbD c.val = true ↔ c = p) →
      ((s.part p).state = .resetting ∨ (s.part p).state = .stranded →
        exec (.fltReset v) s = .next (s.setRegField R_FLT_STATUS 30 30 1)) ∧
      ((s.part p).state ≠ .resetting → (s.part p).state ≠ .stranded →
        exec (.fltReset v) s = .next (s.framed (s.startReset p 0 none)))) ∧
    (s.resetStep p = 2 → s.usedFallback p = false →
      (s.halfState p ≠ .resetting → s.halfState p ≠ .stranded →
        let x := s.storeSample p
        let n := x.1.numberRecord p (x.1.mainRecord p x.2)
        exec (.salvageDone p) s = .next (s.framed ((n.1.writeRecord p n.2).setStep p 3))) ∧
      ((s.reg (R_FLT_RESET_BEAT + 8 * p.val)).toNat + 100000 ≤ s.beat →
        exec (.salvageFallback p) s = .next (s.framed (State.addFault (s.setRegField (State.resetStatus p) 6 6 1)
          (resetEntry p 4 0))))) ∧
    (s.resetStep p = 2 → s.usedFallback p = true → s.ferryDown = false →
      let n := s.numberRecord p (s.fallbackRecord p)
      (s.halfState p = .resetting → exec (.salvageFallbackDone p) s = .next (s.framed (State.setStep
        (n.1.updPart p (fun x => { x with salvageHeld := x.salvageHeld ++ [n.2] })) p 3))) ∧
      (s.halfState p ≠ .resetting → s.halfState p ≠ .stranded →
        exec (.salvageFallbackDone p) s = .next (s.framed ((n.1.writeRecord p n.2).setStep p 3)))) ∧
    (s.ferryDown = false → s.halfState p ≠ .resetting → s.halfState p ≠ .stranded →
      exec (.salvageDeferredWrite p) s = .next (s.framed (State.updPart
        ((s.part p).salvageHeld.foldl (fun s r => s.writeRecord p r) s) p (fun x => { x with salvageHeld := [] })))) ∧
    (∀ q, (s.numberRecord p q).2 = ⟨(s.part p).salvageSeq, salvageBase p.val + (s.part p).salvageSeq % 512 * 0x20000, q⟩)) ∧
  (
  ∀ (s : State) (p : PartId), Operates s →
    (s.resetStep p = 3 → ∃ t, exec (.zeroDone p) s = .next t ∧
      (∀ c, corePart c = p → t.core c = CoreSt.reset) ∧ (∀ c, corePart c ≠ p → t.core c = s.core c) ∧
      t.mem = mapClear s.mem (p.val * storeBytes) (p.val * storeBytes + storeBytes)) ∧
    (∀ failed : BitVec 15, s.resetStep p = 4 →
      let w := (s.part p).working
      let u := ((List.range 15).filter (fun i => failed.getLsbD i && bitAt w i)).foldl (fun s i => s.pendPosition p i 4) s
      let r := u.updPart p (fun x => { x with
        bad := x.bad ||| x.pendingRetire, unlisted := x.unlisted ||| x.pendingRetire, pendingRetire := 0, onPosition := [] })
      exec (.patternTestDone p failed) s = .next (s.framed ((r.publishCoreMap p).awaitDram p))) ∧
    ((s.part p).state = .resetting → 2 ≤ s.resetStep p → (s.part p).dramReady = false →
      let lo := dramBase + p.val * dramStride
      let u := (s.forgetRange lo (lo + dataMib p.val * 0x100000)).updPart p (fun x => { x with dramReady := true })
      (u.resetStep p ≠ 6 → exec (.dramReinitDone p) s = .next (s.framed u)) ∧
      (u.resetStep p = 6 → exec (.dramReinitDone p) s = .next (s.framed (u.finishReset p))) ∧
      (∀ k, channelPart k = p → exec (.channelReinitFailed k) s =
        .next (s.framed (State.strand (s.setReg (channelReg k.val) 2) p)))) ∧
    ((s.part p).state = .resetting → (s.reg (R_FLT_RESET_BEAT + 8 * p.val)).toNat + 10000000 ≤ s.beat →
      exec (.partitionStranded p) s = .next (s.framed (s.strand p))))

/-! ## Ports, links and the roster (R391 to R425) -/

/-- R391, R404, R407, R565: enabling a port reads MODE and GEN and starts training, disabling it takes its interfaces down; an
interface whose lanes have trained comes up, a lane that has not in 500 ms is marked failed; a laser below 16.0 dBm takes the
port down with an entry and an alert, where it was not below already, and at 16.5 dBm an enabled port trains again. R393, R395,
R397, R412: a frame counts its corrected codewords; one for another device leaves by the route's interface with nothing changed, or is
dropped and counted where no route is known; a broadcast that is none of discovery goes out with one hop less on every other interface
that is up, once in 2 ms; a solicitation of an interface's own address is answered and of any other counted; a frame that the interface
does not take is counted, an uncorrectable codeword by its own counter; and an interface that is down takes nothing. R408, R411: an
unnumbered or duplicate device sends on nothing but discovery. What the specification leaves open here is the model's choice, log
entries 47, 48 and 97. -/
def Obligations.PortsAndForwarding : Prop :=
  (
  ∀ (s : State) (port : Fin 4), Operates s →
    let p := port.val
    (∀ v : Lane, s.hostReaches (portCtrl p) = true → bitAt (s.reg (portCtrl p)).toNat 0 ≠ v.getLsbD 0 →
      portIgnored (s.reg (portCtrl p)).toNat v.toNat = false →
      let u := s.setRegField (portCtrl p) 3 0 (bits v.toNat 3 0)
      (v.getLsbD 0 = true → exec (.portEnable port v) s = .next (s.framed (u.enablePort p)) ∧
        (Registers.wf s = true → ((u.enablePort p).port p).mode = bits v.toNat 2 1 ∧
          ((u.enablePort p).port p).gen = bits v.toNat 3 3 ∧ (u.enablePort p).portTraining p = true)) ∧
      (v.getLsbD 0 = false → exec (.portEnable port v) s = .next (u.portDown p))) ∧
    (∀ i : Fin 8, s.portTraining p = true → s.laserOk p = true → i.val < s.portIfs p → s.ifFailed p i.val = false →
      s.ifUp p i.val = false → ∃ t, exec (.portTrained port i) s = .next t ∧
        t.regs = ((s.setRegField (portStatus p) (8 + i.val) (8 + i.val) 1).trainCheck p).regs ∧
        t.discovery.trainedAt = some (s.discovery.trainedAt.getD s.beat)) ∧
    (∀ n : Fin 8, s.portTraining p = true → s.ifUp p (n.val / s.lanesPer p) = false →
      exec (.laneTrainingTimeout port n) s =
        .next (s.framed (State.trainCheck (s.setRegField (portStatus p) (16 + n.val) (16 + n.val) 1) p))) ∧
    (∀ w : BitVec 16, w.toInt < 1600 → s.laserOk p = false → s.laserPower p < 1600 →
      exec (.laserLoss port w) s = .next (s.showLaser p w)) ∧
    (∀ w : BitVec 16, w.toInt < 1600 → (s.laserOk p = true ∨ 1600 ≤ s.laserPower p) →
      let d := State.portDown ((s.showLaser p w).setRegField (portStatus p) 31 31 0) p
      exec (.laserLoss port w) s = .next (s.framed
        (State.linkFault { d with alerts := d.alerts ||| ((1 : BitVec 16) <<< (2 + p)) } 4 0))) ∧
    (∀ w : BitVec 16, 1650 ≤ w.toInt → (s.showLaser p w).portEnabled p = true → (s.showLaser p w).laserOk p = false →
      exec (.laserRestore port w) s =
        .next (s.framed (State.portTrain ((s.showLaser p w).setRegField (portStatus p) 31 31 1) p)))) ∧
  (
  ∀ (s : State) (arr : Arrival), Operates s →
    let p := arr.port.val
    let i := arr.iface.val
    let u := s.countCorrected arr
    let dropped := u.countReg (R_LNK_FEC_CW + 0x100 * p + 8)
    (Registers.wf s = true → u.reg (R_LNK_FEC_CW + 0x100 * p) =
      BitVec.ofNat 64 (min 0xFFFFFFFF ((s.reg (R_LNK_FEC_CW + 0x100 * p)).toNat + arr.corrected.toNat))) ∧
    (s.ifUp p i = false → (∀ f, exec (.frameForward arr.toLinkEnd arr.toEnvelope f) s = .next s) ∧ (∀ a, exec (.neighbourSolicitation arr.toLinkEnd arr.toEnvelope a) s = .next s) ∧
      ∀ unc version type, exec (.frameDiscarded arr ⟨unc, version, type⟩) s = .next s) ∧
    (s.ifUp p i = true →
      (s.takes arr = false → ∀ f, exec (.frameForward arr.toLinkEnd arr.toEnvelope f) s = .next dropped) ∧
      (s.takes arr = true → ∀ f : Frame, f.dst ≠ u.landing →
        ((u.sendsAll || isDiscovery f) = false → exec (.frameForward arr.toLinkEnd arr.toEnvelope f) s = .next u) ∧
        ((u.sendsAll || isDiscovery f) = true → f.dst ≠ broadcast →
          (∀ e, u.egress? f.dst = some e →
            exec (.frameForward arr.toLinkEnd arr.toEnvelope f) s = .next { u with out := u.out ++ [.forward e.1 e.2 f] }) ∧
          (u.egress? f.dst = none → exec (.frameForward arr.toLinkEnd arr.toEnvelope f) s = .next dropped)) ∧
        (u.sendsAll = true → isDiscovery f = false → f.dst = broadcast →
          let seen := (u.discovery.broadcasts.filter (fun b => decide (u.beat < b.beat + 2000000))).any
            (fun b => b.src == f.src && b.seq == f.seq)
          (seen = true → exec (.frameForward arr.toLinkEnd arr.toEnvelope f) s = .next u) ∧
          (seen = false → f.hops ≠ 0 → ∃ t, exec (.frameForward arr.toLinkEnd arr.toEnvelope f) s = .next t ∧ t.regs = u.regs ∧
            t.out = u.out ++ ((List.range 32).filter (fun k => u.ifUp (k / 8) (k % 8) && k != 8 * p + i)).map
              (fun k => Out.forward (k / 8) (k % 8) { f with hops := f.hops - 1 })) ∧
          (seen = false → f.hops = 0 → ∃ t, exec (.frameForward arr.toLinkEnd arr.toEnvelope f) s = .next t ∧ t.regs = u.regs ∧ t.out = u.out))) ∧
      (∀ a : BitVec 128,
        (a = s.ip6 p i → exec (.neighbourSolicitation arr.toLinkEnd arr.toEnvelope a) s = .next { u with out := u.out ++ [.neighbourAdvert p i] }) ∧
        (a ≠ s.ip6 p i → exec (.neighbourSolicitation arr.toLinkEnd arr.toEnvelope a) s = .next dropped)) ∧
      (∀ version type, exec (.frameDiscarded arr ⟨true, version, type⟩) s = .next (u.countReg (R_LNK_FEC_CW + 0x100 * p + 4)) ∧
        (isPtp arr = true → exec (.frameDiscarded arr ⟨false, version, type⟩) s = .next u) ∧
        (isPtp arr = false → exec (.frameDiscarded arr ⟨false, version, type⟩) s = .next
          (if s.takes arr && version == 1 && frameTypes.contains type.toNat then u else dropped)))))

/-- R401 to R403: an event message's timestamp is the beat counter with 8 fraction bits, corrected for the interface's fixed delays and
LNK_ASYM; a delay request of the device's domain is answered with the times it came and the answer leaves, an answer gives the path
delay of the interface, and a Sync through the interface of the source in use disciplines the beat counter: it moves by one forward
step, only before the device has joined a roster and by an offset of more than 1 µs, and is slewed by at most 200 ppm otherwise; the
delay of an interface sets LNK_PEER_DELAY of the landing numbers whose route begins with it: over one hop the delay plus 20 ns, rounded
up; the peer-delay and sync messages leave on every interface that is up. What the specification leaves open here is the model's
choice, log entries 48, 53, 95, 96
and 115. -/
def Obligations.TimeSynchronisation : Prop :=
  (
  ∀ (s : State) (arr : Arrival) (domain : Byte) (fraction : BitVec 8) (body : PtpBody), Operates s →
    s.ifUp arr.port.val arr.iface.val = true → isPtp arr = true →
    let p := arr.port.val
    let i := arr.iface.val
    let k := 8 * p + i
    let u := s.countCorrected arr
    let now := u.recvStamp p fraction
    (domain.toNat ≠ u.ptpDomain → exec (.ptpMessage arr domain fraction body) s = .next u) ∧
    (domain.toNat = u.ptpDomain →
      (body = .delayReq → exec (.ptpMessage arr domain fraction body) s =
        .next { u.tick with out := u.out ++ [.ptp p i u.ptpDomain (.delayResp now (u.sendStamp p (Config.sendFraction u.free)))] }) ∧
      (∀ received sent t, body = .delayResp received sent → mapGet none u.ptp.sentAt k = some t →
        exec (.ptpMessage arr domain fraction body) s = .next { u with ptp := { u.ptp with
          delays := mapPut none u.ptp.delays k (some ((now - t - (sent - received)) / 2).toNat)
          sentAt := mapPut none u.ptp.sentAt k none
          round := u.ptp.round + 1 } }) ∧
      (∀ origin d, body = .sync origin → mapGet none u.ptp.delays k = some d → u.regBit R_LNK_TIME 7 = true →
        u.regField R_LNK_TIME 4 0 = k →
        let w := u.discipline (origin + d - now)
        exec (.ptpMessage arr domain fraction body) s = .next { s.framed w with beat := w.beat }) ∧
      (∀ origin, body = .sync origin → mapGet none u.ptp.delays k = none →
        exec (.ptpMessage arr domain fraction body) s = .next u))) ∧
  (
  ∀ (s : State) (offset : Int), Registers.wf s = true →
    let t := s.discipline offset
    (t.beat = s.beat ∨ (s.ptp.joined = false ∧ s.regBit R_LNK_TIME 30 = false ∧ 256000 < offset ∧
      t.beat = s.beat + (offset / 256).toNat)) ∧
    (t.beat = s.beat → -200 ≤ t.ptp.rate ∧ t.ptp.rate ≤ 200 ∨ t.ptp.rate = s.ptp.rate) ∧
    t.ptp.lockCount = (if offset.natAbs ≤ 5120 then s.ptp.lockCount + 1 else 0)) ∧
  (
  (∀ (s : State) (p : Nat) (f : BitVec 8), (s.port p).gen = 0 →
    s.recvStamp p f = 256 * s.beat + f.toNat - 33280 - s.asym p ∧ s.sendStamp p f = 256 * s.beat + f.toNat + 12800 - s.asym p) ∧
  (∀ d far, peerDelay d 1 far = (d + 20 * 256 + 255) / 256) ∧
  (∀ (s : State) (l : Landing) (r : Route) (d : Nat), mapGet none s.routes l.toNat = some r →
    mapGet none s.ptp.delays (8 * r.port + r.iface) = some d →
    s.delayTo l = peerDelay d r.hops (Config.farDelay s.ptp.round l.toNat))) ∧
  (
  ∀ s : State, Operates s → mapWf none s.ptp.sentAt = true →
    let ups := (List.range 32).filter (fun k => s.ifUp (k / 8) (k % 8))
    ∃ (t : State) (stamp : Nat → Int), exec .ptpSyncInterval s = .next t ∧ t.regs = s.regs ∧ t.beat = s.beat ∧
      t.out = s.out ++ ups.flatMap (fun k => [Out.ptp (k / 8) (k % 8) s.ptpDomain .delayReq,
        Out.ptp (k / 8) (k % 8) s.ptpDomain (.sync (stamp k))]) ∧
      ∀ k ∈ ups, mapGet none t.ptp.sentAt k = some (stamp k))

/-- R398, R399, R422: a protected frame is accepted only under the association its AN names, with a right ICV and a packet
number that is new, and its arrival shows that its sender is heard (R413); one that fails freezes the flow and is a violation; a frame
that the interface does not take is counted, what a frozen flow sends changes nothing but the codewords counted, and what arrives on an
interface that is down changes nothing. R424, R425: an acknowledgement removes the frames below CUM and those its bitmap names and lets
waiting frames go; frames not acknowledged for their time are sent again with RETX once a route is there (R405), and the eighth time
the stream resets; what has arrived is acknowledged when its timer ends. What the specification leaves open here is the model's
choice, log entries 49, 50 and 86. -/
def Obligations.AcceptingAndTransport : Prop :=
  (
  ∀ (s : State) (rx : Rx) (ty : Nat) (x : Peer) (a : Assoc), s.peer? rx.src = some x → x.assoc = some a →
    let u := s.countCorrected rx.toArrival
    (s.ifUp rx.port.val rx.iface.val = false → s.accept rx ty = (s, false)) ∧
    (s.ifUp rx.port.val rx.iface.val = true → s.takes rx.toArrival = false →
      s.accept rx ty = (u.countReg (R_LNK_FEC_CW + 0x100 * rx.port.val + 8), false)) ∧
    (s.ifUp rx.port.val rx.iface.val = true → s.takes rx.toArrival = true →
      (x.frozen = true → s.accept rx ty = (u, false)) ∧
      (u.discState ≠ discDuplicate → x.frozen = false → rx.an.val = a.an →
        (rx.icvOk = false ∨ a.win.fresh rx.pn.toNat = false → s.accept rx ty = (u.authFail rx.port.val rx.src, false)) ∧
        (rx.icvOk = true → a.win.fresh rx.pn.toNat = true → s.accept rx ty = (u.updPeer rx.src (fun x => { x with
          lastHeard := s.beat, assoc := x.assoc.map (fun a => { a with win := a.win.take rx.pn.toNat }) }), true)))) ∧
    (a.win.fresh rx.pn.toNat = true → (a.win.take rx.pn.toNat).fresh rx.pn.toNat = false)) ∧
  (
  ∀ s : State, Operates s →
    (∀ (rx : Rx) (cum : Lane) (bitmap : Word) (s1 : State), s.accept rx tySack = (s1, true) →
      exec (.sack rx cum bitmap) s = .next (s.framed (State.sendWaiting (s1.updPeer rx.src (fun p => { p with
        txUnacked := p.txUnacked.filter (fun t => !(t.sent && (!seqGe t.seq cum ||
          decide ((t.seq - cum - 1).toNat < 64) && bitmap.getLsbD (t.seq - cum - 1).toNat))) })) rx.src))) ∧
    (∀ (l : Landing) (p : Peer), s.peer? l = some p →
      (0 < p.rxUnacked → exec (.sackTimer l) s = .next (s.framed (s.sendSack l))) ∧
      (∀ (q : Lane) (f : TxFrame), p.txUnacked.find? (fun t => t.sent && t.seq == q) = some f →
        (s.egress? l = none → exec (.retransmitTimer l q) s = .next s) ∧
        (f.sentAt + (2 * s.delayTo l + 5000) ≤ s.beat → p.canTx = true → (s.egress? l).isSome = true →
        (8 ≤ f.retries → exec (.retransmitTimer l q) s = .next (s.framed (s.resetStream l false))) ∧
        (f.retries < 8 → ∃ t, exec (.retransmitTimer l q) s = .next t ∧
          t = s.framed (State.transmit (s.updPeer l (fun x => { x.countTx with
            txUnacked := x.txUnacked.map (fun u => if u.seq = q then
              { u with frame := { f.frame with flags := f.frame.flags ||| 2 }, sentAt := s.beat, retries := u.retries + 1 } else u) }))
            l { f.frame with flags := f.frame.flags ||| 2 }))))))

/-- R400, R405, R502: a soft or a hard advance starts with the peers it names, each association taking the next counter, with
PENDING until they have confirmed or the bound has passed; one started while another is pending is refused; a packet number
that reaches its threshold starts a soft advance; each association before a soft advance ends after its millisecond. What the
specification leaves open here is the model's choice, log entries 49 and 98. -/
def Obligations.KeyAdvances : Prop :=
  ∀ s : State, Operates s →
    (∀ (v : Lane) (hard : Bool), s.hostReaches R_LNK_SA_ADVANCE = true → v.getLsbD 31 = true → v.getLsbD 30 = hard →
      let i : Instr := if hard then .hardAdvance v else .softAdvance v
      (s.saPending = none → exec i s = .next (s.framed
        (s.startAdvance (s.advanceNames (BitVec.ofNat 16 (bits v.toNat 15 0))) hard false))) ∧
      (∀ a, s.saPending = some a → a.auto = false → exec i s = .next (s.setRegField R_LNK_SA_STATUS 30 30 1))) ∧
    (∀ (l : Landing) (p : Peer), s.peer? l = some p → p.assoc.isSome = true →
      (0xC0000000 ≤ p.pnUsed → s.saPending = none →
        exec (.pnThreshold l) s = .next (s.framed (s.startAdvance [l] false true))) ∧
      (∀ hard, exec (.peerAdvance l hard) s = .next (s.framed (s.advanceAssoc l hard)))) ∧
    (∀ a, s.saPending = some a →
      (∀ l, a.peers.filter (· != l) ≠ [] → a.peers.contains l = true → exec (.advanceConfirmed l) s =
        .next { s with saPending := some { a with peers := a.peers.filter (· != l) } }) ∧
      (∀ l, a.peers.filter (· != l) = [] → a.peers.contains l = true →
        exec (.advanceConfirmed l) s = .next (s.framed (s.endAdvance 0))) ∧
      (a.deadline ≤ s.beat → exec .advanceTimeout s = .next (s.framed (s.endAdvance a.peers.length)))) ∧
    (∀ l, exec (.oldAnExpire l) s = .next (s.updPeer l (fun p => { p with assoc := p.assoc.map (fun a =>
      { a with olds := a.olds.filter (fun o => match o.expires with
        | some t => decide (s.beat < t)
        | none => true) }) })))

/-- R409 to R412, R417: counting off, a device takes the number it is sent and passes on the next; claiming, it repeats its
claim three times, settles when 2 ms pass without a collision and moves on at a collision; a settled device defends its
number; a broadcast of discovery seen within 2 ms is discarded, and another sent on with one hop less first; and discovery starts again
on command while no partition is a member. R413 to R416, R419, R420, R423: a HELLO that is
accepted makes its sender live, takes its records and its time reference, and what follows from a change of liveness; a device
with a landing number and the fabric secret sends its own to its targets; and the keeper publishes the greatest latency of its
virtual device. What the specification leaves open here is the model's choice, log entries 48, 52 and 94. -/
def Obligations.DiscoveryAndHello : Prop :=
  (
  ∀ s : State, Operates s →
    (∀ (arr : Arrival) (n : Landing), s.ifUp arr.port.val arr.iface.val = true → s.takes arr = true →
      let u := (s.countCorrected arr).hearFrom (n - 1)
      (u.landing = 0 → u.discState = discCounting → usable n = true → exec (.countOff arr.toLinkEnd arr.toEnvelope n) s = .next (s.framed
        (((u.settleOn n).noteRoute (n - 1) arr.port.val arr.iface.val 1).sendCount (n.toNat + 1)
          (some (8 * arr.port.val + arr.iface.val))))) ∧
      (u.landing ≠ 0 ∨ u.discState ≠ discCounting ∨ usable n = false → exec (.countOff arr.toLinkEnd arr.toEnvelope n) s = .next u)) ∧
    (∀ (arr : Arrival) (hops : Byte) (n : Landing) (mac : BitVec 48) (u : State),
      s.ifUp arr.port.val arr.iface.val = true → s.takes arr = true →
      let on (u : State) (ty : Nat) (src : Landing) : State := if hops = 0 then u
        else u.flood { discFrame u ty (hops.toNat - 1) broadcast (claimBytes n mac.toNat) with src := src }
          (some (8 * arr.port.val + arr.iface.val))
      ((s.countCorrected arr).seenBefore tyClaim n mac = (u, true) → exec (.claim arr.toLinkEnd arr.toEnvelope hops n mac) s = .next (s.framed u)) ∧
      ((s.countCorrected arr).seenBefore tyClaim n mac = (u, false) →
        let w := on u tyClaim 0
        (w.landing = 0 → w.discState = discClaiming → n = w.discovery.candidate → mac.toNat < w.macBase →
          exec (.claim arr.toLinkEnd arr.toEnvelope hops n mac) s = .next (s.framed w.collide)) ∧
        (w.landing = n → n ≠ 0 → exec (.claim arr.toLinkEnd arr.toEnvelope hops n mac) s =
          .next (s.framed (w.flood (discFrame w tyDefend 16 broadcast (claimBytes n w.macBase)) none)))) ∧
      ((s.countCorrected arr).seenBefore tyDefend n mac = (u, false) →
        let w := on (u.hearFrom n) tyDefend n
        (w.landing = 0 → w.discState = discClaiming → n = w.discovery.candidate →
          exec (.defend arr.toLinkEnd arr.toEnvelope hops n mac) s = .next (s.framed w.collide)) ∧
        (w.landing = n → n ≠ 0 → exec (.defend arr.toLinkEnd arr.toEnvelope hops n mac) s = .next (s.framed (w.duplicateNumber mac))) ∧
        (w.landing ≠ 0 → w.landing ≠ n → exec (.defend arr.toLinkEnd arr.toEnvelope hops n mac) s =
          .next (s.framed (w.noteRoute n arr.port.val arr.iface.val (17 - min hops.toNat 16)))))) ∧
    (s.discState = discClaiming →
      (s.discovery.claims < 3 → s.discovery.lastClaim + 200000 ≤ s.beat → exec .claimTimer s = .next (s.framed s.sendClaim)) ∧
      (3 ≤ s.discovery.claims → s.discovery.lastClaim + 2000000 ≤ s.beat →
        exec .claimTimer s = .next (s.framed (s.settleOn s.discovery.candidate)))) ∧
    (∀ t, s.discovery.trainedAt = some t → s.landing = 0 → s.discState = discCounting → t + 100000000 ≤ s.beat →
      exec .discoveryFallback s = .next (s.framed (s.claimFrom s.firstCandidate))) ∧
    (∀ v : Lane, s.hostReaches R_ROS_CMD = true → v.getLsbD 0 = true → s.ferryDown = false → s.discState ≠ discDuplicate →
      (s.parts.toList.any (fun p => p.slot.isSome) = true → exec (.rediscover v) s = .next s) ∧
      (s.parts.toList.any (fun p => p.slot.isSome) = false → exec (.rediscover v) s = .next (s.framed s.unnumber.startDiscovery)))) ∧
  (
  ∀ s : State, Operates s →
    (∀ (rx : Rx) (mac : BitVec 48) (reference : Landing) (rs : List HelloRecord) (s1 : State),
      s.ifUp rx.port.val rx.iface.val = true → s.takes rx.toArrival = true → rx.src ≠ s.landing → s.discState ≠ discDuplicate →
      (s.meet rx.src mac rx.port.val rx.iface.val).accept rx tyHello = (s1, true) →
      exec (.hello rx mac reference rs) s = .next (s.framed (State.afterLiveness (State.adoptReference
        (rs.foldl (fun s r => s.takeRecord rx.src r) (s1.updPeer rx.src (fun p => { p with
          live := true, mac := mac, reference := reference, port := rx.port.val, iface := rx.iface.val })))) s))) ∧
    (s.landing ≠ 0 → s.key.fabric.isSome = true →
      (∀ l ∈ s.helloTargets, (s.peer? l).isSome = true) →
      exec .helloTimer s = .next (s.framed (s.helloTargets.foldl (fun s l => s.sendUnseq l tyHello s.helloBytes) s.tick))) ∧
    (∀ (slot : SlotId) (v : VDev), s.vdevs.find? (fun v => v.slot == some slot) = some v → s.isKeeper v = true →
      s.ferryDown = false → exec (.keeperLatencyUpdate slot) s = .next (s.framed (State.tick (s.setVdLat v (s.reportedLat v))))))

/-! ## Data frames, composition and handoffs (R278, R279, R426 to R436) -/

/-- R278, R279, R281, R346, R426, R525, R531: a data frame that is accepted and new is performed at its home and answered: a write
stores its lines, an event gains its operand, a flag takes it, a read sends its bytes back, each leaving the bytes performed in its
WACK; a write or an atomic operation with LASTOFF is held while earlier frames of its stream are not performed; a frame that waits for
a reserved region or for room is not taken; data that was asked for goes to its rows, a WACK takes its bytes from those outstanding,
and a notice of another copy ends or restarts this one. What the specification leaves open here is the model's choice, log entries 51, 101 and 111. -/
def Obligations.DataFrames : Prop :=
  ∀ (s : State) (rx : Rx) (e : DataExt) (u s1 : State), Operates s → s.misused = none → s.key.tenant ≠ .removing →
    let place : Place := .dev e.addr.toNat e.edom.toNat
    let part := addrPartNat e.addr.toNat
    let taken (ty n : Nat) (write : Bool) : Prop :=
      s.accept rx ty = (u, true) ∧ u.notTaken rx e n write = false ∧ u.takeSeq rx = (s1, true) ∧ s1.frameTrouble e n write = none
    let answered (v : State) (n : Nat) : State :=
      State.sendWack (v.updPeer rx.src (fun p => p.perform e.mstream part e.ord.toNat)) rx.src e.move.toNat n
    (∀ (data : List Byte) (v : State), dataLenOk data.length = true → taken tyWrite data.length true → rx.lastOff = false →
      s1.placeWrite place data = (v, none) → (answered v data.length).misused = none →
      exec (.frameWrite rx e data) s = .next (s.framed (answered v data.length))) ∧
    (∀ (w : Word) (v : State), taken tyAtomic 8 true → rx.lastOff = false →
      (e.op = 0 → s1.wordAdd place w = (v, none) → (answered v 8).misused = none →
        exec (.atomic rx e w) s = .next (s.framed (answered v 8))) ∧
      (e.op = 1 → s1.placeWrite place (leBytes 8 w.toNat) = (v, none) → (answered v 8).misused = none →
        exec (.atomic rx e w) s = .next (s.framed (answered v 8)))) ∧
    (∀ (data : List Byte) (w : Word) (x : Peer), rx.lastOff = true → s1.peer? rx.src = some x →
      x.performedBelow e.mstream part e.prior.toNat = false → x.refusedBelow e.mstream part e.prior.toNat = false →
      let hold (data : List Byte) (kind : HeldKind) : State := { s1 with
        held := s1.held ++ [⟨s1.nextHeld, some rx.src, ⟨coreIdOf 0 0, 0, 0, 0, 0⟩, e.mstream, e.prior.toNat, place, data, kind,
          e.move.toNat, e.ord.toNat⟩]
        nextHeld := s1.nextHeld + 1 }
      (dataLenOk data.length = true → taken tyWrite data.length true → s1.misused = none →
        exec (.frameWrite rx e data) s = .next (s.framed (hold data .data))) ∧
      (taken tyAtomic 8 true → s1.misused = none →
        (e.op = 0 → exec (.atomic rx e w) s = .next (s.framed (hold (leBytes 8 w.toNat) .eventAdd))) ∧
        (e.op = 1 → exec (.atomic rx e w) s = .next (s.framed (hold (leBytes 8 w.toNat) .flag))))) ∧
    (∀ data : List Byte, dataLenOk data.length = true → s.accept rx tyWrite = (u, true) →
      u.notTaken rx e data.length true = true → u.misused = none → exec (.frameWrite rx e data) s = .next (s.framed u)) ∧
    (∀ (bs : List Byte) (v : State), 64 ≤ e.len.toNat → e.len.toNat ≤ 65536 → e.len.toNat % 64 = 0 →
      taken tyRead e.len.toNat false → s1.placeRead place e.len.toNat = (v, .inl bs) →
      (State.sendRdata (v.performed rx.src e) rx.src e bs).misused = none →
      exec (.frameRead rx e) s = .next (s.framed (State.sendRdata (v.performed rx.src e) rx.src e bs))) ∧
    (∀ (data : List Byte) (m : Movement) (r : Landing × Nat × Nat × Place) (v : State), dataLenOk data.length = true →
      s.accept rx tyRdata = (u, true) → u.rdataWaits rx e data.length = false → u.takeSeq rx = (s1, true) →
      s1.move? e.move.toNat = some m →
      m.readsOut.find? (fun r => r.1 == rx.src && decide (r.2.1 ≤ e.addr.toNat) &&
        decide (e.addr.toNat + data.length ≤ r.2.1 + r.2.2.1)) = some r →
      let q := r.2.2.2.plus (e.addr.toNat - r.2.1)
      let w := State.repairFrom ((s1.updMove m.id (fun m => { m with
        readsOut := m.readsOut.erase r ++ readRest r e.addr.toNat data.length })).updCore
        m.core (fun x => x.bufferPut rx.src e.addr.toNat data)) m rx.src e.addr.toNat data
      w.trouble q data.length true = none → w.deliver m q data (m.priorOf q) = (v, none) → (v.settleUpdate m.id).misused = none →
      exec (.rdata rx e data) s = .next (s.framed (v.settleUpdate m.id))) ∧
    (∀ (move bytes : Lane) (m : Movement), s.acceptSeq rx tyWack = (s1, true) → s1.move? move.toNat = some m → bytes ≠ 0 →
      let v := State.drainAll (State.settleUpdate (s1.updMove m.id (fun m => { m with
        writesOut := mapPut 0 m.writesOut rx.src.toNat (mapGet 0 m.writesOut rx.src.toNat - bytes.toNat) })) m.id)
      v.misused = none → exec (.wack rx move bytes) s = .next (s.framed v)) ∧
    (∀ (tag : Word) (vdev : BitVec 24) (st : Byte) (m : Manifest), s.acceptSeq rx tyPartner = (s1, true) →
      s1.manifests.find? (fun m => m.vdev == vdev && m.tag == tag && !m.phase.over) = some m →
      (st.toNat = stFault → m.ignoreFault = false →
        exec (.partner rx tag vdev st) s = .next (s.framed (s1.partnerFault m.id))) ∧
      (st.toNat = stStop ∨ st.toNat = stLimit ∨ st.toNat = stDeadline →
        exec (.partner rx tag vdev st) s = .next (s.framed (s1.partnerEnd m st.toNat))))

/-- R34, R39 to R42, R427: a change under way commits at the keeper once every vote is in, and aborts where a vote was negative; the
request next in order is taken up at the keeper, and answered ABORTED elsewhere; while class 3 is deferred neither happens; a proposal
waits for the boundaries of its ranks or is voted down; a negative vote aborts, or refuses the JOIN it answers, and another is counted;
a newer commit is applied, an abort drops the proposal, a reply reaches the requester, and SYNC is answered with the epoch held. What
the specification leaves open here is the model's choice, log entries 54, 55 and 93. -/
def Obligations.Composition : Prop :=
  ∀ s : State, Operates s → s.ferryDown = false →
    (∀ (i : Instr) (op : Nat) (vdev : BitVec 24),
      ((i = .join vdev ∧ op = opJoin) ∨ (i = .activate vdev ∧ op = opActivate) ∨ (i = .rehost vdev ∧ op = opRehost) ∨
        (i = .leave vdev ∧ op = opLeave) ∨ (i = .dissolve vdev ∧ op = opDissolve)) →
      let under := s.comps.find? (fun c => c.record.vdev == vdev && c.takenUp && c.record.op == BitVec.ofNat 8 op)
      (s.deferred3 = true → exec i s = .next s) ∧
      (s.deferred3 = false →
        (∀ c, under = some c →
          (c.failed = true → exec i s = .next (s.framed (s.abortChange c))) ∧
          (c.failed = false → c.consulting = false → c.votesOut = [] → exec i s = .next (s.framed (s.commitChange c))) ∧
          (c.failed = false → (c.consulting = true ∨ c.votesOut ≠ []) → exec i s = .next s)) ∧
        (∀ c, under = none → s.nextRequest vdev = some c → c.record.op = BitVec.ofNat 8 op →
          exec i s = .next (s.framed (State.takeUp (s.comps.length + 1) s vdev))) ∧
        (under = none → s.nextRequest vdev = none → exec i s = .next s))) ∧
    (∀ (rx : Rx) (r : CompRecord) (s1 : State),
      (s.acceptSeq rx tyRequest = (s1, true) → ∀ v, s1.vdev? r.vdev = some v →
        exec (.request rx r) s = .next (s.framed (if s1.isKeeper v then { s1 with
          comps := s1.comps ++ [⟨r, rx.src, s1.beat, false, [], false, false⟩] } else s1.replyTo rx.src r coAborted))) ∧
      (s.acceptSeq rx tyPropose = (s1, true) → ∀ v, s1.vdev? r.vdev = some v → epochNewer v.epoch r.epoch = false →
        (∀ reason, s1.compRefusal (some v) r = some reason →
          exec (.propose rx r) s = .next (s.framed (s1.castVote rx.src r reason))) ∧
        (s1.compRefusal (some v) r = none → exec (.propose rx r) s = .next (s.framed (State.castVotes { s1 with
          proposals := s1.proposals.filter (fun q => q.record.vdev != r.vdev) ++ [⟨r, rx.src, false⟩] })))) ∧
      (s.acceptSeq rx tyPropose = (s1, true) → s1.vdev? r.vdev = none → r.landing = s1.landing →
        (∀ reason, s1.joinRefusal true r = some reason →
          exec (.propose rx r) s = .next (s.framed (s1.castVote rx.src r reason)))) ∧
      (s.acceptSeq rx tyVote = (s1, true) → ∀ c, s1.comps.find? (fun c => c.takenUp && c.record.vdev == r.vdev &&
          c.record.epoch == r.epoch && (c.votesOut.contains rx.src || r.result != 0)) = some c →
        (r.result ≠ 0 → c.consulting = false → exec (.vote rx r) s = .next (s.framed (s1.abortChange c))) ∧
        (r.result ≠ 0 → c.consulting = true → exec (.vote rx r) s = .next (s.framed (s1.refuseChange c r.result.toNat))) ∧
        (r.result = 0 → c.consulting = true → exec (.vote rx r) s = .next (s.framed (s1.proposeTo c
          ((changeDevices (s1.vdev? r.vdev) c.record).filter (· != rx.src))))) ∧
        (r.result = 0 → c.consulting = false → exec (.vote rx r) s = .next (s.framed { s1 with comps := s1.comps.map (fun x =>
          if x = c then { x with votesOut := x.votesOut.filter (· != rx.src) } else x) }))) ∧
      (s.acceptSeq rx tyCommit = (s1, true) → ∀ roster v, s1.vdev? r.vdev = some v → epochNewer r.epoch v.epoch = true →
        let u := s1.applyCommit r roster
        exec (.compCommit rx r roster) s = .next (s.framed (State.dropForeign (State.afterLiveness { u with
          vdevs := u.vdevs.map (fun v => if v.number = r.vdev then { v with vdLat := r.vdLat.toNat } else v) } s1)))) ∧
      (s.acceptSeq rx tyAbort = (s1, true) →
        exec (.compAbort rx r) s = .next (s.framed { s1 with proposals := s1.proposals.filter (fun q => q.record.vdev != r.vdev) })) ∧
      (s.acceptSeq rx tyReply = (s1, true) →
        exec (.reply rx r) s = .next (s.framed (s1.finishCompose r.tag r.result.toNat r.epoch))) ∧
      (s.acceptSeq rx tySync = (s1, true) → ∀ v vdev epoch rec, s1.vdev? vdev = some v → v.lastCommit = none →
        v.syncOut.contains rx.src = false →
        exec (.rosterSync rx vdev epoch rec) s = .next (s.framed (s1.sendSeq rx.src tySync 0 (syncBytes vdev v.epoch none) none))))

/-- R24, R425, R432, R436: a peer not heard for its time is dead: it leaves an entry, its stream resets, its ranks are
stranded and what concerned it is decided. R435: a lost sequence is cleared by its entry, or with the slot's others. What the
specification leaves open here is the model's choice, log entry 57. -/
def Obligations.DeadPeersAndLostSequences : Prop :=
  (∀ (s : State) (l : Landing) (p : Peer), Operates s → s.peer? l = some p → p.live = true →
    let a := s.linkFault 2 l
    let b := (a.updPeer l (fun p => { p with live := false, myLats := [], epochs := [] })).resetStream l true
    let c := b.updPeer l (fun p => { p with assoc := p.assoc.map (fun _ => Assoc.fresh) })
    let d := (c.strandPeer l).poolFail (fun w => storageLanding w == l.toNat)
    let e := (d.adoptReference.afterLiveness s).keeperDrop l
    (s.beat < p.lastHeard + s.deadBeats + s.delayTo l → exec (.peerDead l) s = .next s) ∧
    (p.lastHeard + s.deadBeats + s.delayTo l ≤ s.beat → exec (.peerDead l) s = .next (s.framed
      (e.vdevs.foldl (fun s v => if s.isKeeper v && v.syncOut.isEmpty then s.finishSync v.number else s) e)))) ∧
  (∀ (s : State) (v : Lane) (i : Fin 64) (slot : SlotId) (seq : BitVec 20), Operates s →
    s.hostReaches R_ROS_LOST_CLEAR = true → v.getLsbD 7 = false → bits v.toNat 5 0 = i.val → s.lost[i] = some (slot, seq) →
    ∃ t, exec (.rosLostClear v) s = .next t ∧ t.lost[i] = none ∧ t.resident = (s.freeSeq slot.val seq.toNat).resident ∧
      t.lostAll = (s.freeSeq slot.val seq.toNat).lostAll)

/-- R430, R431: the frames of a handoff move its two parties: OFFER is taken where every destination is fit, its copies are
written and TAKE is sent, TAKE is acknowledged, ACK ends the taker's part and DONE the holder's, REFUSE returns the entries,
and a timer that ends turns a party to dispute. R432, R436: a report of a party reaches the keeper, which asks the other and
decides when both have answered, when one is dead or after 1 ms: NEW where a party has the acknowledged TAKE, else OLD; a
decision is applied by the party it reaches, and repeated to those that have not until it has been kept 10 ms. What the
specification leaves open here is the model's choice, log entries 56 and 57. -/
def Obligations.HandoffsAndDisputes : Prop :=
  (
  ∀ (s : State) (rx : Rx) (rec : HandoffRecord) (s1 : State), Operates s →
    s1.hoOutcome? rec.hid rec.holder = none → s.ferryDown = false →
    (s.acceptSeq rx tyOffer = (s1, true) → s1.epochOld rec = false →
      (rec.pairs.all (fun p => s1.destOk p.2) = true → exec (.hoOffer rx rec) s =
        .next (s.framed { s1 with handoffsTaken := s1.handoffsTaken ++ [⟨rec, .copying, 0, false, false, 0, 0⟩] })) ∧
      (rec.pairs.all (fun p => s1.destOk p.2) = false → exec (.hoOffer rx rec) s =
        .next (s.framed (State.keepOutcome (s1.sendHo rx.src tyRefuse rec 0) rec 1)))) ∧
    (∀ (h : Handoff) (u : State), rec.holder ≠ s.landing → s.takenBy? rec.hid rec.holder = some h → h.state = .copying →
      h.record.pairs.all (fun p => s.destOk p.2) = true → s.copyPairs h.record = (u, none) →
      exec (.handoffCopyDone rec.hid rec.holder) s = .next (s.framed (State.updTaken (u.sendHo rec.holder tyTake h.record 0)
        rec.hid rec.holder (fun h => { h with state := .taking, timer := s.beat + hoTimerBeats, copied := true })))) ∧
    (∀ h : Handoff, s.acceptSeq rx tyTake = (s1, true) → s1.heldBy? rec.hid = some h → s1.epochOld rec = false →
      h.state = .offered → h.record.taker = rx.src → exec (.hoTake rx rec) s =
        .next (s.framed (State.updHeld (s1.sendHo rx.src tyAck h.record 0) rec.hid (fun h =>
          { h with state := .handed, acked := true, timer := s1.beat + hoTimerBeats })))) ∧
    (∀ h : Handoff, s.acceptSeq rx tyAck = (s1, true) → s1.takenBy? rec.hid rec.holder = some h → h.state = .taking →
      h.record.holder = rx.src → exec (.hoAck rx rec) s =
        .next (s.framed (State.keepOutcome ((s1.sendHo rx.src tyDone h.record 0).dropTaken h) h.record 0))) ∧
    (∀ h : Handoff, s.acceptSeq rx tyDone = (s1, true) → s1.heldBy? rec.hid = some h → h.state = .handed →
      h.record.taker = rx.src → exec (.hoDone rx rec) s =
        .next (s.framed (State.finishTakes (s1.updHeld rec.hid (fun h => { h with copied := true }))))) ∧
    (∀ h : Handoff, s.acceptSeq rx tyRefuse = (s1, true) → s1.heldBy? rec.hid = some h → h.state = .offered →
      h.record.taker = rx.src → exec (.hoRefuse rx rec) s = .next (s.framed (s1.endHandoffOld h hoRefused))) ∧
    (∀ h : Handoff, s.heldBy? rec.hid = some h → rec.holder = s.landing → h.copied = false →
      (h.state = .offered ∨ h.state = .handed → h.timer ≤ s.beat → exec (.handoffTimer rec.hid rec.holder true) s =
        .next (s.framed (State.sendReport (State.countReg (s.updHeld rec.hid (fun h => { h with state := .disputed }))
          R_ROS_HO_DISPUTED) h.record))) ∧
      (h.state = .disputed → exec (.reportRepeat rec.hid rec.holder true) s = .next (s.framed (s.sendReport h.record))))) ∧
  (
  ∀ (s : State) (rx : Rx) (rec : HandoffRecord) (s1 : State), Operates s →
    (s.acceptSeq rx tyReport = (s1, true) → s1.hoKeeper rec = some s1.landing → rx.src = rec.holder ∨ rx.src = rec.taker →
      s1.hoOutcome? rec.hid rec.holder = none →
      exec (.hoReport rx rec) s = .next (s.framed (s1.keeperReport rec rx.src rec.info.toNat))) ∧
    (s.acceptSeq rx tyDecide = (s1, true) → s1.dispute? rec.hid rec.holder = none → rec.taker = s1.landing →
      rec.holder ≠ s1.landing → exec (.hoDecide rx rec) s =
        .next (s.framed (State.sendHo (s1.applyDecision rec (rec.info.toNat % 2)) rx.src tyReport rec 0))) ∧
    (∀ d : HoDispute, s.dispute? rec.hid rec.holder = some d →
      (d.decided = none → d.since + 1000000 ≤ s.beat →
        exec (.keeperQueryTimeout rec.hid rec.holder) s = .next (s.framed (s.decideDispute d))) ∧
      (∀ new, d.decided = some new →
        let done := ([d.record.holder, d.record.taker].filter s.isLive).all d.applied.contains && decide (d.since + 10000000 ≤ s.beat)
        (done = true → exec (.decideRepeat rec.hid rec.holder) s =
          .next { s with hoDisputes := s.hoDisputes.filter (fun x => x != d) }) ∧
        (done = false → exec (.decideRepeat rec.hid rec.holder) s = .next (s.framed (s.sendDecide d new))))) ∧
    (∀ d : HoDispute, s.decideDispute d = State.sendDecide (s.updDispute d.record (fun _ =>
      { d with decided := some d.acked, since := s.beat })) { d with decided := some d.acked, since := s.beat } d.acked))

/-! ## The host link, instances and power (R438 to R487) -/

/-- R438 to R442, R446: the link trains on the largest power of two of the modules that work; publications held meanwhile are
performed in order; while it is down they are held, an entry is written and the jobs whose movements it carried restart; a
deferred vector is raised at the end of its interval. What the specification leaves open here is the model's choice, log
entries 58 and 61. -/
def Obligations.HostLink : Prop :=
  ∀ s : State, Operates s →
    (∀ (fast : Bool) (modules : BitVec 4), s.hostUp = false → s.linkMayTrain = true → trainModules modules.toNat ≠ [] →
      let u := s.linkUp fast (trainModules modules.toNat)
      (u.misused = none → exec (.hostLinkUp fast modules) s = .next (s.framed u)) ∧
      (s.hostHeld = [] → s.linkBw = 0 → u.misused = s.misused ∧ u.hostUp = true ∧
        u.linkBw = (trainModules modules.toNat).length * (if fast && !s.regBit R_HST_LINK_CTRL 1 then 256 else 128) ∧
        u.reg R_HST_HOST_RATE = BitVec.ofNat 64 (625 * u.linkBw / 1024))) ∧
    (s.hostUp = false → exec .hostLinkDown s = .next s) ∧
    (s.hostUp = true → exec .hostLinkDown s = .next (s.framed s.hostDown) ∧
      (s.moves.all (fun m => m.endpoints.all (fun e => match e with
        | .host _ => false
        | _ => true)) = true → s.hostDown.hostUp = false ∧ s.hostDown.hostDownAt = s.beat ∧ s.hostDown.moves = s.moves)) ∧
    (s.hostUp = false → s.linkBw ≠ 0 → s.hostDownAt + 100000000 ≤ s.beat →
      exec .hostLinkTimeout s = .next (s.framed (State.squashAll { s with hostHeld := s.hostHeld.filter (fun w => !w.publishes) } false))) ∧
    (∀ v : Lane, s.hostReaches R_HST_LINK_CTRL = true →
      let u := s.setRegField R_HST_LINK_CTRL 1 1 (bits v.toNat 1 1)
      (v.getLsbD 0 = true → exec (.retrain v) s = .next (s.framed u.hostDown)) ∧
      (v.getLsbD 0 = false → exec (.retrain v) s = .next u)) ∧
    (∀ v : Fin 64, s.irqDeferred.contains v.val = true → s.hostUp = true →
      (∀ t, mapGet none s.irqLast v.val = some t → t + 1000 * s.regField R_HST_IRQ_MOD 15 0 ≤ s.beat) →
      exec (.irqModerationExpire v) s = .next { s with
        irqDeferred := s.irqDeferred.filter (fun x => x != v.val), irqLast := mapPut none s.irqLast v.val (some s.beat)
        out := s.out ++ s.vectorOuts v.val })

/-- R448 to R458: SHARING changes only while every berth is Empty and no instance command runs, and a new mode resets the
instances; a command of a valid instance starts, is refused while another runs and reports an absent one; a squash turns a
drain of the same instance into a squash; and a command ends when its work, its writes, its berths and its fences are gone.
What the specification leaves open here is the model's choice, log entry 59. -/
def Obligations.Instances : Prop :=
  ∀ s : State, Operates s →
    (∀ v : Lane, s.hostReaches R_DEV_MODE = true → v.getLsbD 31 = false → bits v.toNat 1 0 ≠ s.sharing →
      (bits v.toNat 1 0 = 3 ∨ s.modeIdle = false → exec (.devModeWrite v) s = .next (s.setRegField R_DEV_MODE 31 31 1)) ∧
      (bits v.toNat 1 0 ≠ 3 → s.modeIdle = true → exec (.devModeWrite v) s =
        .next (s.framed (State.resetInstances (s.setRegField R_DEV_MODE 1 0 (bits v.toNat 1 0)) (bits v.toNat 1 0))))) ∧
    (∀ (i : Fin 64) (v : Word), s.hostReaches (instReg i.val) = true →
      exec (.instanceWrite i v) s = .next (s.framed (s.writeInst i.val v))) ∧
    (∀ (i : Fin 64) (c : Instr) (squash remove : Bool), s.hostReaches R_HST_INST_CMD = true →
      ((c = .resetDrain i ∧ squash = false ∧ remove = false) ∨ (c = .resetSquash i ∧ squash = true ∧ remove = false) ∨
        (c = .removeDrain i ∧ squash = false ∧ remove = true) ∨ (c = .removeSquash i ∧ squash = true ∧ remove = true)) →
      (s.instCmds = [] → s.instValid i.val = true → exec c s = .next (s.framed (s.beginInst i.val squash remove))) ∧
      (s.instCmds = [] → s.instValid i.val = false → exec c s =
        .next ((s.setRegField R_HST_INST_STATUS 5 0 i.val).setRegField R_HST_INST_STATUS 7 6 2)) ∧
      (∀ x rest, s.instCmds = x :: rest → x.inst = i.val → squash = true → x.squash = false →
        exec c s = .next (s.framed (s.convertInst x remove))) ∧
      (∀ x, s.instCmds = [x] → x.inst ≠ i.val → exec c s = .next (s.setRegField R_HST_INST_STATUS 30 30 1))) ∧
    (s.hostUp = true →
      exec .cxlReset s = .next (s.framed (s.squashAll false)) ∧
      (s.sharing = modeMediated →
        (∀ i : Fin 64, s.instValid i.val = true → exec (.functionLevelReset i) s = .next (s.framed (s.instCommand i.val true false))) ∧
        (s.vfCount ≠ 0 → exec .vfEnableClear s = .next (s.framed (State.squashAll { s with vfCount := 0 } true))) ∧
        (∀ n, s.vfCount = 0 → n ≤ 64 → s.instCmds = [] → exec (.vfEnableSet n) s = .next (s.framed ((List.range n).foldl (fun s i =>
          (s.setRegField (instReg i) 63 63 1).setInstState i instRunning) { s with vfCount := n }))))) ∧
    (∀ (i : Fin 64) (c : InstCmd), s.instCmds.find? (fun c => c.inst == i.val) = some c →
      (s.cmdReady c = true → exec (.instanceCommandDone i) s = .next (s.framed (s.endInst c))) ∧
      (s.cmdReady c = false → exec (.instanceCommandDone i) s = .next s))

/-- R461 to R468: announced grants take effect at their beats and a decrease needs its notice, a silent rack lowers the grant
to the floor, reports and slack go to their devices, a watt is lent or taken within the limits, and loans end on either side
at their beats. What the specification leaves open here is the model's choice, log entries 62 and 63. -/
def Obligations.GrantsAndLoans : Prop :=
  ∀ (s : State) (rx : Rx) (s1 : State), Operates s →
    exec .grantEffective s = .next (s.framed s.applyGrants) ∧
    (s.acceptSeq rx tyGrant = (s1, true) → rackLanding s1 ≠ 0 → rx.src = rackLanding s1 →
      ∀ (w f : BitVec 16) (e : Word), f.toNat ≤ w.toNat → w.toNat ≤ 1000 →
        let at_ := if w.toNat < grantW s1 then max e.toNat (s1.beat + 250000) else e.toNat
        let u : State := { s1 with power := { s1.power with
          lastGrant := s1.beat
          pendingG := s1.power.pendingG ++ [(at_, w.toNat)], pendingF := s1.power.pendingF ++ [(e.toNat, f.toNat)] } }
        exec (.rackGrant rx w f e) s = .next (s.framed (State.applyGrants (u.setRegField R_PWR_STATUS 29 29 0)))) ∧
    (s.power.lastGrant + 1000 * s.regField R_PWR_RACK 15 0 ≤ s.beat →
      exec .rackTimeout s = .next (s.framed ((s.setGrant (floorW s) (floorW s)).setRegField R_PWR_STATUS 29 29 1))) ∧
    (rackLanding s ≠ 0 → exec .rackReportTimer s = .next (s.framed (s.sendSeq (rackLanding s) tyGrant 0
      (grantBytes subReport (budgetW s) (heldFloorW s) 0 s.beat 0 s.windowPower (s.reg R_PWR_ENERGY_DEVICE)) none))) ∧
    (∀ (slot : SlotId) (v : VDev) (x : BitVec 32), s.shiftEn = true → s.vdevs = [v] → v.slot = some slot →
      v.members.any (fun m => !m.store && (match m.host with
        | some h => h.1 == s.landing
        | none => false)) = true →
      (s.keeper v = some s.landing → exec (.slackInterval [(slot, x)]) s =
        .next (s.framed ((s.noteSlack v.number s.landing x.toNat).orderLoans v))) ∧
      (∀ k, s.keeper v = some k → k ≠ s.landing → exec (.slackInterval [(slot, x)]) s =
        .next (s.framed (s.sendSeq k tyGrant 0 (grantBytes subSlack 0 0 0 s.beat v.number.toNat x.toNat 0) none)))) ∧
    (s.acceptSeq rx tyGrant = (s1, true) → ∀ (vdev : BitVec 24) (value : Lane) (l : Landing) (e : Word),
      (∀ v, s1.vdev? vdev = some v → s1.isKeeper v = true →
        exec (.slack rx vdev value) s = .next (s.framed (s1.noteSlack vdev rx.src value.toNat))) ∧
      exec (.loanOrder rx vdev l) s = .next (s.framed (s1.lend vdev l)) ∧
      (s1.shiftEn = true → (s1.vdev? vdev).isSome = true → s1.beat < e.toNat →
        borrowedW s1 + 1 ≤ s1.regField R_PWR_SHIFT 15 0 → grantW s1 + borrowedW s1 + 1 - lentW s1 ≤ 1000 →
        exec (.loan rx vdev e) s = .next (s.framed (State.showBudget { s1 with
          power := { s1.power with borrowed := s1.power.borrowed ++ [e.toNat] } })))) ∧
    exec .loanExpire s = .next (s.framed (State.showBudget { s with power := { s.power with
      borrowed := s.power.borrowed.filter (fun t => decide (s.beat < t)) } })) ∧
    exec .lentExpire s = .next (s.framed (State.showBudget { s with power := { s.power with
      lent := s.power.lent.filter (fun p => decide (s.beat < p.1)) } }))

/-- R469 to R473, R478 to R481, R485, R486, R564: every rail choice sets the goal of its die and the rail moves to it one step
at a time; a commit of sound shadows puts them in force together and another is refused; a droop stretches its cluster until
its hold ends; above 105 °C a die's pace is capped and above 110 °C it takes no kernel, until it is below 100 °C; THERMTRIP
asserts the pin. What the specification leaves open here is the model's choice, log entry 64. -/
def Obligations.RailsDroopsAndHeat : Prop :=
  ∀ (s : State) (die : Fin 2) (p : PartId), Operates s →
    (∀ fit : Fin 25, ∃ t, exec (.railChoice die fit) s = .next t ∧
      t.power.railTarget = mapPut 0 s.power.railTarget die.val (railGoal s die fit.val) ∧
      t.power.settling = mapPut false s.power.settling die.val (railGoal s die fit.val != railStep s die)) ∧
    (mapGet false s.power.settling die.val = true →
      let goal := mapGet 0 s.power.railTarget die.val
      let now := railStep s die
      goal ≠ now →
      let next := if now < goal then now + 1 else now - 1
      exec (.railStepSettled die) s = .next { s.setRegField (dieReg die) 20 16 next with
        power := { s.power with settling := mapPut false s.power.settling die.val (next != goal) } }) ∧
    (∀ v : Lane, s.hostReaches R_PWR_COMMIT = true → v.getLsbD 0 = true →
      (pwrCommitOk s = false → exec (.pwrCommit v) s = .next (s.setRegField R_PWR_STATUS 27 27 1)) ∧
      (pwrCommitOk s = true →
        let t := pwrShadowed.foldl (fun (t : State) r => r.2.foldl (fun t b =>
          t.setRegField r.1 b.1 b.2 (shadField s r.1 b.1 b.2)) t) s.refillAll
        let raised := allParts.any (fun p => decide (10 * t.regField (R_PWR_PART + 16 * p.val) 15 0 < slowPace (floorStep t p)))
        exec (.pwrCommit v) s =
          .next (s.framed (State.clipBuckets (if raised then t.setRegField R_PWR_STATUS 26 26 1 else t))))) ∧
    exec (.droop p) s = .next (State.countReg (s.updPart p (fun x => { x with
      stretched := true, droopUntil := some (s.beat + 16 * s.regField R_PWR_DROOP 23 16) })) (R_PWR_DROOP_CNT + 4 * (p.val / 8))) ∧
    (∀ t, (s.part p).droopUntil = some t → t ≤ s.beat →
      exec (.droopHoldExpire p) s = .next (s.updPart p (fun x => { x with stretched := false, droopUntil := none }))) ∧
    (∀ c : BitVec 8, 105 < c.toNat → mapGet false s.power.thermalDie die.val = false → ∃ t, exec (.thermalOver die c) s = .next t ∧
      (∀ q : PartId, q.val / 8 = die.val → (t.part q).thermalCap = 1400) ∧
      t.alerts = s.alerts ||| 1 ∧
      t.power.hotDie = if 110 < c.toNat then mapPut false s.power.hotDie die.val true else s.power.hotDie) ∧
    (∀ c : BitVec 8, c.toNat < 100 → ∃ t, exec (.thermalRecover die c) s = .next t ∧
      (∀ q : PartId, q.val / 8 = die.val → (t.part q).thermalCap = 0) ∧
      t.power.thermalDie = mapPut false s.power.thermalDie die.val false ∧
      t.power.hotDie = mapPut false s.power.hotDie die.val false) ∧
    (s.power.thermTrip = false → exec .thermtrip s = .next { s with
      power := { s.power with thermTrip := true }, alerts := s.alerts ||| 2, out := s.out ++ [.thermTrip] })

/-! ## Keys (R488 to R515) and the mailbox (R542 to R555) -/

/-- R498 to R506, R515: a command of the key store, given while none is in progress and the Ferryman serves, installs the
tenant secret, writes a report or certificates, opens, decrypts and closes bundles, erases a domain, seals and unseals, and
shows its result; one for a tenant that is not installed answers STATE. R497, R510 to R513: debug is enabled where no tenant
is present and refused otherwise; a thaw ends the freeze of a queue, a mover, a core with its mover, or a flow whose stream
then resets; and the wait of a removal ends with every bench, register and cluster store cleared, the generations advanced and
the tenant gone. What the specification leaves open here is the model's choice, log entries 24, 66, 67 and 68. -/
def Obligations.KeysDebugAndRemoval : Prop :=
  (
  ∀ (s : State) (v : Lane), Operates s → s.hostReaches R_KEY_CMD = true → v.getLsbD 31 = true → s.ferryDown = false →
    let u := (s.setRegField R_KEY_CMD 27 24 (bits v.toNat 27 24)).setRegField R_KEY_CMD 15 0 (bits v.toNat 15 0)
    let op := bits v.toNat 27 24
    let c := u.closeMeas
    u.keyBusy = false → s.key.rootFailed = false →
    (op = 0 → s.key.tenant = .none → c.tenantRecOk (keyArg c 0) = true →
      exec (.install v none true true) s = .next (s.framed (State.keyAnswer (State.setTenant { c with
        key := { c.key with fabric := some (c.fabricSecret (keyArg c 0)) } } .installed (c.hostNat (keyArg c 0 + 8) 4)) keyOkResult 0)) ∧
      exec (.install v none false true) s = .next (s.framed (c.keyAnswer keyTag 0))) ∧
    (op = 1 → exec (.removeTenant v none) s = .next (s.framed u.beginRemoval)) ∧
    (op = 2 → let body := c.reportBody (c.hostRead (keyArg c 0) 32)
      let n := c.nextRandom
      exec (.attest v none) s = .next (s.framed ((n.1.publish (keyArg c 1)
        (body ++ fitBytes 1280 (Config.falconSign c.attestNode n.2 (hash 64 body))) []).keyAnswer keyOkResult 0))) ∧
    (op = 3 → exec (.certs v none) s = .next (s.framed ((c.tick.publish (keyArg c 1)
      ((List.range (bits (keyArg c 2) 31 0)).map (fun i => Config.outputByte c.free i)) []).keyAnswer keyOkResult 0))) ∧
    (op = 4 → s.key.tenant = .installed → ∀ r h, u.bundleHeadOk (keyArg u 0) = true →
      keyParam u % 256 < 200 ∨ keyParam u % 256 = 255 → u.deviceRec (keyArg u 0) = some r →
      u.hostZero (r + 0x678) 8 = true → u.openHandle = some h →
      ∃ t b, exec (.openBundle v none true true) s = .next t ∧
        t.key.bundles = s.key.bundles.filter (fun x => x.handle != h) ++ [b] ∧ b.handle = h ∧ b.key = u.bundleKey (keyArg u 0) r) ∧
    (op = 5 → s.key.tenant = .installed → ∀ b, u.bundle? (keyParam u % 256) = some b →
      let first := bits (keyArg u 2) 63 32
      let count := bits (keyArg u 2) 31 0
      first + count ≤ b.chunks → count ≠ 0 →
      u.bundleDest (keyArg u 1) (((List.range count).map (fun i => b.chunkBytes (first + i))).foldl (· + ·) 0) = true →
      ∀ bad, let r := State.openChunks b (bits (keyParam u) 15 8) bad count u first (keyArg u 0) (keyArg u 1)
        exec (.decrypt v none bad) s = .next (s.framed (r.1.keyAnswer r.2 0))) ∧
    (op = 6 → s.key.tenant = .installed → exec (.closeBundle v none) s = .next (s.framed (State.keyAnswer { u with
      key := { u.key with bundles := u.key.bundles.filter (fun b => b.handle != keyParam u % 256) } } keyOkResult 0))) ∧
    (op = 7 → s.key.tenant = .installed → keyParam u % 256 ≠ 0 → exec (.eraseDomain v none) s = .next (s.framed (State.keyAnswer
      { u with key := { u.key with domGen := mapPut 0 u.key.domGen (keyParam u % 256) (mapGet 0 u.key.domGen (keyParam u % 256) + 1) } }
      keyOkResult 0))) ∧
    (op = 8 → let n := bits (keyArg c 2) 12 0
      1 ≤ n → n ≤ 4096 →
      let r := c.nextRandom
      let head := leBytes 4 r.1.key.sealGen ++ leBytes 4 n
      exec (.seal v none) s = .next (s.framed ((r.1.publish (keyArg r.1 1) (head ++ r.2.take 12 ++
        fitBytes (n + 16) (Config.gcmSeal r.1.blobKey (r.2.take 12) head (r.1.hostRead (keyArg r.1 0) n))) []).keyAnswer keyOkResult 0))) ∧
    (op = 9 → let a := keyArg c 0
      let n := c.hostNat (a + 4) 4
      37 ≤ bits (keyArg c 2) 12 0 → n + 36 = bits (keyArg c 2) 12 0 → n ≤ 4096 → c.hostNat a 4 = c.key.sealGen →
      exec (.unseal v none true) s = .next (s.framed ((c.publish (keyArg c 1) (fitBytes n (Config.gcmOpen c.blobKey
        (c.hostRead (a + 8) 12) (c.hostRead a 8) (c.hostRead (a + 20) (n + 16)))) []).keyAnswer keyOkResult 0))) ∧
    (op = 6 → s.key.tenant ≠ .installed → exec (.closeBundle v none) s = .next (s.framed (u.keyAnswer keyState 0)))) ∧
  (
  ∀ (s : State) (v : Lane), Operates s → v.getLsbD 31 = true →
    (s.hostReaches R_KEY_DEBUG = true → v.getLsbD 29 = false → s.keyBusy = false →
      (s.key.tenant = .none → exec (.keyDebugEnable v) s = .next (s.framed s.enableDebug)) ∧
      (s.key.tenant ≠ .none → exec (.keyDebugEnable v) s = .next (s.setRegField R_KEY_DEBUG 29 29 1))) ∧
    (s.hostReaches R_KEY_THAW = true →
      let n := bits v.toNat 3 0
      let frozen := R_KEY_FROZEN + 4 * bits v.toNat 11 8
      (∀ b : BerthId, bits v.toNat 30 28 = 0 → bits v.toNat 13 8 = b.val → exec (.keyThaw v) s =
        .next (s.updBerth b (fun x => { x with frozen := x.frozen &&& ~~~ ((1 : BitVec 16) <<< n) }))) ∧
      (bits v.toNat 30 28 = 1 → n < 12 → exec (.keyThaw v) s = .next (s.setRegField frozen (16 + n) (16 + n) 0)) ∧
      (bits v.toNat 30 28 = 2 → n < 12 → exec (.keyThaw v) s =
        .next (s.framed (State.startAll ((s.setRegField frozen (16 + n) (16 + n) 0).setRegField frozen n n 0) allCores))) ∧
      (∀ p, bits v.toNat 30 28 = 3 → s.peer? (BitVec.ofNat 16 (bits v.toNat 15 0)) = some p → p.frozen = true →
        exec (.keyThaw v) s = .next (s.framed (State.resetStream (s.updPeer (BitVec.ofNat 16 (bits v.toNat 15 0))
          (fun p => { p with frozen := false })) (BitVec.ofNat 16 (bits v.toNat 15 0)) true)))) ∧
    (s.key.removal = 3 → s.key.removalWaitFrom + 2 * s.key.removalLmax ≤ s.beat → (∀ p, (s.part p).state ≠ .resetting) →
      ∃ t, exec .removalWaitEnd s = .next t ∧ t.key.tenant = .none ∧ t.key.fabric = none ∧ t.key.bundles = [] ∧
        t.key.memGen = s.key.memGen + 1 ∧ t.key.linkGen = s.key.linkGen + 1 ∧ t.key.bindGen = s.key.bindGen + 1 ∧
        (∀ c, t.core c = CoreSt.reset) ∧ (∀ b, (t.berth b).frozen = 0)))

/-- R552 to R554: GO for a block whose operation the command is, while no answer is pending and the Ferryman serves, is
refused for a malformed block or a busy Ferryman, and otherwise runs the command, which answers BAD_ARG for arguments that
break its form. R60, R62, R213, R489, R538, R540, R546, R553: what the commands of the mailbox that answer at once do where
their arguments are sound. R257, R547 to R551, R555: the Ferryman's heartbeat counts every interval it runs, restarts it where a line of its
area is uncorrectable, and shows that it runs again after a restart, when a berth request kept meanwhile is served; its load sheds classes by their wait; a restart leaves an entry, ends what waits in the mailbox and
stops the Ferryman. What the specification leaves open here is the model's choice, log entries 65, 73 and 74. -/
def Obligations.MailboxAndFerryman : Prop :=
  (
  ∀ (s : State) (op : Nat) (i : Option (BitVec 14) → Instr) (run : State → Nat → State), Operates s →
    ((op = 1 ∧ i = .seqset) ∨ (op = 2 ∧ i = .retire) ∨ (op = 3 ∧ i = .retireClear) ∨ (op = 4 ∧ i = .extend) ∨
      (op = 5 ∧ i = .compose) ∨ (op = 6 ∧ i = .handoff) ∨ (op = 7 ∧ i = fun b => .fwWrite b true true) ∨
      (op = 8 ∧ i = fun b => .cfgWrite b true true) ∨ (s.regBit R_FER_STATUS 20 = false ∧
        ((op = 9 ∧ i = .journalRead) ∨ (op = 10 ∧ i = .faultSummary) ∨ (op = 11 ∧ i = .telemetry)))) →
    mailRun op = some run →
    s.hostReaches R_FER_REQ = true → s.hostNat s.mailBlock 2 = op → s.regBit R_FER_ACCEPT 31 = false →
    s.devState ≠ devFailed → s.ferryDown = false →
    (s.blockOk s.mailBlock = false → exec (i none) s = .next (s.ferAccept accBadBlock 0)) ∧
    (s.blockOk s.mailBlock = true →
      (∀ us, exec (i (some us)) s = .next (s.ferAccept accBusy us.toNat)) ∧
      exec (i none) s = .next (s.framed (run (s.ferAccept accAccepted 0) s.mailBlock)))) ∧
  (
  ∀ (s : State) (b : Nat),
    (∀ run, mailRun 2 = some run → s.argsClear b [(0x10, 1), (0x11, 1)] = true → s.arg b 0x10 1 < 16 → s.arg b 0x11 1 < 15 →
      run s b = (s.retireRequest (partOf (s.arg b 0x10 1)) (s.arg b 0x11 1)).mailReply b mailOk []) ∧
    (∀ run, mailRun 4 = some run → s.argsClear b [(0x10, 1), (0x20, 32)] = true → 5 ≤ s.arg b 0x10 1 → s.arg b 0x10 1 ≤ 7 →
      (s.key.closed.isSome = true → run s b = s.mailReply b mailState []) ∧
      (s.key.closed = none → run s b = (s.extendMeas (s.arg b 0x10 1) (s.hostRead (b + 0x20) 32)).mailReply b mailOk [])) ∧
    (∀ run, mailRun 1 = some run → s.argsClear b [(0x10, 1), (0x18, 8), (0x20, 8)] = true → s.arg b 0x10 1 < 16 →
      hostAddrOk (s.arg b 0x18 8) 64 = true → hostAddrOk (s.arg b 0x20 8) 32 = true →
      s.slotInState (s.arg b 0x10 1) = true → run s b = s.mailReply b slotBusy []) ∧
    (∀ run, mailRun 9 = some run → s.argsClear b [(0x10, 8)] = true → hostAddrOk (s.arg b 0x10 8) 64 = true →
      run s b = (s.publish (s.arg b 0x10 8) (mapRead 0 s.flash flashJournal 2048) []).mailReply b mailOk []) ∧
    (∀ run, mailRun 10 = some run → s.argsClear b [(0x10, 8)] = true → hostAddrOk (s.arg b 0x10 8) 64 = true →
      run s b = (s.publish (s.arg b 0x10 8) s.startSummary []).mailReply b mailOk []) ∧
    (∀ run, mailRun 11 = some run → s.argsClear b [(0x10, 8)] = true → hostAddrOk (s.arg b 0x10 8) 64 = true →
      run s b = (s.publish (s.arg b 0x10 8) s.telemetryBytes []).mailReply b mailOk [])) ∧
  (
  ∀ s : State, Operates s →
    (∀ v : Lane, s.hostReaches R_FER_RESTART = true → v.getLsbD 31 = true → s.devUp = true → ∃ t,
      exec (.ferRestart v) s = .next t ∧ t.ferryDown = true ∧ t.handoffsTaken = [] ∧ t.composeWaits = []) ∧
    (s.ferState = ferRunning → s.ferryDown = false →
      (s.ferryUe = none → exec .ferryHeartbeat s =
        .next (s.setReg R_FER_HEARTBEAT (BitVec.ofNat 64 (((s.reg R_FER_HEARTBEAT).toNat + 1) % 2 ^ 32)))) ∧
      (∀ line, s.ferryUe = some line → exec .ferryHeartbeat s =
        .next (s.framed (State.ferryRestart ((s.addFault (memFault 1 (some 15) line)).listUe line))))) ∧
    (s.ferState = ferRestarting → (s.part 15).state ≠ .stranded →
      let u := State.setFerState { s with ferryDown := false } ferRunning
      let v := u.setReg R_FER_HEARTBEAT (BitVec.ofNat 64 (((u.reg R_FER_HEARTBEAT).toNat + 1) % 2 ^ 32))
      exec .ferryHeartbeat s = .next (s.framed v.brtResume) ∧ v.brtResume.ferryDown = false) ∧
    (∀ us, exec (.ferryShed us) s =
      .next (s.setRegField R_FER_STATUS 21 20 ((if 100 < us then 1 else 0) + (if 500 < us then 2 else 0)))))

/-! ## Where every command completes -/

/-- For every command that is no arithmetic instruction of a core: the conditions on the state and on its operands under which it has
its effect, and that effect. Each conjunct says that exec answers the next state named, in the order of the opcode table: the steps of
a start (R541, R544, R545); register writes, counters and the management port (R13, R15, R562); berths, doorbells, the ledger, fences
and arbitration (R305 to R390); jobs from fetch to retirement; memory, faults and resets (R242 to R261, R516 to R536); links and their
keys (R391 to R405); the roster and discovery (R408 to R423); data frames (R426); composition (R427, R428); handoffs (R429 to R436);
the host link and instances (R438 to R458); power (R459 to R486); keys (R488 to R515); the mailbox and the Ferryman (R542 to R556); and
the block map (R223 to R225). `Performs` is of one command, `PerformsFrame` of a sequenced frame that is accepted and new. What the
specification leaves open in these effects is the model's choice, in the log entries that the statements above name for each family. -/
def Obligations.CommandsComplete : Prop :=
  (
  ∀ (a b c : Bool) (fc : BitVec 16) (fn fr lanes : BitVec 32) (s : State), Operates s → s.devState ≠ devFailed →
    (s.startStep = 2 → ∃ (u : State) (code d : Nat), (code = codeNone → a = true ∧ s.ecilamoOk b = true) ∧
      exec (.startAssay a b c) s = .next (s.framed (if code = codeNone then State.setFerState (u.nextStep 2 codeNone d) ferStarting
        else u.startFails 2 code))) ∧
    (s.startStep = 3 → ∃ u : State, u.key.rootFailed = !(a && s.start.path != pathSkipped) ∧
      exec (.startRoot a) s = .next (s.framed (u.afterRoot (if a ∨ s.start.path = pathSkipped then codeNone else codeRoot)))) ∧
    (s.startStep = 4 → exec (.startFerry a) s = .next (s.framed (if a then State.setFerState (s.nextStep 4 codeNone s.slotInUse) ferRunning
      else s.startFails 4 codeTimeout))) ∧
    (s.startStep = 5 → ∃ u : State, (∀ p : PartId, fc.getLsbD p.val = true → (u.part p).state = .stranded) ∧
      exec (.startCompute fc) s = .next (s.framed (u.nextStep 5
        (if fc = 0 ∨ u.start.path = pathAlternate then codeNone else codeDie) fc.toNat))) ∧
    (s.startStep = 6 → ∃ (u : State) (x : Nat), (x = devReady ∨ x = devDegraded) ∧
      let w := (u.setRegField R_DEV_STATE 3 0 x).nextStep 6 (if fn = 0 ∨ s.start.path = pathAlternate then codeNone else codeChannel) fn.toNat
      exec (.startDram fn fr) s = .next (s.framed (if (w.part 15).state = .stranded then { w with ferryDown := true } else w))) ∧
    (s.startStep = 7 → s.ferryDown = false → ∃ (u : State) (d : Nat), exec (.startOptics lanes) s = .next (s.framed (u.nextStep 7
      (if d = 0 ∨ u.start.path = pathAlternate then codeNone else codeLane) d))) ∧
    (s.startStep = 8 → s.ferryDown = false → exec (.startRoster a) s = .next (s.framed (
      if s.start.path = pathSkipped then s.nextStep 8 codeNone 0
      else if a then s.startDiscovery.nextStep 8 codeNone 0 else s.nextStep 8 codeDiscovery 0)))) ∧
  (
  ∀ (o : BitVec 26) (z : Fin 65) (v : Word) (w : HostStores) (off hi lo : Nat) (r : RegRow) (i : Instr),
    Performs (.registerWrite o z v w)
      (fun s => (s.hostStores w).hostReaches o.toNat = true ∧ regAccess o.toNat z.val = some (off, r, hi, lo))
      (fun s => (s.hostStores w).writeReg off hi lo (if lo = 32 then v <<< 32 else v) r) ∧
    (counterOf i = some off → Performs i (fun s => s.hostUp = true ∧ s.answers off = true) (fun s => s.readClear off)) ∧
    Performs (.arbCountRead false) (fun s => s.hostUp = true ∧ s.answers R_ARB_DEAD = true ∧ s.regField R_ARB_SEL 8 0 ≤ 0x180)
      (fun s => let n := s.regField R_ARB_SEL 8 0
        { s.setArb n { s.arb n with dead := 0 } with busRead := (s.arb n).dead.setWidth 64 }) ∧
    Performs (.arbCountRead true) (fun s => s.hostUp = true ∧ s.answers R_ARB_FORCED = true ∧ s.regField R_ARB_SEL 8 0 ≤ 0x180)
      (fun s => let n := s.regField R_ARB_SEL 8 0
        { s.setArb n { s.arb n with forced := 0 } with busRead := (s.arb n).forced.setWidth 64 }) ∧
    (
      let answers (i : Instr) (d : State → List Byte) : Prop := Performs i (fun s => 2000000 ≤ s.beat)
        (fun s => { s with busRead := BitVec.ofNat 64 (leNat (d s)), out := s.out ++ [.smbus (d s)] })
      answers .smbIdent (fun s => leBytes 4 (s.reg R_DEV_IDENT).toNat) ∧
      answers .smbSerial (fun s => leBytes 8 (s.reg R_DEV_SERIAL).toNat) ∧
      answers .smbState (fun s => leBytes 1 (s.devState + (if s.ferState = ferRunning then 128 else 0))) ∧
      answers .smbTemp (fun s => leBytes 2 (s.regField R_PWR_TEMP 15 0)) ∧
      answers .smbPower (fun s => leBytes 2 s.windowPower ++ leBytes 2 (grantW s)) ∧
      answers .smbLaser (fun s => (List.range 4).flatMap (fun p => leBytes 2 (s.regField (R_LNK_LASER_PWR + 0x100 * p) 15 0))) ∧
      Performs .smbAlert (fun s => 2000000 ≤ s.beat) (fun s => let d := leBytes 1 (s.alerts.toNat % 64)
        { s with alerts := 0, busRead := BitVec.ofNat 64 (leNat d), out := s.out ++ [.smbus d] }))) ∧
  (
  ∀ (b : BerthId) (q : QueueId) (p : PartId) (i : ArbIndex) (v : Lane) (tail : Word) (sender : DbSender) (w : HostStores)
    (e : LedgerEntry) (f : Fence) (rest : List Fence) (t : Timetable) (n : Nat),
    let asked (s : State) : State := s.setReg R_BRT_REQ (BitVec.ofNat 64 (v.toNat &&& 0x383FFFFF))
    let free (s : State) : Prop := s.hostReaches R_BRT_REQ = true ∧ v.getLsbD 31 = true ∧ s.ferryDown = false ∧
      (asked s).regBit R_BRT_REQ_STATUS 31 = false
    let a (s : State) : ArbSt := s.arb (s.regField R_ARB_SEL 8 0)
    let present (s : State) (l : List Nat) : List Nat := (l.filter (fun r => decide (r < s.arbN i.val))).eraseDups
    Performs (.loadBerth v none) (fun s => free s ∧ bits v.toNat 29 28 ≠ 1) (fun s => (asked s).brtPerform) ∧
    Performs (.unloadBerth v none) (fun s => free s ∧ bits v.toNat 29 28 = 1) (fun s => (asked s).brtPerform) ∧
    (∀ s : State, Operates s → (s.berth b).state = .loading → s.hostUp = true → s.ferryDown = false →
      ∃ t, exec (.berthLoaded b) s = .next t ∧ (t.berth b).state = .resident) ∧
    Performs (.berthEmpty b) (fun s => (s.berth b).state = .unloading ∧ s.berthBusy b = false ∧ s.fences.length < 16)
      (fun s => State.removalCheck (State.brtDone (State.emptyBerth (if s.instCmds.any (fun c => c.berths.contains b) then
        s.issueFence (s.berth b).context (fun _ => true) else s) b) b)) ∧
    Performs (.brtQrevoke v) (fun s => s.hostReaches R_BRT_QREVOKE = true ∧ v.getLsbD 31 = true ∧ bits v.toNat 21 16 = b.val ∧
      (s.berth b).state = .resident) (fun s => s.revoke b (v.setWidth 16)) ∧
    Performs (.doorbell b q .tail tail sender w)
      (fun s => let u := s.hostStores w
        let x := (u.berth b).queue q
        u.hostUp = true ∧ u.devUp = true ∧ u.ownsBerth b sender = true ∧ (u.berth b).state = .resident ∧ x.valid = true ∧
        (∀ k, sender = .function k → u.sharing = modeMediated) ∧ u.qRevoked b q = false ∧ u.qFrozen b q = false ∧
        x.tail ≤ tail.toNat ∧ tail.toNat - x.head ≤ 2 ^ x.ringLog2)
      (fun s => (s.hostStores w).updQueue b q (fun x => { x with tail := tail.toNat })) ∧
    Performs (.ldgAbandon v) (fun s => s.hostReaches R_LDG_ABANDON = true ∧ s.eventEntry v = some e)
      (fun s => (s.abandonEntry e).wakeAbandoned) ∧
    Performs (.xltFenceGo v) (fun s => s.hostReaches R_XLT_FENCE_GO = true ∧ v.getLsbD 0 = true ∧
        ((s.reg R_XLT_FENCE_CTX).setWidth 16 : BitVec 16) ≠ 0 ∧ s.fences.length < 16)
      (fun s => let r := s.reg R_XLT_FENCE_CTX
        let lo := s.regField R_XLT_FENCE_BASE 47 16 * 65536
        let hi := (s.regField R_XLT_FENCE_LIMIT 47 16 + 1) * 65536
        s.issueFence (r.setWidth 16) (fun c => r.getLsbD 31 || (decide (lo < hi) && c.overlaps lo hi))) ∧
    Performs .fenceComplete (fun s => s.fences = f :: rest ∧ s.fenceWork f = false)
      (fun s => State.setReg { s with fences := rest } R_XLT_FENCE_DONE (f.seq.setWidth 64)) ∧
    Performs (.ttbCommit p v) (fun s => s.hostReaches (R_TTB_COMMIT + ttBase p) = true ∧ v.getLsbD 0 = true ∧
        (s.part p).ttPending = none ∧ s.ttShadow p = some t)
      (fun s => let x := (s.part p).timetable
        if x.enable = false ∨ s.beat < x.anchor then s.ttEffect p t
        else s.updPart p (fun y => { y with
          ttPending := some t, ttPendingAt := x.anchor + ((s.beat - x.anchor) / x.cycle + 1) * x.cycle })) ∧
    Performs (.ttbCommitEffect p) (fun s => (s.part p).ttPending = some t ∧ (s.part p).ttPendingAt ≤ s.beat)
      (fun s => s.ttEffect p t) ∧
    (∀ l, Performs (.arbitration i l) (fun s => s.misused = none ∧ i.val < 0x160 ∧ present s l ≠ [] ∧
        (∀ p, arbOwner i.val = some p → (s.part p).state ≠ .stranded))
      (fun s => s.setArb i.val (((s.arb i.val).keepOnly (present s l)).turn (s.arbN i.val) (present s l)))) ∧
    Performs (.waitCounterExpire i n) (fun s => n < s.arbN i.val) (fun s => s.setArb i.val ((s.arb i.val).expire n)) ∧
    Performs (.arbEpochAdvance i) (fun _ => True) (fun s => s.setArb i.val (s.arb i.val).newEpoch) ∧
    Performs (.arbWithdraw i n) (fun s => (s.arb i.val).granted = some n) (fun s => s.setArb i.val ((s.arb i.val).withdraw n)) ∧
    Performs (.arbCommit v) (fun s => s.hostReaches R_ARB_COMMIT = true ∧ v.getLsbD 0 = true ∧ s.regField R_ARB_SEL 8 0 ≤ 0x180 ∧
        arbCommitOk (s.regField R_ARB_SEL 8 0) (s.arbN (s.regField R_ARB_SEL 8 0)) (a s).shadow = true)
      (fun s => s.setArb (s.regField R_ARB_SEL 8 0) { a s with active := (a s).shadow })) ∧
  (
  ∀ (s u : State) (b : BerthId) (q : QueueId) (p : PartId) (m m1 : Manifest) (e : LedgerEntry) (v : VDev) (o : CodeObj) (x : Ready)
    (r : RunRec) (bs : List Byte) (c dt : Nat) (stop : Bool), Operates s → s.misused = none → s.manifest? m.id = some m →
    (
      let y := (s.berth b).queue q
      let k := entryConts y.format (s.ringEntries y y.head 1)
      let blank := Manifest.blank s.nextManifest b q (s.berth b).context
      let f := if y.format = 1 then manifestV1 blank (s.ringEntries y y.head 1) (s.ringEntries y (y.head + 1) k)
        else manifestV2 blank (s.ringEntries y y.head 1) (s.ringEntries y (y.head + 1) k)
      let n : Manifest := { f.1 with vdev := match s.slotVdev f.1.vslot.val with
        | some v => v.number
        | none => 0 }
      s.mayFetch b q = true → 1 + k ≤ y.tail - y.head → f.2 = true → n.waitEvent = 0 → (∀ z ∈ s.manifests, z.id ≠ s.nextManifest) →
      s.bindManifest n = (u, some m1) →
      exec (.fetch b q) s = .next (s.framed (State.makeReady (State.publish (State.updQueue { u with
        manifests := u.manifests ++ [m1], nextManifest := u.nextManifest + 1 } b q (fun z => { z with head := y.head + 1 + k }))
        ((s.berth b).record + 0x58 + 64 * q.val) (leBytes 8 (y.head + 1 + k)) []) n.id))) ∧
    (m.phase = .waitEvent → m.waitEvent ≠ 0 → s.hostUp = true → s.eventEntry m.waitEvent = some e → e.abandoned = false →
      bits e.loc 1 0 = 3 → m.waitValue ≤ BitVec.ofNat 64 (s.hostNat (bits e.loc 51 3 * 8) 8) →
      exec (.waitEventPoll m.id) s = .next (s.framed (s.makeReady m.id))) ∧
    (m.phase = .admissible → m.trailersDone = true → m.running = false → s.nextAdmitted m = true →
      s.slotVdev m.vslot.val = some v → State.waitsForHost m v = false → s.readCode m = (u, .obj o) → u.misused = none →
      (u.admissionTurn m).cause m (.obj o) none (some v) = 0 →
      exec (.admission m.id) s = .next (s.framed ((u.admissionTurn m).admitRun m o none v))) ∧
    (s.issues p = true → s.pickKernel p = some x →
      s.readVirt (some p.val) x.m (x.o.base + x.o.textOff + 8 * x.k.start) (8 * x.k.words) true = (u, .ok bs) → u.misused = none →
      exec (.kernelIssue p) s = .next (s.framed (State.placeKernel { u with arbs := (s.issueTurn p x).arbs } p x (wordsOf bs)))) ∧
    (m.phase = .running → m.leadersDone = true → m.runRec = some r → s.stepTrouble r false = none → s.readStep r = (u, .ok bs) →
      u.misused = none → 1 ≤ natAt bs 0 4 → natAt bs 0 4 ≤ 64 →
      let n := scanStops r.stops ((List.range (natAt bs 0 4)).map (fun i => laneAt bs (0x10 + 4 * i)))
      exec (.runEnd m.id) s = .next (s.framed (u.deliverRun m r n.1 n.2 bs))) ∧
    (m.phase = .runEnd c stop bs → m.runRec = some r →
      exec (.tokenRingPoll m.id) s = .next (s.framed (s.deliverRun m r c stop bs))) ∧
    (m.phase = .ending stOk dt → m.signalEvent = 0 → ((s.berth m.berth).queue m.queue).cringFull = false →
      ((s.berth m.berth).queue m.queue).waiting = [] →
      exec (.manifestComplete m.id) s = .next (s.framed (s.complete m stOk dt))) ∧
    (
      let y := (s.readCringConsumed b q).updQueue b q (fun z => { z with waiting := [] })
      m.phase = .ending stOk dt → m.signalEvent = 0 → s.hostUp = true → ((s.berth b).queue q).waiting = [m.id] →
      ((((s.readCringConsumed b q).berth b).queue q).cringFull = true →
        exec (.cringPoll b q) s = .next (s.framed (s.readCringConsumed b q))) ∧
      ((((s.readCringConsumed b q).berth b).queue q).cringFull = false → m.berth = b → m.queue = q →
        exec (.cringPoll b q) s = .next (s.framed (y.complete m stOk dt)))) ∧
    (m.phase = .recorded → m.trailersDone = true → exec (.manifestRetire m.id) s = .next (s.framed (s.retireManifest m))) ∧
    (m.phase = .abandoned → m.heldLines = [] ∨ s.regBit R_MEM_CTRL 0 = false → m.runRec = none →
      exec (.replayReissue m.id) s = .next (s.framed (s.updManifest m.id (fun z => { z with
        phase := .admitted, replays := z.replays + 1, heldLines := [] }))))) ∧
  (
  ∀ (p : PartId) (dram flashOk parity : Bool) (v : Lane) (w : Word) (i : Fin 16) (line n out : Nat) (held : Bool) (failed : BitVec 15)
    (k : Fin 32) (f : Freed) (pos : Fin 15) (rest : List Nat) (first : Nat),
    let half (s : State) : Prop := s.halfState p ≠ .resetting ∧ s.halfState p ≠ .stranded
    let core (n : Nat) : CoreId := coreIdOf p ⟨n % 12, by omega⟩
    Performs (.scrubTurn p dram)
      (fun s => s.regField (if dram then R_MEM_SCRUB_DR else R_MEM_SCRUB_CS) 15 0 ≠ 0 ∧ s.devUp = true ∧ (s.part p).state ≠ .resetting ∧
        (s.part p).state ≠ .stranded)
      (fun s =>
        let q := if dram then (s.part p).scrubDr else (s.part p).scrubCs
        let u := s.scrubLine p dram (!q.queued.isEmpty) (q.queued.headD (scrubBase p dram + 64 * q.next))
        let a := q.advance (scrubLines dram)
        let t := u.updPart p (fun y => if dram then { y with scrubDr := a.1 } else { y with scrubCs := a.1 })
        let off := R_MEM_SCRUB_PASS + 4 * p.val
        if a.2 then (if dram then t.setRegField off 31 16 (t.regField off 31 16 + 1) else t.setRegField off 15 0 (t.regField off 15 0 + 1))
        else t) ∧
    Performs (.memUeClear v) (fun s => s.hostReaches R_MEM_UE_CLEAR = true ∧ v.toNat % 16 = i.val ∧ s.ueList[i] = some (line, held))
      (fun s => { s with
        ueList := s.ueList.set i none
        manifests := s.manifests.map (fun m => { m with heldLines := m.heldLines.filter (fun l => l != line) }) }) ∧
    Performs (.fltReset v) (fun s => s.hostReaches R_FLT_RESET = true ∧ v.getLsbD 31 = true ∧
        (∀ q, v.getLsbD q.val = true ↔ q = p) ∧ (s.part p).state ≠ .resetting ∧ (s.part p).state ≠ .stranded)
      (fun s => s.startReset p 0 none) ∧
    (∀ (s t u : State) (store : List (List Byte × Bool)) (r : SalvageRec), Operates s → s.resetStep p = 2 → s.usedFallback p = false → half s →
      s.storeSample p = (t, store) → t.numberRecord p (t.mainRecord p store) = (u, r) →
      exec (.salvageDone p) s = .next (s.framed ((u.writeRecord p r).setStep p 3))) ∧
    Performs (.salvageFallback p) (fun s => s.resetStep p = 2 ∧ s.usedFallback p = false ∧
        (s.reg (R_FLT_RESET_BEAT + 8 * p.val)).toNat + 100000 ≤ s.beat)
      (fun s => State.addFault (s.setRegField (State.resetStatus p) 6 6 1) (resetEntry p 4 0)) ∧
    Performs (.salvageFallbackDone p) (fun s => s.resetStep p = 2 ∧ s.usedFallback p = true ∧ s.ferryDown = false ∧ half s)
      (fun s =>
        let r := s.numberRecord p (s.fallbackRecord p)
        (r.1.writeRecord p r.2).setStep p 3) ∧
    Performs (.salvageDeferredWrite p) (fun s => s.ferryDown = false ∧ half s)
      (fun s => State.updPart ((s.part p).salvageHeld.foldl (fun s r => s.writeRecord p r) s) p (fun x => { x with salvageHeld := [] })) ∧
    Performs (.zeroDone p) (fun s => s.resetStep p = 3)
      (fun s => State.setStep (State.arbReset (State.zeroRange (s.mapCores (fun c x => if corePart c = p then CoreSt.reset else x))
        (p.val * storeBytes) (p.val * storeBytes + storeBytes)) p) p 4) ∧
    Performs (.patternTestDone p failed) (fun s => s.resetStep p = 4)
      (fun s =>
        let u := ((List.range 15).filter (fun i => failed.getLsbD i && bitAt (s.part p).working i)).foldl
          (fun s i => s.pendPosition p i 4) s
        let t := u.updPart p (fun x => { x with
          bad := x.bad ||| x.pendingRetire, unlisted := x.unlisted ||| x.pendingRetire, pendingRetire := 0, onPosition := [] })
        (t.publishCoreMap p).awaitDram p) ∧
    Performs (.dramReinitDone p) (fun s => (s.part p).state = .resetting ∧ 2 ≤ s.resetStep p ∧ (s.part p).dramReady = false)
      (fun s =>
        let lo := dramBase + p.val * dramStride
        let t := (s.forgetRange lo (lo + dataMib p.val * 0x100000)).updPart p (fun x => { x with dramReady := true })
        if t.resetStep p = 6 then t.finishReset p else t) ∧
    Performs (.channelReinitFailed k) (fun s => k.val / 2 = p.val ∧ (s.part p).state = .resetting ∧ 2 ≤ s.resetStep p ∧
        (s.part p).dramReady = false)
      (fun s => State.strand (s.setReg (R_MEM_CH + 4 * k.val) 2) p) ∧
    Performs (.partitionStranded p) (fun s => (s.part p).state = .resetting ∧
        (s.reg (R_FLT_RESET_BEAT + 8 * p.val)).toNat + 10000000 ≤ s.beat)
      (fun s => s.strand p) ∧
    Performs (.retirementListWrite p flashOk) (fun s => (s.part p).unlisted ≠ 0 ∧ (s.part p).state ≠ .resetting ∧ s.ferryDown = false)
      (fun s =>
        let t := s.updPart p (fun x => { x with unlisted := 0 })
        let a := flashRetirement + 2 * p.val
        if flashOk then t.flashPut a (leBytes 2 (s.flashNat a 2 ||| (s.part p).unlisted.toNat))
        else t.addFault { FaultEntry.bare 1 5 with part := some p.val }) ∧
    Performs .faultSummaryWrite (fun s => s.ferryDown = false ∧ s.devUp = true) (fun s => s.flashPut flashSummary s.faultSummaryBytes) ∧
    Performs (.fltRingWrite w) (fun s => s.hostReaches R_FLT_RING = true ∧ ∀ b, (s.berth b).state = .empty)
      (fun s =>
        let u := (s.setRegField R_FLT_RING 51 12 (wbits w 51 12)).setRegField R_FLT_RING 3 0 (wbits w 3 0)
        let t : State := State.setReg { u with faultMirrored := 0, faultConsumed := 0 } R_FLT_PRODUCED 0
        t.faults.foldl State.mirrorOne t) ∧
    Performs (.fltOvfClear v) (fun s => s.hostReaches R_FLT_OVF_CLEAR = true)
      (fun s =>
        let t := ((List.range 16).filter (fun k => v.getLsbD k)).foldl (fun (s : State) k =>
          State.setReg (State.setReg (s.setReg (R_FLT_OVF_COUNT + 4 * k) 0) (R_FLT_OVF_FIRST + 8 * k) 0) (R_FLT_OVF_LAST + 8 * k) 0) s
        t.setRegField R_FLT_STATUS 31 31
          (if (List.range 16).any (fun k => (t.reg (R_FLT_OVF_COUNT + 4 * k)).toNat != 0) then 1 else 0)) ∧
    Performs (.storageReturn n) (fun s => s.freed.find? (fun f => f.id == n) = some f ∧ f.blockers.all (fun i => (s.move? i).isNone) = true ∧
        s.hostUp = true)
      (fun s => State.binStorage { s with freed := s.freed.filter (fun x => x.id != n) } f.slot f.cls f.storage) ∧
    (∀ (s u : State) (d : Nat), Operates s → carriedBy (s.part p).working pos.val = first :: rest →
      (mapGet none (s.part p).onPosition pos.val).getD first = out →
      (first :: rest).find? (fun n => n != out && s.canRun (core n)) = some d →
      (s.core (core out)).givesUp = true → s.benchQuiet (core out) = true →
      s.readFoldSlot p d ((s.core (core d)).kernel.map (·.manifest)) = (u, true) →
      let t := (u.updCore (core out) (fun x => { x with readBuffer := [] })).updPart p
        (fun x => { x with onPosition := mapPut none x.onPosition pos.val (some d) })
      exec (.foldSwitch p pos false) s = .next (s.framed (if t.canBegin (core d) then t.beginKernel (core d) else t)))) ∧
  (
  ∀ (port : Fin 4) (i8 : Fin 8) (v : Lane) (w : BitVec 16) (arr : Arrival) (f : Frame) (a : BitVec 128) (unc : Bool) (version type : Byte)
    (l : Landing) (q : Lane) (x : Peer) (t : TxFrame) (sa : SaAdvance) (hard : Bool) (rx : Rx) (cum : Lane) (bitmap : Word) (e : Nat × Nat),
    let p := port.val
    Performs (.portEnable port v) (fun s => s.hostReaches (portCtrl p) = true ∧ bitAt (s.reg (portCtrl p)).toNat 0 ≠ v.getLsbD 0 ∧
        portIgnored (s.reg (portCtrl p)).toNat v.toNat = false)
      (fun s =>
        let u := s.setRegField (portCtrl p) 3 0 (bits v.toNat 3 0)
        if v.getLsbD 0 then u.enablePort p else u.portDown p) ∧
    Performs (.portTrained port i8) (fun s => s.portTraining p = true ∧ s.laserOk p = true ∧ i8.val < s.portIfs p ∧
        s.ifFailed p i8.val = false ∧ s.ifUp p i8.val = false)
      (fun s =>
        let u := (s.setRegField (portStatus p) (8 + i8.val) (8 + i8.val) 1).trainCheck p
        { u with discovery := { u.discovery with trainedAt := some (u.discovery.trainedAt.getD s.beat) } }) ∧
    Performs (.laneTrainingTimeout port i8) (fun s => s.portTraining p = true ∧ s.ifUp p (i8.val / s.lanesPer p) = false)
      (fun s => State.trainCheck (s.setRegField (portStatus p) (16 + i8.val) (16 + i8.val) 1) p) ∧
    Performs (.laserLoss port w) (fun s => w.toInt < 1600 ∧ s.laserOk p = true)
      (fun s =>
        let d := State.portDown ((s.showLaser p w).setRegField (portStatus p) 31 31 0) p
        State.linkFault { d with alerts := d.alerts ||| ((1 : BitVec 16) <<< (2 + p)) } 4 0) ∧
    Performs (.laserRestore port w) (fun s => 1650 ≤ w.toInt ∧ (s.showLaser p w).portEnabled p = true ∧
        (s.showLaser p w).laserOk p = false)
      (fun s => State.portTrain ((s.showLaser p w).setRegField (portStatus p) 31 31 1) p) ∧
    Performs (.frameForward arr.toLinkEnd arr.toEnvelope f) (fun s => s.ifUp arr.port.val arr.iface.val = true ∧ s.takes arr = true ∧
        (s.countCorrected arr).sendsAll = true ∧ f.dst ≠ (s.countCorrected arr).landing ∧ f.dst ≠ broadcast ∧
        (s.countCorrected arr).egress? f.dst = some e)
      (fun s => (s.countCorrected arr).emit (.forward e.1 e.2 f)) ∧
    Performs (.neighbourSolicitation arr.toLinkEnd arr.toEnvelope a) (fun s => s.ifUp arr.port.val arr.iface.val = true ∧ a = s.ip6 arr.port.val arr.iface.val)
      (fun s => (s.countCorrected arr).emit (.neighbourAdvert arr.port.val arr.iface.val)) ∧
    Performs (.frameDiscarded arr ⟨true, version, type⟩) (fun s => s.ifUp arr.port.val arr.iface.val = true)
      (fun s => (s.countCorrected arr).countLink arr.port.val ctrFecUcw) ∧
    Performs (.frameDiscarded arr ⟨false, version, type⟩) (fun s => s.ifUp arr.port.val arr.iface.val = true ∧ isPtp arr = false ∧
        (s.takes arr && version == 1 && frameTypes.contains type.toNat) = false)
      (fun s => (s.countCorrected arr).countLink arr.port.val ctrRxDrop) ∧
    (∀ (s : State) (domain fraction : Byte) (body : PtpBody), Operates s → s.ifUp arr.port.val arr.iface.val = true → isPtp arr = true →
      domain.toNat = (s.countCorrected arr).ptpDomain →
      let u := (s.countCorrected arr).ptpTake arr.port.val arr.iface.val fraction body
      exec (.ptpMessage arr domain fraction body) s = .next { s.framed u with beat := u.beat }) ∧
    Performs .ptpSyncInterval (fun _ => True)
      (fun s => ((List.range 32).filter (fun k => s.ifUp (k / 8) (k % 8))).foldl State.ptpSend s) ∧
    (
      let pre (s : State) : Prop := s.hostReaches R_LNK_SA_ADVANCE = true ∧ v.getLsbD 31 = true ∧ v.getLsbD 30 = hard ∧ s.saPending = none
      let go (s : State) : State := s.startAdvance (s.advanceNames (BitVec.ofNat 16 (bits v.toNat 15 0))) hard false
      (hard = false → Performs (.softAdvance v) pre go) ∧ (hard = true → Performs (.hardAdvance v) pre go)) ∧
    Performs (.pnThreshold l) (fun s => s.peer? l = some x ∧ x.assoc.isSome = true ∧ 0xC0000000 ≤ x.pnUsed ∧ s.saPending = none)
      (fun s => s.startAdvance [l] false true) ∧
    Performs (.advanceConfirmed l) (fun s => s.saPending = some sa ∧ sa.peers.contains l = true)
      (fun s =>
        let rest := sa.peers.filter (· != l)
        if rest.isEmpty then s.endAdvance 0 else { s with saPending := some { sa with peers := rest } }) ∧
    Performs .advanceTimeout (fun s => s.saPending = some sa ∧ sa.deadline ≤ s.beat) (fun s => s.endAdvance sa.peers.length) ∧
    Performs (.peerAdvance l hard) (fun s => s.peer? l = some x ∧ x.assoc.isSome = true) (fun s => s.advanceAssoc l hard) ∧
    Performs (.oldAnExpire l) (fun _ => True)
      (fun s => s.updPeer l (fun p => { p with assoc := p.assoc.map (fun a => { a with olds := a.olds.filter (fun o => o.lives s.beat) }) })) ∧
    (∀ s s1 : State, Operates s → s.accept rx tySack = (s1, true) →
      exec (.sack rx cum bitmap) s = .next (s.framed (State.sendWaiting (s1.updPeer rx.src (fun p => { p with
        txUnacked := p.txUnacked.filter (fun t => !(t.sent && (!seqGe t.seq cum ||
          decide ((t.seq - cum - 1).toNat < 64) && bitmap.getLsbD (t.seq - cum - 1).toNat))) })) rx.src))) ∧
    Performs (.sackTimer l) (fun s => s.peer? l = some x ∧ 0 < x.rxUnacked) (fun s => s.sendSack l) ∧
    Performs (.retransmitTimer l q) (fun s => s.peer? l = some x ∧ x.txUnacked.find? (fun t => t.sent && t.seq == q) = some t ∧
        t.sentAt + s.retransmitAfter l ≤ s.beat ∧ x.canTx = true ∧ s.egress? l ≠ none)
      (fun s =>
        let f := { t.frame with flags := t.frame.flags ||| 2 }
        if 8 ≤ t.retries then s.resetStream l false
        else State.transmit (s.updPeer l (fun y => { y.countTx with
          txUnacked := y.txUnacked.map (fun u => if u.seq = q then { u with frame := f, sentAt := s.beat, retries := u.retries + 1 } else u) }))
          l f)) ∧
  (
  ∀ (arr : Arrival) (hops : Byte) (n : Landing) (mac : BitVec 48) (v : Lane) (rx : Rx) (reference : Landing) (rs : List HelloRecord)
    (slot : SlotId) (d : VDev) (l : Landing) (p : Peer) (x : Nat),
    let arrived (s : State) : Prop := s.ifUp arr.port.val arr.iface.val = true ∧ s.takes arr = true
    let on (u : State) (ty : Nat) (src : Landing) : State := if hops = 0 then u
      else u.flood { discFrame u ty (hops.toNat - 1) broadcast (claimBytes n mac.toNat) with src := src }
        (some (8 * arr.port.val + arr.iface.val))
    Performs (.countOff arr.toLinkEnd arr.toEnvelope n) (fun s =>
        let u := (s.countCorrected arr).hearFrom (n - 1)
        arrived s ∧ u.landing = 0 ∧ u.discState = discCounting ∧ usable n = true)
      (fun s => State.sendCount (State.noteRoute (((s.countCorrected arr).hearFrom (n - 1)).settleOn n) (n - 1) arr.port.val arr.iface.val 1)
        (n.toNat + 1) (some (8 * arr.port.val + arr.iface.val))) ∧
    (∀ s u : State, Operates s → arrived s → (s.countCorrected arr).seenBefore tyClaim n mac = (u, false) →
      let w := on u tyClaim 0
      exec (.claim arr.toLinkEnd arr.toEnvelope hops n mac) s = .next (s.framed (
        if w.landing ≠ 0 then (if n = w.landing then w.flood (discFrame w tyDefend 16 broadcast (claimBytes n w.macBase)) none else w)
        else if w.discState = discClaiming ∧ n = w.discovery.candidate ∧ mac.toNat < w.macBase then w.collide else w))) ∧
    (∀ s u : State, Operates s → arrived s → (s.countCorrected arr).seenBefore tyDefend n mac = (u, false) →
      let w := on (u.hearFrom n) tyDefend n
      let noted := w.noteRoute n arr.port.val arr.iface.val (17 - min hops.toNat 16)
      exec (.defend arr.toLinkEnd arr.toEnvelope hops n mac) s = .next (s.framed (
        if w.landing ≠ 0 then (if n = w.landing then w.duplicateNumber mac else noted)
        else if w.discState = discClaiming ∧ n = w.discovery.candidate then w.collide else noted))) ∧
    Performs .claimTimer (fun s => s.discState = discClaiming ∧ s.discovery.claims < 3 ∧ s.discovery.lastClaim + 200000 ≤ s.beat)
      (fun s => s.sendClaim) ∧
    Performs .claimTimer (fun s => s.discState = discClaiming ∧ 3 ≤ s.discovery.claims ∧ s.discovery.lastClaim + 2000000 ≤ s.beat)
      (fun s => s.settleOn s.discovery.candidate) ∧
    Performs .discoveryFallback (fun s => s.discovery.trainedAt = some x ∧ s.landing = 0 ∧ s.discState = discCounting ∧
        x + 100000000 ≤ s.beat) (fun s => s.claimFrom s.firstCandidate) ∧
    Performs (.rediscover v) (fun s => s.hostReaches R_ROS_CMD = true ∧ v.getLsbD 0 = true ∧ s.ferryDown = false ∧
        s.discState ≠ discDuplicate ∧ s.parts.toList.any (fun p => p.slot.isSome) = false) (fun s => s.unnumber.startDiscovery) ∧
    (∀ s u : State, Operates s → s.ifUp rx.port.val rx.iface.val = true → s.takes rx.toArrival = true → rx.src ≠ s.landing →
      s.discState ≠ discDuplicate → (s.meet rx.src mac rx.port.val rx.iface.val).accept rx tyHello = (u, true) →
      let w := rs.foldl (fun s r => s.takeRecord rx.src r) (u.updPeer rx.src (fun p => { p with
        live := true, mac := mac, reference := reference, port := rx.port.val, iface := rx.iface.val }))
      exec (.hello rx mac reference rs) s = .next (s.framed (w.adoptReference.afterLiveness s))) ∧
    Performs .helloTimer (fun s => s.landing ≠ 0 ∧ s.key.fabric.isSome = true)
      (fun s =>
        let u := s.helloTargets.foldl (fun s l => match s.peer? l, mapGet none s.routes l.toNat with
          | none, some r => s.meet l 0 r.port r.iface
          | _, _ => s) s
        u.helloTargets.foldl (fun s l => s.sendUnseq l tyHello s.helloBytes) u.tick) ∧
    Performs (.keeperLatencyUpdate slot) (fun s => s.vdevs.find? (fun v => v.slot == some slot) = some d ∧ s.isKeeper d = true ∧
        s.ferryDown = false) (fun s => State.tick (s.setVdLat d (s.reportedLat d))) ∧
    Performs (.peerDead l) (fun s => s.peer? l = some p ∧ p.live = true ∧ p.lastHeard + s.deadBeats + s.delayTo l ≤ s.beat)
      (fun s =>
        let b := ((s.linkFault 2 l).updPeer l (fun p => { p with live := false, myLats := [], epochs := [] })).resetStream l true
        let c := b.updPeer l (fun p => { p with assoc := p.assoc.map (fun _ => Assoc.fresh) })
        let e := State.keeperDrop (State.afterLiveness ((c.strandPeer l).poolFail (fun w => storageLanding w == l.toNat)).adoptReference s) l
        e.vdevs.foldl (fun s v => if s.isKeeper v && v.syncOut.isEmpty then s.finishSync v.number else s) e)) ∧
  (
  ∀ (s u s1 v : State) (rx : Rx) (e : DataExt) (data bs : List Byte) (w : Word) (m : Movement) (r : Landing × Nat × Nat × Place)
    (x : Peer) (move bytes : Lane) (tag : Word) (vdev : BitVec 24) (st : Byte) (job : Manifest),
    Operates s → s.misused = none →
    let place : Place := .dev e.addr.toNat e.edom.toNat
    let part := addrPartNat e.addr.toNat
    let taken (ty n : Nat) (write : Bool) : Prop := s.key.tenant ≠ .removing ∧
      s.accept rx ty = (u, true) ∧ u.notTaken rx e n write = false ∧ u.takeSeq rx = (s1, true) ∧ s1.frameTrouble e n write = none
    let answered (n : Nat) : State :=
      State.sendWack (v.updPeer rx.src (fun p => p.perform e.mstream part e.ord.toNat)) rx.src e.move.toNat n
    let hold (data : List Byte) (kind : HeldKind) : State := { s1 with
      held := s1.held ++ [⟨s1.nextHeld, some rx.src, ⟨coreIdOf 0 0, 0, 0, 0, 0⟩, e.mstream, e.prior.toNat, place, data, kind,
        e.move.toNat, e.ord.toNat⟩]
      nextHeld := s1.nextHeld + 1 }
    let early : Prop := rx.lastOff = true ∧ s1.peer? rx.src = some x ∧ x.performedBelow e.mstream part e.prior.toNat = false ∧
      x.refusedBelow e.mstream part e.prior.toNat = false
    (dataLenOk data.length = true → taken tyWrite data.length true → rx.lastOff = false → s1.placeWrite place data = (v, none) →
      exec (.frameWrite rx e data) s = .next (s.framed (answered data.length))) ∧
    (dataLenOk data.length = true → taken tyWrite data.length true → early →
      exec (.frameWrite rx e data) s = .next (s.framed (hold data .data))) ∧
    (64 ≤ e.len.toNat → e.len.toNat ≤ 65536 → e.len.toNat % 64 = 0 → taken tyRead e.len.toNat false →
      s1.placeRead place e.len.toNat = (v, .inl bs) →
      exec (.frameRead rx e) s = .next (s.framed (State.sendRdata (v.performed rx.src e) rx.src e bs))) ∧
    (dataLenOk data.length = true → s.key.tenant ≠ .removing → s.accept rx tyRdata = (u, true) →
      u.rdataWaits rx e data.length = false → u.takeSeq rx = (s1, true) → s1.move? e.move.toNat = some m →
      m.readFor rx.src e.addr.toNat data.length = some r → m.group ≠ 16 → m.last = false →
      let q := r.2.2.2.plus (e.addr.toNat - r.2.1)
      q.isRemote = false →
      let t := State.repairFrom ((s1.updMove m.id (fun m => { m with
        readsOut := m.readsOut.erase r ++ readRest r e.addr.toNat data.length })).updCore
        m.core (fun x => x.bufferPut rx.src e.addr.toNat data)) m rx.src e.addr.toNat data
      t.trouble q data.length true = none → t.placeWrite q data = (v, none) →
      exec (.rdata rx e data) s = .next (s.framed v)) ∧
    (taken tyAtomic 8 true → rx.lastOff = false →
      (e.op = 0 → s1.wordAdd place w = (v, none) → exec (.atomic rx e w) s = .next (s.framed (answered 8))) ∧
      (e.op = 1 → s1.placeWrite place (leBytes 8 w.toNat) = (v, none) → exec (.atomic rx e w) s = .next (s.framed (answered 8)))) ∧
    (s.acceptSeq rx tyWack = (s1, true) → s1.move? move.toNat = some m → m.group ≠ 16 → bytes ≠ 0 → NothingQueued s →
      exec (.wack rx move bytes) s = .next (s.framed (s1.updMove m.id (fun m => { m with
        writesOut := mapPut 0 m.writesOut rx.src.toNat (mapGet 0 m.writesOut rx.src.toNat - bytes.toNat) })))) ∧
    (s.acceptSeq rx tyPartner = (s1, true) →
      s1.manifests.find? (fun m => m.vdev == vdev && m.tag == tag && !m.phase.over) = some job →
      (st.toNat = stFault → job.ignoreFault = false →
        exec (.partner rx tag vdev st) s = .next (s.framed (s1.partnerFault job.id))) ∧
      (st.toNat = stStop ∨ st.toNat = stLimit ∨ st.toNat = stDeadline →
        exec (.partner rx tag vdev st) s = .next (s.framed (s1.partnerEnd job st.toNat))))) ∧
  (
  ∀ (i : Instr) (op : Nat) (d : BitVec 24) (c : CompChange) (rx : Rx) (r : CompRecord) (v : VDev) (roster : List RosterEntry)
    (e : Lane) (rec : Option CompRecord) (reason : Nat),
    ((i = .join d ∧ op = opJoin) ∨ (i = .activate d ∧ op = opActivate) ∨ (i = .rehost d ∧ op = opRehost) ∨
      (i = .leave d ∧ op = opLeave) ∨ (i = .dissolve d ∧ op = opDissolve) →
      let up (s : State) : Prop := s.ferryDown = false ∧ s.deferred3 = false
      let under (s : State) : Option CompChange :=
        s.comps.find? (fun c => c.record.vdev == d && c.takenUp && c.record.op == BitVec.ofNat 8 op)
      Performs i (fun s => up s ∧ under s = some c ∧ c.failed = false ∧ c.consulting = false ∧ c.votesOut = []) (fun s => s.commitChange c) ∧
      Performs i (fun s => up s ∧ under s = some c ∧ c.failed = true) (fun s => s.abortChange c) ∧
      Performs i (fun s => up s ∧ under s = none ∧ s.nextRequest d = some c ∧ c.record.op = BitVec.ofNat 8 op)
        (fun s => State.takeUp (s.comps.length + 1) s d)) ∧
    PerformsFrame (.request rx r) rx tyRequest (fun u => u.vdev? r.vdev = some v ∧ u.isKeeper v = true)
      (fun u => u.compRequest r rx.src) ∧
    PerformsFrame (.propose rx r) rx tyPropose (fun u => u.vdev? r.vdev = some v ∧ epochNewer v.epoch r.epoch = false ∧
        u.compRefusal (some v) r = none)
      (fun u => State.castVotes { u with
        proposals := u.proposals.filter (fun q => q.record.vdev != r.vdev) ++ [⟨r, rx.src, false⟩] }) ∧
    PerformsFrame (.propose rx r) rx tyPropose (fun u => u.vdev? r.vdev = some v ∧ epochNewer v.epoch r.epoch = false ∧
        u.compRefusal (some v) r = some reason) (fun u => u.castVote rx.src r reason) ∧
    PerformsFrame (.vote rx r) rx tyVote (fun u => u.comps.find? (fun c => c.takenUp && c.record.vdev == r.vdev &&
        c.record.epoch == r.epoch && (c.votesOut.contains rx.src || r.result != 0)) = some c ∧ c.consulting = false)
      (fun u => if r.result ≠ 0 then u.abortChange c else { u with comps := u.comps.map (fun x =>
        if x = c then { x with votesOut := x.votesOut.filter (· != rx.src) } else x) }) ∧
    (∀ s u : State, Operates s → s.acceptSeq rx tyCommit = (u, true) → u.vdev? r.vdev = some v → epochNewer r.epoch v.epoch = true →
      let w := u.applyCommit r roster
      exec (.compCommit rx r roster) s = .next (s.framed (State.dropForeign (State.afterLiveness { w with
        vdevs := w.vdevs.map (fun v => if v.number = r.vdev then { v with vdLat := r.vdLat.toNat } else v) } u)))) ∧
    PerformsFrame (.compAbort rx r) rx tyAbort (fun _ => True)
      (fun u => { u with proposals := u.proposals.filter (fun q => q.record.vdev != r.vdev) }) ∧
    PerformsFrame (.reply rx r) rx tyReply (fun _ => True) (fun u => u.finishCompose r.tag r.result.toNat r.epoch) ∧
    PerformsFrame (.rosterSync rx d e rec) rx tySync (fun u => u.vdev? d = some v ∧ v.syncOut.contains rx.src = false)
      (fun u => u.sendSeq rx.src tySync 0 (syncBytes d v.epoch (match v.lastCommit with
        | some c => if epochNewer c.epoch e then some c else none
        | none => none)) none)) ∧
  (
  ∀ (rx : Rx) (rec : HandoffRecord) (h : Handoff) (d : HoDispute) (new : Bool) (v : Lane) (i : Fin 64) (slot : SlotId) (seq : BitVec 20),
    let fresh (u : State) : Prop := u.hoOutcome? rec.hid rec.holder = none
    PerformsFrame (.hoOffer rx rec) rx tyOffer (fun u => fresh u ∧ u.epochOld rec = false ∧ rec.pairs.all (fun p => u.destOk p.2) = true)
      (fun u => { u with handoffsTaken := u.handoffsTaken ++ [⟨rec, .copying, 0, false, false, 0, 0⟩] }) ∧
    PerformsFrame (.hoOffer rx rec) rx tyOffer (fun u => fresh u ∧ u.epochOld rec = false ∧ rec.pairs.all (fun p => u.destOk p.2) = false)
      (fun u => State.keepOutcome (u.sendHo rx.src tyRefuse rec 0) rec 1) ∧
    (∀ s u : State, Operates s → s.ferryDown = false → rec.holder ≠ s.landing → s.takenBy? rec.hid rec.holder = some h →
      h.state = .copying → h.record.pairs.all (fun p => s.destOk p.2) = true → s.copyPairs h.record = (u, none) →
      exec (.handoffCopyDone rec.hid rec.holder) s = .next (s.framed (State.updTaken (u.sendHo rec.holder tyTake h.record 0)
        rec.hid rec.holder (fun h => { h with state := .taking, timer := s.beat + hoTimerBeats, copied := true })))) ∧
    PerformsFrame (.hoTake rx rec) rx tyTake (fun u => fresh u ∧ u.heldBy? rec.hid = some h ∧ u.epochOld rec = false ∧ h.state = .offered ∧
        h.record.taker = rx.src)
      (fun u => State.updHeld (u.sendHo rx.src tyAck h.record 0) rec.hid (fun h =>
        { h with state := .handed, acked := true, timer := u.beat + hoTimerBeats })) ∧
    PerformsFrame (.hoAck rx rec) rx tyAck (fun u => fresh u ∧ u.takenBy? rec.hid rec.holder = some h ∧ h.state = .taking ∧
        h.record.holder = rx.src)
      (fun u => State.keepOutcome ((u.sendHo rx.src tyDone h.record 0).dropTaken h) h.record 0) ∧
    PerformsFrame (.hoDone rx rec) rx tyDone (fun u => fresh u ∧ u.heldBy? rec.hid = some h ∧ h.state = .handed ∧ h.record.taker = rx.src)
      (fun u => State.finishTakes (u.updHeld rec.hid (fun h => { h with copied := true }))) ∧
    PerformsFrame (.hoRefuse rx rec) rx tyRefuse (fun u => fresh u ∧ u.heldBy? rec.hid = some h ∧ h.state = .offered ∧ h.record.taker = rx.src)
      (fun u => u.endHandoffOld h hoRefused) ∧
    PerformsFrame (.hoReport rx rec) rx tyReport (fun u => fresh u ∧ u.hoKeeper rec = some u.landing ∧
        (rx.src = rec.holder ∨ rx.src = rec.taker))
      (fun u => u.keeperReport rec rx.src rec.info.toNat) ∧
    PerformsFrame (.hoDecide rx rec) rx tyDecide (fun u => fresh u ∧ u.dispute? rec.hid rec.holder = none ∧ rec.taker = u.landing ∧
        rec.holder ≠ u.landing)
      (fun u => State.sendHo (u.applyDecision rec (rec.info.toNat % 2)) rx.src tyReport rec 0) ∧
    Performs (.handoffTimer rec.hid rec.holder true) (fun s => s.ferryDown = false ∧ s.heldBy? rec.hid = some h ∧ rec.holder = s.landing ∧
        h.copied = false ∧ (h.state = .offered ∨ h.state = .handed) ∧ h.timer ≤ s.beat)
      (fun s => State.sendReport (State.countReg (s.updHeld rec.hid (fun h => { h with state := .disputed })) R_ROS_HO_DISPUTED) h.record) ∧
    Performs (.handoffTimer rec.hid rec.holder false) (fun s => s.ferryDown = false ∧ s.takenBy? rec.hid rec.holder = some h ∧
        h.state = .taking ∧ h.timer ≤ s.beat)
      (fun s => State.sendReport (State.countReg (s.updTaken rec.hid rec.holder (fun h => { h with state := .disputed }))
        R_ROS_HO_DISPUTED) h.record) ∧
    Performs (.reportRepeat rec.hid rec.holder true) (fun s => s.ferryDown = false ∧ s.heldBy? rec.hid = some h ∧ rec.holder = s.landing ∧
        h.state = .disputed) (fun s => s.sendReport h.record) ∧
    Performs (.reportRepeat rec.hid rec.holder false) (fun s => s.ferryDown = false ∧ s.takenBy? rec.hid rec.holder = some h ∧
        h.state = .disputed) (fun s => s.sendReport h.record) ∧
    Performs (.keeperQueryTimeout rec.hid rec.holder) (fun s => s.dispute? rec.hid rec.holder = some d ∧ d.decided = none ∧
        d.since + 1000000 ≤ s.beat) (fun s => s.decideDispute d) ∧
    Performs (.decideRepeat rec.hid rec.holder) (fun s => s.dispute? rec.hid rec.holder = some d ∧ d.decided = some new)
      (fun s =>
        if ([d.record.holder, d.record.taker].filter s.isLive).all d.applied.contains && decide (d.since + 10000000 ≤ s.beat) then
          { s with hoDisputes := s.hoDisputes.filter (fun x => x != d) }
        else s.sendDecide d new) ∧
    Performs (.rosLostClear v) (fun s => s.hostReaches R_ROS_LOST_CLEAR = true ∧ v.getLsbD 7 = false ∧ bits v.toNat 5 0 = i.val ∧
        s.lost[i] = some (slot, seq))
      (fun s => { s.freeSeq slot.val seq.toNat with lost := (s.freeSeq slot.val seq.toNat).lost.set i none })) ∧
  (
  ∀ (fast squash remove : Bool) (modules : BitVec 4) (v : Lane) (w : Word) (vec : Fin 64) (i : Fin 64) (c : Instr) (n : Nat) (x : InstCmd),
    Performs (.hostLinkUp fast modules) (fun s => s.misused = none ∧ s.hostUp = false ∧ s.linkMayTrain = true ∧
        trainModules modules.toNat ≠ [] ∧ ∀ h ∈ s.hostHeld, h.publishes = true)
      (fun s => s.linkUp fast (trainModules modules.toNat)) ∧
    Performs .hostLinkDown (fun s => s.hostUp = true) (fun s => s.hostDown) ∧
    Performs .hostLinkTimeout (fun s => s.hostUp = false ∧ s.linkBw ≠ 0 ∧ s.hostDownAt + 100000000 ≤ s.beat)
      (fun s => State.squashAll { s with hostHeld := s.hostHeld.filter (fun w => !w.publishes) } false) ∧
    Performs (.retrain v) (fun s => s.hostReaches R_HST_LINK_CTRL = true)
      (fun s =>
        let u := s.setRegField R_HST_LINK_CTRL 1 1 (bits v.toNat 1 1)
        if v.getLsbD 0 then u.hostDown else u) ∧
    Performs (.irqModerationExpire vec) (fun s => s.irqDeferred.contains vec.val = true ∧ s.hostUp = true ∧
        ∀ t, mapGet none s.irqLast vec.val = some t → t + 1000 * s.regField R_HST_IRQ_MOD 15 0 ≤ s.beat)
      (fun s => { s with irqDeferred := s.irqDeferred.filter (fun x => x != vec.val), irqLast := mapPut none s.irqLast vec.val (some s.beat)
                         out := s.out ++ s.vectorOuts vec.val }) ∧
    Performs (.devModeWrite v) (fun s => s.hostReaches R_DEV_MODE = true ∧ v.getLsbD 31 = false ∧ bits v.toNat 1 0 ≠ s.sharing ∧
        bits v.toNat 1 0 ≠ 3 ∧ s.modeIdle = true)
      (fun s => State.resetInstances (s.setRegField R_DEV_MODE 1 0 (bits v.toNat 1 0)) (bits v.toNat 1 0)) ∧
    Performs (.instanceWrite i w) (fun s => s.hostReaches (instReg i.val) = true) (fun s => s.writeInst i.val w) ∧
    ((c = .resetDrain i ∧ squash = false ∧ remove = false) ∨ (c = .resetSquash i ∧ squash = true ∧ remove = false) ∨
        (c = .removeDrain i ∧ squash = false ∧ remove = true) ∨ (c = .removeSquash i ∧ squash = true ∧ remove = true) →
      Performs c (fun s => s.hostReaches R_HST_INST_CMD = true ∧ s.instCmds = [] ∧ s.instValid i.val = true)
        (fun s => s.beginInst i.val squash remove)) ∧
    Performs .cxlReset (fun s => s.hostUp = true) (fun s => s.squashAll false) ∧
    Performs (.functionLevelReset i) (fun s => s.hostUp = true ∧ s.sharing = modeMediated ∧ s.instValid i.val = true ∧ s.instCmds = [])
      (fun s => s.beginInst i.val true false) ∧
    Performs .vfEnableClear (fun s => s.hostUp = true ∧ s.sharing = modeMediated ∧ s.vfCount ≠ 0)
      (fun s => State.squashAll { s with vfCount := 0 } true) ∧
    Performs (.vfEnableSet n) (fun s => s.hostUp = true ∧ s.sharing = modeMediated ∧ s.vfCount = 0 ∧ n ≤ 64 ∧ s.instCmds = [])
      (fun s => (List.range n).foldl (fun s i => if s.instCmds.any (fun c => c.inst == i) then s
        else (s.setRegField (instReg i) 63 63 1).setInstState i instRunning) { s with vfCount := n }) ∧
    Performs (.instanceCommandDone i) (fun s => s.instCmds.find? (fun c => c.inst == i.val) = some x ∧ s.cmdReady x = true)
      (fun s => s.endInst x)) ∧
  (
  ∀ (rx : Rx) (w f : BitVec 16) (e : Word) (slot : SlotId) (y : BitVec 32) (d : VDev) (k : Landing) (vdev : BitVec 24) (v : Lane)
    (l : Landing) (die : Fin 2) (fit : Fin 25) (p : PartId) (c : BitVec 8) (x : Nat),
    let compute (s : State) : Prop := d.members.any (fun m => !m.store && (match m.host with
      | some h => h.1 == s.landing
      | none => false)) = true
    PerformsFrame (.rackGrant rx w f e) rx tyGrant
      (fun u => rackLanding u ≠ 0 ∧ rx.src = rackLanding u ∧ f.toNat ≤ w.toNat ∧ w.toNat ≤ 1000)
      (fun u => State.applyGrants (State.setRegField { u with power := { u.power with
          lastGrant := u.beat
          pendingG := u.power.pendingG ++ [(if w.toNat < grantW u then max e.toNat (u.beat + 250000) else e.toNat, w.toNat)]
          pendingF := u.power.pendingF ++ [(e.toNat, f.toNat)] } } R_PWR_STATUS 29 29 0)) ∧
    Performs .grantEffective (fun _ => True) (fun s => s.applyGrants) ∧
    Performs .rackTimeout (fun s => s.power.lastGrant + 1000 * s.regField R_PWR_RACK 15 0 ≤ s.beat)
      (fun s => (s.setGrant (floorW s) (floorW s)).setRegField R_PWR_STATUS 29 29 1) ∧
    Performs .rackReportTimer (fun s => rackLanding s ≠ 0) (fun s => s.sendSeq (rackLanding s) tyGrant 0
      (grantBytes subReport (budgetW s) (heldFloorW s) 0 s.beat 0 s.windowPower (s.reg R_PWR_ENERGY_DEVICE)) none) ∧
    Performs (.slackInterval [(slot, y)]) (fun s => s.shiftEn = true ∧ s.vdevs = [d] ∧ d.slot = some slot ∧ compute s ∧
        s.keeper d = some s.landing) (fun s => (s.noteSlack d.number s.landing y.toNat).orderLoans d) ∧
    Performs (.slackInterval [(slot, y)]) (fun s => s.shiftEn = true ∧ s.vdevs = [d] ∧ d.slot = some slot ∧ compute s ∧
        s.keeper d = some k ∧ k ≠ s.landing)
      (fun s => s.sendSeq k tyGrant 0 (grantBytes subSlack 0 0 0 s.beat d.number.toNat y.toNat 0) none) ∧
    PerformsFrame (.slack rx vdev v) rx tyGrant (fun u => u.vdev? vdev = some d ∧ u.isKeeper d = true)
      (fun u => u.noteSlack vdev rx.src v.toNat) ∧
    PerformsFrame (.loanOrder rx vdev l) rx tyGrant (fun u => u.vdev? vdev = some d ∧ d.slot = some slot ∧ u.shiftEn = true ∧ u.canLend = true)
      (fun u =>
        let expiry := u.beat + 200000
        let back := expiry + u.regField (R_SUB_LINKLAT + 4 * slot.val) 31 0
        (State.showBudget { u with power := { u.power with lent := u.power.lent ++ [(back, 1)] } }).sendSeq l tyGrant 0
          (grantBytes subLoan 1 0 0 expiry vdev.toNat 0 0) none) ∧
    PerformsFrame (.loan rx vdev e) rx tyGrant (fun u => u.shiftEn = true ∧ u.vdev? vdev = some d ∧ u.beat < e.toNat ∧
        borrowedW u + 1 ≤ u.regField R_PWR_SHIFT 15 0 ∧ grantW u + borrowedW u + 1 - lentW u ≤ 1000)
      (fun u => State.showBudget { u with power := { u.power with borrowed := u.power.borrowed ++ [e.toNat] } }) ∧
    Performs .loanExpire (fun _ => True) (fun s => State.showBudget { s with power := { s.power with
      borrowed := s.power.borrowed.filter (fun t => decide (s.beat < t)) } }) ∧
    Performs .lentExpire (fun _ => True) (fun s => State.showBudget { s with power := { s.power with
      lent := s.power.lent.filter (fun p => decide (s.beat < p.1)) } }) ∧
    Performs (.railChoice die fit) (fun _ => True) (fun s =>
      let goal := railGoal s die fit.val
      let u := State.showShort (s.tick.setRegField R_PWR_POWER 31 16 ((Config.needW s.free).toNat + sumReserve s))
      { u with power := { u.power with
        railTarget := mapPut 0 u.power.railTarget die.val goal
        settling := mapPut false u.power.settling die.val (goal != railStep s die) } }) ∧
    Performs (.railStepSettled die) (fun s => mapGet false s.power.settling die.val = true ∧
        mapGet 0 s.power.railTarget die.val ≠ railStep s die)
      (fun s =>
        let goal := mapGet 0 s.power.railTarget die.val
        let next := if railStep s die < goal then railStep s die + 1 else railStep s die - 1
        { s.setRegField (dieReg die) 20 16 next with
          power := { s.power with settling := mapPut false s.power.settling die.val (next != goal) } }) ∧
    Performs (.pwrCommit v) (fun s => s.hostReaches R_PWR_COMMIT = true ∧ v.getLsbD 0 = true ∧ pwrCommitOk s = true)
      (fun s =>
        let t := pwrShadowed.foldl (fun (t : State) r => r.2.foldl (fun t b =>
          t.setRegField r.1 b.1 b.2 (shadField s r.1 b.1 b.2)) t) s.refillAll
        let raised := allParts.any (fun p => decide (10 * t.regField (R_PWR_PART + 16 * p.val) 15 0 < slowPace (floorStep t p)))
        State.clipBuckets (if raised then t.setRegField R_PWR_STATUS 26 26 1 else t)) ∧
    Performs (.droop p) (fun _ => True) (fun s => State.countReg (s.updPart p (fun x => { x with
      stretched := true, droopUntil := some (s.beat + 16 * s.regField R_PWR_DROOP 23 16) })) (R_PWR_DROOP_CNT + 4 * (p.val / 8))) ∧
    Performs (.droopHoldExpire p) (fun s => (s.part p).droopUntil = some x ∧ x ≤ s.beat)
      (fun s => s.updPart p (fun x => { x with stretched := false, droopUntil := none })) ∧
    Performs (.thermalOver die c) (fun s => 105 < c.toNat ∧ c.toNat ≤ 110 ∧ mapGet false s.power.thermalDie die.val = true)
      (fun s => s.showTemp die c) ∧
    Performs (.thermalOver die c) (fun s => 105 < c.toNat ∧ mapGet false s.power.thermalDie die.val = false)
      (fun s =>
        let u := ((s.showTemp die c).setRegField R_PWR_STATUS 28 28 1).addFault (FaultEntry.bare 9 1)
        let w : State := { u with
          alerts := u.alerts ||| 1, power := { u.power with thermalDie := mapPut false u.power.thermalDie die.val true } }
        let z := (dieParts die).foldl (fun s p => s.updPart p (fun x => { x with thermalCap := thermalPace })) w
        if 110 < c.toNat then { z with power := { z.power with hotDie := mapPut false z.power.hotDie die.val true } } else z) ∧
    Performs (.thermalRecover die c) (fun _ => c.toNat < 100)
      (fun s =>
        let u := (dieParts die).foldl (fun s p => s.updPart p (fun x => { x with thermalCap := 0 })) (s.showTemp die c)
        let w : State := { u with power := { u.power with
          thermalDie := mapPut false u.power.thermalDie die.val false, hotDie := mapPut false u.power.hotDie die.val false } }
        if mapGet false w.power.thermalDie 0 || mapGet false w.power.thermalDie 1 then w else w.setRegField R_PWR_STATUS 28 28 0) ∧
    Performs .thermtrip (fun s => s.power.thermTrip = false) (fun s => { s with
      power := { s.power with thermTrip := true }, alerts := s.alerts ||| 2, out := s.out ++ [.thermTrip] })) ∧
  (
  ∀ (v : Lane) (b : BerthId) (p : Peer) (x : Bundle) (r h : Nat) (bad : Option Nat),
    let cmd (s : State) (op : Nat) : State :=
      (s.setRegField R_KEY_CMD 27 24 op).setRegField R_KEY_CMD 15 0 (bits v.toNat 15 0)
    let given (s : State) (op : Nat) : Prop := s.hostReaches R_KEY_CMD = true ∧ v.getLsbD 31 = true ∧ bits v.toNat 27 24 = op ∧
      (cmd s op).keyBusy = false ∧ s.ferryDown = false
    let rooted (s : State) : Prop := s.key.rootFailed = false ∨ s.key.debug = true
    let total (c : State) : Nat :=
      ((List.range (bits (keyArg c 2) 31 0)).map (fun i => x.chunkBytes (bits (keyArg c 2) 63 32 + i))).foldl (· + ·) 0
    let opened (c : State) : State × Nat := State.openChunks x (bits (keyParam c) 15 8) bad (bits (keyArg c 2) 31 0) c
      (bits (keyArg c 2) 63 32) (keyArg c 0) (keyArg c 1)
    Performs (.install v none true true) (fun s => let c := (cmd s 0).closeMeas
        given s 0 ∧ rooted s ∧ s.key.tenant = .none ∧ c.tenantRecOk (keyArg c 0) = true)
      (fun s => let c := (cmd s 0).closeMeas
        State.keyAnswer (State.setTenant { c with key := { c.key with fabric := some (c.fabricSecret (keyArg c 0)) } }
          .installed (c.hostNat (keyArg c 0 + 8) 4)) keyOkResult 0) ∧
    Performs (.removeTenant v none) (fun s => given s 1) (fun s => (cmd s 1).beginRemoval) ∧
    Performs (.attest v none) (fun s => given s 2 ∧ rooted s) (fun s =>
      let c := (cmd s 2).closeMeas
      let body := c.reportBody (c.hostRead (keyArg c 0) 32)
      let n := c.nextRandom
      (n.1.publish (keyArg c 1) (body ++ fitBytes 1280 (Config.falconSign c.attestNode n.2 (hash 64 body))) []).keyAnswer
        keyOkResult 0) ∧
    Performs (.certs v none) (fun s => given s 3 ∧ rooted s) (fun s =>
      let c := (cmd s 3).closeMeas
      (c.tick.publish (keyArg c 1) ((List.range (bits (keyArg c 2) 31 0)).map (fun i => Config.outputByte c.free i)) []).keyAnswer
        keyOkResult 0) ∧
    Performs (.openBundle v none true true) (fun s => let c := cmd s 4
        given s 4 ∧ rooted s ∧ s.key.tenant = .installed ∧ c.bundleHeadOk (keyArg c 0) = true ∧
        (keyParam c % 256 < 200 ∨ keyParam c % 256 = 255) ∧ c.deviceRec (keyArg c 0) = some r ∧ c.hostZero (r + 0x678) 8 = true ∧
        c.openHandle = some h)
      (fun s => let c := cmd s 4
        let a := keyArg c 0
        let d : State := { c with key := { c.key with bundles := c.key.bundles.filter (fun y => y.handle != h) ++
          [⟨h, c.bundleKey a r, c.hostRead a 64, c.hostNat (a + 0x18) 1, c.hostNat (a + 0x20) 8⟩] } }
        (d.setRegField R_KEY_STATUS 15 8 h).keyAnswer keyOkResult 0) ∧
    Performs (.decrypt v none bad) (fun s => let c := cmd s 5
        given s 5 ∧ rooted s ∧ s.key.tenant = .installed ∧ c.bundle? (keyParam c % 256) = some x ∧ bits (keyArg c 2) 31 0 ≠ 0 ∧
        bits (keyArg c 2) 63 32 + bits (keyArg c 2) 31 0 ≤ x.chunks ∧ c.bundleDest (keyArg c 1) (total c) = true)
      (fun s => (opened (cmd s 5)).1.keyAnswer (opened (cmd s 5)).2 0) ∧
    Performs (.closeBundle v none) (fun s => given s 6 ∧ s.key.tenant = .installed) (fun s => let c := cmd s 6
      State.keyAnswer { c with key := { c.key with bundles := c.key.bundles.filter (fun b => b.handle != keyParam c % 256) } }
        keyOkResult 0) ∧
    Performs (.eraseDomain v none) (fun s => given s 7 ∧ s.key.tenant = .installed ∧ keyParam (cmd s 7) % 256 ≠ 0)
      (fun s => let c := cmd s 7
        let d := keyParam c % 256
        State.keyAnswer { c with key := { c.key with domGen := mapPut 0 c.key.domGen d (mapGet 0 c.key.domGen d + 1) } }
          keyOkResult 0) ∧
    Performs (.seal v none) (fun s => let c := (cmd s 8).closeMeas
        given s 8 ∧ rooted s ∧ 1 ≤ bits (keyArg c 2) 12 0 ∧ bits (keyArg c 2) 12 0 ≤ 4096)
      (fun s => let c := (cmd s 8).closeMeas
        let n := bits (keyArg c 2) 12 0
        let d := c.nextRandom
        let head := leBytes 4 c.key.sealGen ++ leBytes 4 n
        (d.1.publish (keyArg c 1) (head ++ d.2.take 12 ++
          fitBytes (n + 16) (Config.gcmSeal c.blobKey (d.2.take 12) head (c.hostRead (keyArg c 0) n))) []).keyAnswer keyOkResult 0) ∧
    Performs (.unseal v none true) (fun s => let c := (cmd s 9).closeMeas
        let n := c.hostNat (keyArg c 0 + 4) 4
        given s 9 ∧ rooted s ∧ 37 ≤ bits (keyArg c 2) 12 0 ∧ n + 36 = bits (keyArg c 2) 12 0 ∧ n ≤ 4096 ∧
        c.hostNat (keyArg c 0) 4 = c.key.sealGen)
      (fun s => let c := (cmd s 9).closeMeas
        let a := keyArg c 0
        let n := c.hostNat (a + 4) 4
        (c.publish (keyArg c 1) (fitBytes n (Config.gcmOpen c.blobKey (c.hostRead (a + 8) 12) (c.hostRead a 8)
          (c.hostRead (a + 20) (n + 16)))) []).keyAnswer keyOkResult 0) ∧
    Performs (.keyDebugEnable v) (fun s => s.hostReaches R_KEY_DEBUG = true ∧ v.getLsbD 31 = true ∧ v.getLsbD 29 = false ∧
        s.keyBusy = false ∧ s.key.tenant = .none) (fun s => s.enableDebug) ∧
    Performs (.keyThaw v) (fun s => s.hostReaches R_KEY_THAW = true ∧ v.getLsbD 31 = true ∧ bits v.toNat 30 28 = 0 ∧
        bits v.toNat 13 8 = b.val)
      (fun s => s.updBerth b (fun x => { x with frozen := x.frozen &&& ~~~((1 : BitVec 16) <<< (bits v.toNat 3 0)) })) ∧
    Performs (.keyThaw v) (fun s => s.hostReaches R_KEY_THAW = true ∧ v.getLsbD 31 = true ∧ bits v.toNat 30 28 = 3 ∧
        s.peer? (BitVec.ofNat 16 (bits v.toNat 15 0)) = some p ∧ p.frozen = true)
      (fun s => State.resetStream (s.updPeer (BitVec.ofNat 16 (bits v.toNat 15 0)) (fun p => { p with frozen := false }))
        (BitVec.ofNat 16 (bits v.toNat 15 0)) true) ∧
    Performs .removalWaitEnd (fun s => s.key.removal = 3 ∧ s.key.removalWaitFrom + 2 * s.key.removalLmax ≤ s.beat ∧
        ∀ p, (s.part p).state ≠ .resetting)
      (fun s => (s.wipe.destroyKeys.setTenant .none 0).keyAnswer keyOkResult 0)) ∧
  (
  ∀ (v : Lane) (us : Nat) (k : Landing) (line : Nat) (d : VDev) (r : HandoffRecord) (srcs : List FabricAddr) (n : Nat) (u : State),
    let run (s : State) : State := s.ferAccept accAccepted 0
    let given (s : State) (op : Nat) : Prop := s.hostReaches R_FER_REQ = true ∧ s.hostNat s.mailBlock 2 = op ∧
      s.regBit R_FER_ACCEPT 31 = false ∧ s.devState ≠ devFailed ∧ s.ferryDown = false ∧ s.blockOk s.mailBlock = true
    Performs (.seqset none) (fun s => let c := run s
        given s 1 ∧ c.argsClear s.mailBlock [(0x10, 1), (0x18, 8), (0x20, 8)] = true ∧ c.arg s.mailBlock 0x10 1 < 16 ∧
        hostAddrOk (c.arg s.mailBlock 0x18 8) 64 = true ∧ hostAddrOk (c.arg s.mailBlock 0x20 8) 32 = true ∧
        c.slotInState (c.arg s.mailBlock 0x10 1) = false)
      (fun s => let c := run s
        let slot := c.arg s.mailBlock 0x10 1
        let s1 := (c.writeBytes (slotRegion slot) 0 (c.hostRead (c.arg s.mailBlock 0x18 8) 512)).1
        let s2 := (s1.writeBytes (slotRegion slot + 0x200) 0 (c.hostRead (c.arg s.mailBlock 0x20 8) 32)).1
        (s2.zeroIndex slot).mailReply s.mailBlock mailOk []) ∧
    Performs (.retire none) (fun s => let c := run s
        given s 2 ∧ c.argsClear s.mailBlock [(0x10, 1), (0x11, 1)] = true ∧ c.arg s.mailBlock 0x10 1 < 16 ∧ c.arg s.mailBlock 0x11 1 < 15)
      (fun s => let c := run s
        (c.retireRequest (partOf (c.arg s.mailBlock 0x10 1)) (c.arg s.mailBlock 0x11 1)).mailReply s.mailBlock mailOk []) ∧
    Performs (.retireClear none) (fun s => given s 3 ∧ (run s).argsClear s.mailBlock [(0x10, 2)] = true)
      (fun s => let c := run s
        let mask := c.arg s.mailBlock 0x10 2
        ((List.range 16).foldl (fun s c => if bitAt mask c then s.flashPut (flashRetirement + 2 * c) [0, 0] else s) c).mailReply
          s.mailBlock mailOk []) ∧
    Performs (.extend none) (fun s => let c := run s
        given s 4 ∧ c.argsClear s.mailBlock [(0x10, 1), (0x20, 32)] = true ∧ 5 ≤ c.arg s.mailBlock 0x10 1 ∧
        c.arg s.mailBlock 0x10 1 ≤ 7 ∧ s.key.closed = none)
      (fun s => let c := run s
        (c.extendMeas (c.arg s.mailBlock 0x10 1) (c.hostRead (s.mailBlock + 0x20) 32)).mailReply s.mailBlock mailOk []) ∧
    Performs (.compose none) (fun s => let c := run s
        given s 5 ∧ c.arg s.mailBlock 0x15 1 = 0 ∧ c.arg s.mailBlock 0x18 4 < 2 ^ 24 ∧ c.arg s.mailBlock 0x20 16 = 0 ∧
        c.argsClear s.mailBlock [(0x10, 0x20), (0x30, 4)] = true ∧ c.landing ≠ 0 ∧
        c.vdev? (c.composeRec s.mailBlock).vdev = some d ∧ c.keeper d = some c.landing)
      (fun s => let c := run s
        State.compRequest { c with composeWaits := c.composeWaits ++
          [((c.composeRec s.mailBlock).tag, ⟨s.mailBlock, BitVec.ofNat 32 (c.arg s.mailBlock 4 4)⟩)] }
          (c.composeRec s.mailBlock) c.landing) ∧
    Performs (.handoff none) (fun s => let c := run s
        given s 6 ∧ c.handoffArgsOk s.mailBlock = true ∧ c.handoffsHeld.length < 16 ∧
        c.slotVdev (c.arg s.mailBlock 0x18 1) = some d ∧ BitVec.ofNat 16 (c.arg s.mailBlock 0x1C 2) ≠ c.landing ∧
        (let ds := (List.range (c.arg s.mailBlock 0x1A 2)).map (c.destEntry (c.arg s.mailBlock 0x20 8))
         c.handoffSources (c.arg s.mailBlock 0x18 1) ⟨c.nextHid + 1, c.landing, BitVec.ofNat 16 (c.arg s.mailBlock 0x1C 2),
          BitVec.ofNat 64 (c.arg s.mailBlock 0x10 8), BitVec.ofNat 16 (c.arg s.mailBlock 0x1A 2),
          BitVec.ofNat 8 (c.arg s.mailBlock 0x19 1), 0, d.epoch, d.number, [], 0, ds.map (·.2)⟩ = (u, some (srcs, n)) ∧
         r = ⟨c.nextHid + 1, c.landing, BitVec.ofNat 16 (c.arg s.mailBlock 0x1C 2),
          BitVec.ofNat 64 (c.arg s.mailBlock 0x10 8), BitVec.ofNat 16 (c.arg s.mailBlock 0x1A 2),
          BitVec.ofNat 8 (c.arg s.mailBlock 0x19 1), 0, d.epoch, d.number, srcs.zip (ds.map (·.1)), n, ds.map (·.2)⟩))
      (fun s =>
        let slot := (run s).arg s.mailBlock 0x18 1
        let w := u.transitEntries slot r
        State.sendSeq { w with
          handoffsHeld := w.handoffsHeld ++ [⟨r, .offered, (run s).beat + hoTimerBeats, false, false, s.mailBlock, slot⟩]
          nextHid := w.nextHid + 1 } (BitVec.ofNat 16 ((run s).arg s.mailBlock 0x1C 2)) tyOffer 0 (handoffBytes r) none) ∧
    Performs (.fwWrite none true true) (fun s => let c := run s
        given s 7 ∧ c.argsClear s.mailBlock [(0x10, 8), (0x18, 4), (0x1C, 1)] = true ∧
        hostAddrOk (c.arg s.mailBlock 0x10 8) 4096 = true ∧ c.arg s.mailBlock 0x18 4 ≤ slotBytes ∧ c.hasRecord = false)
      (fun s => let c := run s
        let k := 1 - c.slotInUse
        let s1 : State := { c with flash := mapClear c.flash (slotBase k) (slotBase k + slotBytes) }
        let s2 := s1.flashPut (slotBase k) (s1.hostRead (c.arg s.mailBlock 0x10 8) (s1.arg s.mailBlock 0x18 4))
        (s2.flashPut (slotBase k + 0x10) (leBytes 4 commitWord)).mailReply s.mailBlock mailOk [(0x1C, leBytes 1 k)]) ∧
    Performs (.cfgWrite none true true) (fun s => let c := run s
        let a := c.arg s.mailBlock 0x10 8
        given s 8 ∧ c.argsClear s.mailBlock [(0x10, 8)] = true ∧ hostAddrOk a 64 = true ∧
        c.hostNat (a + 8) 8 = (c.reg R_DEV_SERIAL).toNat ∧ c.hasRecord = false ∧ c.recordFormatOk a = true)
      (fun s => let c := run s
        (c.flashPut flashConfig (c.hostRead (c.arg s.mailBlock 0x10 8) configBytes)).mailReply s.mailBlock mailOk []) ∧
    (∀ (op : Nat) (i : Instr) (data : State → List Byte),
      (op = 9 ∧ i = .journalRead none ∧ data = fun c => mapRead 0 c.flash flashJournal 2048) ∨
      (op = 10 ∧ i = .faultSummary none ∧ data = fun c => c.startSummary) ∨
      (op = 11 ∧ i = .telemetry none ∧ data = State.telemetryBytes) →
      Performs i (fun s => let c := run s
          given s op ∧ s.regBit R_FER_STATUS 20 = false ∧ c.argsClear s.mailBlock [(0x10, 8)] = true ∧
          hostAddrOk (c.arg s.mailBlock 0x10 8) 64 = true)
        (fun s => let c := run s
          (c.publish (c.arg s.mailBlock 0x10 8) (data c) []).mailReply s.mailBlock mailOk [])) ∧
    Performs (.ferRestart v) (fun s => s.hostReaches R_FER_RESTART = true ∧ v.getLsbD 31 = true ∧ s.devUp = true)
      (fun s => s.ferryRestart) ∧
    Performs .ferryHeartbeat (fun s => s.ferState = ferRunning ∧ s.ferryDown = false ∧ s.ferryUe = none)
      (fun s => s.setReg R_FER_HEARTBEAT (BitVec.ofNat 64 (((s.reg R_FER_HEARTBEAT).toNat + 1) % 2 ^ 32))) ∧
    Performs (.ferryShed us) (fun _ => True)
      (fun s => s.setRegField R_FER_STATUS 21 20 ((if 100 < us then 1 else 0) + (if 500 < us then 2 else 0)))) ∧
  (
  ∀ (a : CoreOp) (s u : State) (k : KernelSlot) (m : Manifest) (e : BlockEntry),
    let key : Nat := (opX a (s.core a.core)).toNat
    let count : Nat := (opY a (s.core a.core)).toNat
    let name := blockName m.vslot.val key
    let cls : Nat := opImm a 3 0
    let finish (r : State × Nat × Nat) : State := s.framed (s.applyBody a.core 1 (sbFinish a m (keySeq key) r))
    let tree : BlockName := { name with block := treeBlock0 }
    s.running a.core = some (k, m) → keyOk key = true → keyLine key = 0 → s.seqLost m.vslot.val (keySeq key) = false →
    (s.part 0).state ≠ .resetting →
    (Dispatches s a (sbForm (noSrc2 a && immBelow a 4)) → s.spanWaits m.vslot.val key [(keyBlock key, keyBlock key)] = false →
      s.allocWaits [name] name.slot cls = false →
      exec (.sbnew a) s = .next (finish (sbRange (fun s n => s.sbnewOne n cls) 1 s name sbOk 0))) ∧
    (Dispatches s a (sbForm (noImm a)) → s.spanWaits m.vslot.val key [(keyBlock key, keyBlock key + count - 1)] = false →
      sbRangeOk (keyBlock key) count = true →
      exec (.sbcmt a) s = .next (finish (sbRange (fun s n => s.sbcmtOne n) count s name sbOk 0)) ∧
      exec (.sbfree a) s = .next (finish (sbRange (fun s n => s.sbfreeOne n) count s name sbOk 0))) ∧
    (Dispatches s a (sbForm (immBelow a 4)) → s.spanWaits m.vslot.val key [treeRange] = false → 1 ≤ count → count ≤ 64 →
      keyBlock key = 0 → s.allocWaits ((List.range (ceilDiv count 16)).map (fun i => { tree with block := treeBlock0 + i })) name.slot
        cls = false →
      exec (.stree a) s = .next (finish (sbRange (fun s n => s.sbnewOne n cls) (ceilDiv count 16) s tree sbOk 0))) ∧
    (Dispatches s a (sbForm (noSrc2 a && noImm a)) → s.spanWaits m.vslot.val key [(keyBlock key, keyBlock key)] = false →
      s.lookup name = (u, .entry e) →
      exec (.sbstat a) s = .next (s.framed (s.applyBody a.core 1 (.next (State.noteSeqs (u.updCore a.core (fun x =>
        x.setS a.dst (BitVec.ofNat 64 (4 * e.cls + if e.state = stInTransit then stCommitted else e.state)))) m.id [keySeq key]))))))
end

