-- ==== Sys2Proof/Laws/State.lean ====
section
/-! SUPPORT. What each update of the state leaves: one lemma a field. -/

namespace Sys2Proof.Machine

variable (s : State)

@[simp] theorem State.setCore_pending (c : CoreId) (x : CoreSt) : (s.setCore c x).pending = s.pending := rfl
@[simp] theorem State.setCore_powered (c : CoreId) (x : CoreSt) : (s.setCore c x).powered = s.powered := rfl
@[simp] theorem State.setCore_supplyBroken (c : CoreId) (x : CoreSt) : (s.setCore c x).supplyBroken = s.supplyBroken := rfl
@[simp] theorem State.setCore_beat (c : CoreId) (x : CoreSt) : (s.setCore c x).beat = s.beat := rfl
@[simp] theorem State.setCore_regs (c : CoreId) (x : CoreSt) : (s.setCore c x).regs = s.regs := rfl
@[simp] theorem State.setCore_shadow (c : CoreId) (x : CoreSt) : (s.setCore c x).shadow = s.shadow := rfl
@[simp] theorem State.setCore_busRead (c : CoreId) (x : CoreSt) : (s.setCore c x).busRead = s.busRead := rfl
@[simp] theorem State.setCore_parts (c : CoreId) (x : CoreSt) : (s.setCore c x).parts = s.parts := rfl
@[simp] theorem State.setCore_mem (c : CoreId) (x : CoreSt) : (s.setCore c x).mem = s.mem := rfl
@[simp] theorem State.setCore_lineErrors (c : CoreId) (x : CoreSt) : (s.setCore c x).lineErrors = s.lineErrors := rfl
@[simp] theorem State.setCore_lineKeys (c : CoreId) (x : CoreSt) : (s.setCore c x).lineKeys = s.lineKeys := rfl
@[simp] theorem State.setCore_host (c : CoreId) (x : CoreSt) : (s.setCore c x).host = s.host := rfl
@[simp] theorem State.setCore_hostUp (c : CoreId) (x : CoreSt) : (s.setCore c x).hostUp = s.hostUp := rfl
@[simp] theorem State.setCore_linkBw (c : CoreId) (x : CoreSt) : (s.setCore c x).linkBw = s.linkBw := rfl
@[simp] theorem State.setCore_hostDownAt (c : CoreId) (x : CoreSt) : (s.setCore c x).hostDownAt = s.hostDownAt := rfl
@[simp] theorem State.setCore_hostHeld (c : CoreId) (x : CoreSt) : (s.setCore c x).hostHeld = s.hostHeld := rfl
@[simp] theorem State.setCore_flash (c : CoreId) (x : CoreSt) : (s.setCore c x).flash = s.flash := rfl
@[simp] theorem State.setCore_ueList (c : CoreId) (x : CoreSt) : (s.setCore c x).ueList = s.ueList := rfl
@[simp] theorem State.setCore_moves (c : CoreId) (x : CoreSt) : (s.setCore c x).moves = s.moves := rfl
@[simp] theorem State.setCore_nextMove (c : CoreId) (x : CoreSt) : (s.setCore c x).nextMove = s.nextMove := rfl
@[simp] theorem State.setCore_colls (c : CoreId) (x : CoreSt) : (s.setCore c x).colls = s.colls := rfl
@[simp] theorem State.setCore_held (c : CoreId) (x : CoreSt) : (s.setCore c x).held = s.held := rfl
@[simp] theorem State.setCore_nextHeld (c : CoreId) (x : CoreSt) : (s.setCore c x).nextHeld = s.nextHeld := rfl
@[simp] theorem State.setCore_cache (c : CoreId) (x : CoreSt) : (s.setCore c x).cache = s.cache := rfl
@[simp] theorem State.setCore_fences (c : CoreId) (x : CoreSt) : (s.setCore c x).fences = s.fences := rfl
@[simp] theorem State.setCore_resident (c : CoreId) (x : CoreSt) : (s.setCore c x).resident = s.resident := rfl
@[simp] theorem State.setCore_remotePages (c : CoreId) (x : CoreSt) : (s.setCore c x).remotePages = s.remotePages := rfl
@[simp] theorem State.setCore_pageMirrors (c : CoreId) (x : CoreSt) : (s.setCore c x).pageMirrors = s.pageMirrors := rfl
@[simp] theorem State.setCore_bins (c : CoreId) (x : CoreSt) : (s.setCore c x).bins = s.bins := rfl
@[simp] theorem State.setCore_freed (c : CoreId) (x : CoreSt) : (s.setCore c x).freed = s.freed := rfl
@[simp] theorem State.setCore_nextFreed (c : CoreId) (x : CoreSt) : (s.setCore c x).nextFreed = s.nextFreed := rfl
@[simp] theorem State.setCore_lost (c : CoreId) (x : CoreSt) : (s.setCore c x).lost = s.lost := rfl
@[simp] theorem State.setCore_lostAll (c : CoreId) (x : CoreSt) : (s.setCore c x).lostAll = s.lostAll := rfl
@[simp] theorem State.setCore_mapLost (c : CoreId) (x : CoreSt) : (s.setCore c x).mapLost = s.mapLost := rfl
@[simp] theorem State.setCore_manifests (c : CoreId) (x : CoreSt) : (s.setCore c x).manifests = s.manifests := rfl
@[simp] theorem State.setCore_nextManifest (c : CoreId) (x : CoreSt) : (s.setCore c x).nextManifest = s.nextManifest := rfl
@[simp] theorem State.setCore_admitOrder (c : CoreId) (x : CoreSt) : (s.setCore c x).admitOrder = s.admitOrder := rfl
@[simp] theorem State.setCore_berths (c : CoreId) (x : CoreSt) : (s.setCore c x).berths = s.berths := rfl
@[simp] theorem State.setCore_arbs (c : CoreId) (x : CoreSt) : (s.setCore c x).arbs = s.arbs := rfl
@[simp] theorem State.setCore_peers (c : CoreId) (x : CoreSt) : (s.setCore c x).peers = s.peers := rfl
@[simp] theorem State.setCore_routes (c : CoreId) (x : CoreSt) : (s.setCore c x).routes = s.routes := rfl
@[simp] theorem State.setCore_vdevs (c : CoreId) (x : CoreSt) : (s.setCore c x).vdevs = s.vdevs := rfl
@[simp] theorem State.setCore_comps (c : CoreId) (x : CoreSt) : (s.setCore c x).comps = s.comps := rfl
@[simp] theorem State.setCore_proposals (c : CoreId) (x : CoreSt) : (s.setCore c x).proposals = s.proposals := rfl
@[simp] theorem State.setCore_composeWaits (c : CoreId) (x : CoreSt) : (s.setCore c x).composeWaits = s.composeWaits := rfl
@[simp] theorem State.setCore_handoffsHeld (c : CoreId) (x : CoreSt) : (s.setCore c x).handoffsHeld = s.handoffsHeld := rfl
@[simp] theorem State.setCore_handoffsTaken (c : CoreId) (x : CoreSt) : (s.setCore c x).handoffsTaken = s.handoffsTaken := rfl
@[simp] theorem State.setCore_hoDisputes (c : CoreId) (x : CoreSt) : (s.setCore c x).hoDisputes = s.hoDisputes := rfl
@[simp] theorem State.setCore_hoOutcomes (c : CoreId) (x : CoreSt) : (s.setCore c x).hoOutcomes = s.hoOutcomes := rfl
@[simp] theorem State.setCore_nextHid (c : CoreId) (x : CoreSt) : (s.setCore c x).nextHid = s.nextHid := rfl
@[simp] theorem State.setCore_discovery (c : CoreId) (x : CoreSt) : (s.setCore c x).discovery = s.discovery := rfl
@[simp] theorem State.setCore_ports (c : CoreId) (x : CoreSt) : (s.setCore c x).ports = s.ports := rfl
@[simp] theorem State.setCore_ptp (c : CoreId) (x : CoreSt) : (s.setCore c x).ptp = s.ptp := rfl
@[simp] theorem State.setCore_saPending (c : CoreId) (x : CoreSt) : (s.setCore c x).saPending = s.saPending := rfl
@[simp] theorem State.setCore_faults (c : CoreId) (x : CoreSt) : (s.setCore c x).faults = s.faults := rfl
@[simp] theorem State.setCore_lastFaults (c : CoreId) (x : CoreSt) : (s.setCore c x).lastFaults = s.lastFaults := rfl
@[simp] theorem State.setCore_startSummary (c : CoreId) (x : CoreSt) : (s.setCore c x).startSummary = s.startSummary := rfl
@[simp] theorem State.setCore_faultSeq (c : CoreId) (x : CoreSt) : (s.setCore c x).faultSeq = s.faultSeq := rfl
@[simp] theorem State.setCore_faultMirrored (c : CoreId) (x : CoreSt) : (s.setCore c x).faultMirrored = s.faultMirrored := rfl
@[simp] theorem State.setCore_faultConsumed (c : CoreId) (x : CoreSt) : (s.setCore c x).faultConsumed = s.faultConsumed := rfl
@[simp] theorem State.setCore_key (c : CoreId) (x : CoreSt) : (s.setCore c x).key = s.key := rfl
@[simp] theorem State.setCore_power (c : CoreId) (x : CoreSt) : (s.setCore c x).power = s.power := rfl
@[simp] theorem State.setCore_instCmds (c : CoreId) (x : CoreSt) : (s.setCore c x).instCmds = s.instCmds := rfl
@[simp] theorem State.setCore_vfCount (c : CoreId) (x : CoreSt) : (s.setCore c x).vfCount = s.vfCount := rfl
@[simp] theorem State.setCore_brtServed (c : CoreId) (x : CoreSt) : (s.setCore c x).brtServed = s.brtServed := rfl
@[simp] theorem State.setCore_irqLast (c : CoreId) (x : CoreSt) : (s.setCore c x).irqLast = s.irqLast := rfl
@[simp] theorem State.setCore_irqDeferred (c : CoreId) (x : CoreSt) : (s.setCore c x).irqDeferred = s.irqDeferred := rfl
@[simp] theorem State.setCore_start (c : CoreId) (x : CoreSt) : (s.setCore c x).start = s.start := rfl
@[simp] theorem State.setCore_ferryDown (c : CoreId) (x : CoreSt) : (s.setCore c x).ferryDown = s.ferryDown := rfl
@[simp] theorem State.setCore_ceLimit (c : CoreId) (x : CoreSt) : (s.setCore c x).ceLimit = s.ceLimit := rfl
@[simp] theorem State.setCore_tracing (c : CoreId) (x : CoreSt) : (s.setCore c x).tracing = s.tracing := rfl
@[simp] theorem State.setCore_trace (c : CoreId) (x : CoreSt) : (s.setCore c x).trace = s.trace := rfl
@[simp] theorem State.setCore_alerts (c : CoreId) (x : CoreSt) : (s.setCore c x).alerts = s.alerts := rfl
@[simp] theorem State.setCore_out (c : CoreId) (x : CoreSt) : (s.setCore c x).out = s.out := rfl
@[simp] theorem State.setCore_free (c : CoreId) (x : CoreSt) : (s.setCore c x).free = s.free := rfl
@[simp] theorem State.setCore_misused (c : CoreId) (x : CoreSt) : (s.setCore c x).misused = s.misused := rfl

@[simp] theorem State.setPart_pending (c : PartId) (x : PartSt) : (s.setPart c x).pending = s.pending := rfl
@[simp] theorem State.setPart_powered (c : PartId) (x : PartSt) : (s.setPart c x).powered = s.powered := rfl
@[simp] theorem State.setPart_supplyBroken (c : PartId) (x : PartSt) : (s.setPart c x).supplyBroken = s.supplyBroken := rfl
@[simp] theorem State.setPart_beat (c : PartId) (x : PartSt) : (s.setPart c x).beat = s.beat := rfl
@[simp] theorem State.setPart_regs (c : PartId) (x : PartSt) : (s.setPart c x).regs = s.regs := rfl
@[simp] theorem State.setPart_shadow (c : PartId) (x : PartSt) : (s.setPart c x).shadow = s.shadow := rfl
@[simp] theorem State.setPart_busRead (c : PartId) (x : PartSt) : (s.setPart c x).busRead = s.busRead := rfl
@[simp] theorem State.setPart_cores (c : PartId) (x : PartSt) : (s.setPart c x).cores = s.cores := rfl
@[simp] theorem State.setPart_mem (c : PartId) (x : PartSt) : (s.setPart c x).mem = s.mem := rfl
@[simp] theorem State.setPart_lineErrors (c : PartId) (x : PartSt) : (s.setPart c x).lineErrors = s.lineErrors := rfl
@[simp] theorem State.setPart_lineKeys (c : PartId) (x : PartSt) : (s.setPart c x).lineKeys = s.lineKeys := rfl
@[simp] theorem State.setPart_host (c : PartId) (x : PartSt) : (s.setPart c x).host = s.host := rfl
@[simp] theorem State.setPart_hostUp (c : PartId) (x : PartSt) : (s.setPart c x).hostUp = s.hostUp := rfl
@[simp] theorem State.setPart_linkBw (c : PartId) (x : PartSt) : (s.setPart c x).linkBw = s.linkBw := rfl
@[simp] theorem State.setPart_hostDownAt (c : PartId) (x : PartSt) : (s.setPart c x).hostDownAt = s.hostDownAt := rfl
@[simp] theorem State.setPart_hostHeld (c : PartId) (x : PartSt) : (s.setPart c x).hostHeld = s.hostHeld := rfl
@[simp] theorem State.setPart_flash (c : PartId) (x : PartSt) : (s.setPart c x).flash = s.flash := rfl
@[simp] theorem State.setPart_ueList (c : PartId) (x : PartSt) : (s.setPart c x).ueList = s.ueList := rfl
@[simp] theorem State.setPart_moves (c : PartId) (x : PartSt) : (s.setPart c x).moves = s.moves := rfl
@[simp] theorem State.setPart_nextMove (c : PartId) (x : PartSt) : (s.setPart c x).nextMove = s.nextMove := rfl
@[simp] theorem State.setPart_colls (c : PartId) (x : PartSt) : (s.setPart c x).colls = s.colls := rfl
@[simp] theorem State.setPart_held (c : PartId) (x : PartSt) : (s.setPart c x).held = s.held := rfl
@[simp] theorem State.setPart_nextHeld (c : PartId) (x : PartSt) : (s.setPart c x).nextHeld = s.nextHeld := rfl
@[simp] theorem State.setPart_cache (c : PartId) (x : PartSt) : (s.setPart c x).cache = s.cache := rfl
@[simp] theorem State.setPart_fences (c : PartId) (x : PartSt) : (s.setPart c x).fences = s.fences := rfl
@[simp] theorem State.setPart_resident (c : PartId) (x : PartSt) : (s.setPart c x).resident = s.resident := rfl
@[simp] theorem State.setPart_remotePages (c : PartId) (x : PartSt) : (s.setPart c x).remotePages = s.remotePages := rfl
@[simp] theorem State.setPart_pageMirrors (c : PartId) (x : PartSt) : (s.setPart c x).pageMirrors = s.pageMirrors := rfl
@[simp] theorem State.setPart_bins (c : PartId) (x : PartSt) : (s.setPart c x).bins = s.bins := rfl
@[simp] theorem State.setPart_freed (c : PartId) (x : PartSt) : (s.setPart c x).freed = s.freed := rfl
@[simp] theorem State.setPart_nextFreed (c : PartId) (x : PartSt) : (s.setPart c x).nextFreed = s.nextFreed := rfl
@[simp] theorem State.setPart_lost (c : PartId) (x : PartSt) : (s.setPart c x).lost = s.lost := rfl
@[simp] theorem State.setPart_lostAll (c : PartId) (x : PartSt) : (s.setPart c x).lostAll = s.lostAll := rfl
@[simp] theorem State.setPart_mapLost (c : PartId) (x : PartSt) : (s.setPart c x).mapLost = s.mapLost := rfl
@[simp] theorem State.setPart_manifests (c : PartId) (x : PartSt) : (s.setPart c x).manifests = s.manifests := rfl
@[simp] theorem State.setPart_nextManifest (c : PartId) (x : PartSt) : (s.setPart c x).nextManifest = s.nextManifest := rfl
@[simp] theorem State.setPart_admitOrder (c : PartId) (x : PartSt) : (s.setPart c x).admitOrder = s.admitOrder := rfl
@[simp] theorem State.setPart_berths (c : PartId) (x : PartSt) : (s.setPart c x).berths = s.berths := rfl
@[simp] theorem State.setPart_arbs (c : PartId) (x : PartSt) : (s.setPart c x).arbs = s.arbs := rfl
@[simp] theorem State.setPart_peers (c : PartId) (x : PartSt) : (s.setPart c x).peers = s.peers := rfl
@[simp] theorem State.setPart_routes (c : PartId) (x : PartSt) : (s.setPart c x).routes = s.routes := rfl
@[simp] theorem State.setPart_vdevs (c : PartId) (x : PartSt) : (s.setPart c x).vdevs = s.vdevs := rfl
@[simp] theorem State.setPart_comps (c : PartId) (x : PartSt) : (s.setPart c x).comps = s.comps := rfl
@[simp] theorem State.setPart_proposals (c : PartId) (x : PartSt) : (s.setPart c x).proposals = s.proposals := rfl
@[simp] theorem State.setPart_composeWaits (c : PartId) (x : PartSt) : (s.setPart c x).composeWaits = s.composeWaits := rfl
@[simp] theorem State.setPart_handoffsHeld (c : PartId) (x : PartSt) : (s.setPart c x).handoffsHeld = s.handoffsHeld := rfl
@[simp] theorem State.setPart_handoffsTaken (c : PartId) (x : PartSt) : (s.setPart c x).handoffsTaken = s.handoffsTaken := rfl
@[simp] theorem State.setPart_hoDisputes (c : PartId) (x : PartSt) : (s.setPart c x).hoDisputes = s.hoDisputes := rfl
@[simp] theorem State.setPart_hoOutcomes (c : PartId) (x : PartSt) : (s.setPart c x).hoOutcomes = s.hoOutcomes := rfl
@[simp] theorem State.setPart_nextHid (c : PartId) (x : PartSt) : (s.setPart c x).nextHid = s.nextHid := rfl
@[simp] theorem State.setPart_discovery (c : PartId) (x : PartSt) : (s.setPart c x).discovery = s.discovery := rfl
@[simp] theorem State.setPart_ports (c : PartId) (x : PartSt) : (s.setPart c x).ports = s.ports := rfl
@[simp] theorem State.setPart_ptp (c : PartId) (x : PartSt) : (s.setPart c x).ptp = s.ptp := rfl
@[simp] theorem State.setPart_saPending (c : PartId) (x : PartSt) : (s.setPart c x).saPending = s.saPending := rfl
@[simp] theorem State.setPart_faults (c : PartId) (x : PartSt) : (s.setPart c x).faults = s.faults := rfl
@[simp] theorem State.setPart_lastFaults (c : PartId) (x : PartSt) : (s.setPart c x).lastFaults = s.lastFaults := rfl
@[simp] theorem State.setPart_startSummary (c : PartId) (x : PartSt) : (s.setPart c x).startSummary = s.startSummary := rfl
@[simp] theorem State.setPart_faultSeq (c : PartId) (x : PartSt) : (s.setPart c x).faultSeq = s.faultSeq := rfl
@[simp] theorem State.setPart_faultMirrored (c : PartId) (x : PartSt) : (s.setPart c x).faultMirrored = s.faultMirrored := rfl
@[simp] theorem State.setPart_faultConsumed (c : PartId) (x : PartSt) : (s.setPart c x).faultConsumed = s.faultConsumed := rfl
@[simp] theorem State.setPart_key (c : PartId) (x : PartSt) : (s.setPart c x).key = s.key := rfl
@[simp] theorem State.setPart_power (c : PartId) (x : PartSt) : (s.setPart c x).power = s.power := rfl
@[simp] theorem State.setPart_instCmds (c : PartId) (x : PartSt) : (s.setPart c x).instCmds = s.instCmds := rfl
@[simp] theorem State.setPart_vfCount (c : PartId) (x : PartSt) : (s.setPart c x).vfCount = s.vfCount := rfl
@[simp] theorem State.setPart_brtServed (c : PartId) (x : PartSt) : (s.setPart c x).brtServed = s.brtServed := rfl
@[simp] theorem State.setPart_irqLast (c : PartId) (x : PartSt) : (s.setPart c x).irqLast = s.irqLast := rfl
@[simp] theorem State.setPart_irqDeferred (c : PartId) (x : PartSt) : (s.setPart c x).irqDeferred = s.irqDeferred := rfl
@[simp] theorem State.setPart_start (c : PartId) (x : PartSt) : (s.setPart c x).start = s.start := rfl
@[simp] theorem State.setPart_ferryDown (c : PartId) (x : PartSt) : (s.setPart c x).ferryDown = s.ferryDown := rfl
@[simp] theorem State.setPart_ceLimit (c : PartId) (x : PartSt) : (s.setPart c x).ceLimit = s.ceLimit := rfl
@[simp] theorem State.setPart_tracing (c : PartId) (x : PartSt) : (s.setPart c x).tracing = s.tracing := rfl
@[simp] theorem State.setPart_trace (c : PartId) (x : PartSt) : (s.setPart c x).trace = s.trace := rfl
@[simp] theorem State.setPart_alerts (c : PartId) (x : PartSt) : (s.setPart c x).alerts = s.alerts := rfl
@[simp] theorem State.setPart_out (c : PartId) (x : PartSt) : (s.setPart c x).out = s.out := rfl
@[simp] theorem State.setPart_free (c : PartId) (x : PartSt) : (s.setPart c x).free = s.free := rfl
@[simp] theorem State.setPart_misused (c : PartId) (x : PartSt) : (s.setPart c x).misused = s.misused := rfl

@[simp] theorem State.setBerth_pending (c : BerthId) (x : BerthSt) : (s.setBerth c x).pending = s.pending := rfl
@[simp] theorem State.setBerth_powered (c : BerthId) (x : BerthSt) : (s.setBerth c x).powered = s.powered := rfl
@[simp] theorem State.setBerth_supplyBroken (c : BerthId) (x : BerthSt) : (s.setBerth c x).supplyBroken = s.supplyBroken := rfl
@[simp] theorem State.setBerth_beat (c : BerthId) (x : BerthSt) : (s.setBerth c x).beat = s.beat := rfl
@[simp] theorem State.setBerth_regs (c : BerthId) (x : BerthSt) : (s.setBerth c x).regs = s.regs := rfl
@[simp] theorem State.setBerth_shadow (c : BerthId) (x : BerthSt) : (s.setBerth c x).shadow = s.shadow := rfl
@[simp] theorem State.setBerth_busRead (c : BerthId) (x : BerthSt) : (s.setBerth c x).busRead = s.busRead := rfl
@[simp] theorem State.setBerth_cores (c : BerthId) (x : BerthSt) : (s.setBerth c x).cores = s.cores := rfl
@[simp] theorem State.setBerth_parts (c : BerthId) (x : BerthSt) : (s.setBerth c x).parts = s.parts := rfl
@[simp] theorem State.setBerth_mem (c : BerthId) (x : BerthSt) : (s.setBerth c x).mem = s.mem := rfl
@[simp] theorem State.setBerth_lineErrors (c : BerthId) (x : BerthSt) : (s.setBerth c x).lineErrors = s.lineErrors := rfl
@[simp] theorem State.setBerth_lineKeys (c : BerthId) (x : BerthSt) : (s.setBerth c x).lineKeys = s.lineKeys := rfl
@[simp] theorem State.setBerth_host (c : BerthId) (x : BerthSt) : (s.setBerth c x).host = s.host := rfl
@[simp] theorem State.setBerth_hostUp (c : BerthId) (x : BerthSt) : (s.setBerth c x).hostUp = s.hostUp := rfl
@[simp] theorem State.setBerth_linkBw (c : BerthId) (x : BerthSt) : (s.setBerth c x).linkBw = s.linkBw := rfl
@[simp] theorem State.setBerth_hostDownAt (c : BerthId) (x : BerthSt) : (s.setBerth c x).hostDownAt = s.hostDownAt := rfl
@[simp] theorem State.setBerth_hostHeld (c : BerthId) (x : BerthSt) : (s.setBerth c x).hostHeld = s.hostHeld := rfl
@[simp] theorem State.setBerth_flash (c : BerthId) (x : BerthSt) : (s.setBerth c x).flash = s.flash := rfl
@[simp] theorem State.setBerth_ueList (c : BerthId) (x : BerthSt) : (s.setBerth c x).ueList = s.ueList := rfl
@[simp] theorem State.setBerth_moves (c : BerthId) (x : BerthSt) : (s.setBerth c x).moves = s.moves := rfl
@[simp] theorem State.setBerth_nextMove (c : BerthId) (x : BerthSt) : (s.setBerth c x).nextMove = s.nextMove := rfl
@[simp] theorem State.setBerth_colls (c : BerthId) (x : BerthSt) : (s.setBerth c x).colls = s.colls := rfl
@[simp] theorem State.setBerth_held (c : BerthId) (x : BerthSt) : (s.setBerth c x).held = s.held := rfl
@[simp] theorem State.setBerth_nextHeld (c : BerthId) (x : BerthSt) : (s.setBerth c x).nextHeld = s.nextHeld := rfl
@[simp] theorem State.setBerth_cache (c : BerthId) (x : BerthSt) : (s.setBerth c x).cache = s.cache := rfl
@[simp] theorem State.setBerth_fences (c : BerthId) (x : BerthSt) : (s.setBerth c x).fences = s.fences := rfl
@[simp] theorem State.setBerth_resident (c : BerthId) (x : BerthSt) : (s.setBerth c x).resident = s.resident := rfl
@[simp] theorem State.setBerth_remotePages (c : BerthId) (x : BerthSt) : (s.setBerth c x).remotePages = s.remotePages := rfl
@[simp] theorem State.setBerth_pageMirrors (c : BerthId) (x : BerthSt) : (s.setBerth c x).pageMirrors = s.pageMirrors := rfl
@[simp] theorem State.setBerth_bins (c : BerthId) (x : BerthSt) : (s.setBerth c x).bins = s.bins := rfl
@[simp] theorem State.setBerth_freed (c : BerthId) (x : BerthSt) : (s.setBerth c x).freed = s.freed := rfl
@[simp] theorem State.setBerth_nextFreed (c : BerthId) (x : BerthSt) : (s.setBerth c x).nextFreed = s.nextFreed := rfl
@[simp] theorem State.setBerth_lost (c : BerthId) (x : BerthSt) : (s.setBerth c x).lost = s.lost := rfl
@[simp] theorem State.setBerth_lostAll (c : BerthId) (x : BerthSt) : (s.setBerth c x).lostAll = s.lostAll := rfl
@[simp] theorem State.setBerth_mapLost (c : BerthId) (x : BerthSt) : (s.setBerth c x).mapLost = s.mapLost := rfl
@[simp] theorem State.setBerth_manifests (c : BerthId) (x : BerthSt) : (s.setBerth c x).manifests = s.manifests := rfl
@[simp] theorem State.setBerth_nextManifest (c : BerthId) (x : BerthSt) : (s.setBerth c x).nextManifest = s.nextManifest := rfl
@[simp] theorem State.setBerth_admitOrder (c : BerthId) (x : BerthSt) : (s.setBerth c x).admitOrder = s.admitOrder := rfl
@[simp] theorem State.setBerth_arbs (c : BerthId) (x : BerthSt) : (s.setBerth c x).arbs = s.arbs := rfl
@[simp] theorem State.setBerth_peers (c : BerthId) (x : BerthSt) : (s.setBerth c x).peers = s.peers := rfl
@[simp] theorem State.setBerth_routes (c : BerthId) (x : BerthSt) : (s.setBerth c x).routes = s.routes := rfl
@[simp] theorem State.setBerth_vdevs (c : BerthId) (x : BerthSt) : (s.setBerth c x).vdevs = s.vdevs := rfl
@[simp] theorem State.setBerth_comps (c : BerthId) (x : BerthSt) : (s.setBerth c x).comps = s.comps := rfl
@[simp] theorem State.setBerth_proposals (c : BerthId) (x : BerthSt) : (s.setBerth c x).proposals = s.proposals := rfl
@[simp] theorem State.setBerth_composeWaits (c : BerthId) (x : BerthSt) : (s.setBerth c x).composeWaits = s.composeWaits := rfl
@[simp] theorem State.setBerth_handoffsHeld (c : BerthId) (x : BerthSt) : (s.setBerth c x).handoffsHeld = s.handoffsHeld := rfl
@[simp] theorem State.setBerth_handoffsTaken (c : BerthId) (x : BerthSt) : (s.setBerth c x).handoffsTaken = s.handoffsTaken := rfl
@[simp] theorem State.setBerth_hoDisputes (c : BerthId) (x : BerthSt) : (s.setBerth c x).hoDisputes = s.hoDisputes := rfl
@[simp] theorem State.setBerth_hoOutcomes (c : BerthId) (x : BerthSt) : (s.setBerth c x).hoOutcomes = s.hoOutcomes := rfl
@[simp] theorem State.setBerth_nextHid (c : BerthId) (x : BerthSt) : (s.setBerth c x).nextHid = s.nextHid := rfl
@[simp] theorem State.setBerth_discovery (c : BerthId) (x : BerthSt) : (s.setBerth c x).discovery = s.discovery := rfl
@[simp] theorem State.setBerth_ports (c : BerthId) (x : BerthSt) : (s.setBerth c x).ports = s.ports := rfl
@[simp] theorem State.setBerth_ptp (c : BerthId) (x : BerthSt) : (s.setBerth c x).ptp = s.ptp := rfl
@[simp] theorem State.setBerth_saPending (c : BerthId) (x : BerthSt) : (s.setBerth c x).saPending = s.saPending := rfl
@[simp] theorem State.setBerth_faults (c : BerthId) (x : BerthSt) : (s.setBerth c x).faults = s.faults := rfl
@[simp] theorem State.setBerth_lastFaults (c : BerthId) (x : BerthSt) : (s.setBerth c x).lastFaults = s.lastFaults := rfl
@[simp] theorem State.setBerth_startSummary (c : BerthId) (x : BerthSt) : (s.setBerth c x).startSummary = s.startSummary := rfl
@[simp] theorem State.setBerth_faultSeq (c : BerthId) (x : BerthSt) : (s.setBerth c x).faultSeq = s.faultSeq := rfl
@[simp] theorem State.setBerth_faultMirrored (c : BerthId) (x : BerthSt) : (s.setBerth c x).faultMirrored = s.faultMirrored := rfl
@[simp] theorem State.setBerth_faultConsumed (c : BerthId) (x : BerthSt) : (s.setBerth c x).faultConsumed = s.faultConsumed := rfl
@[simp] theorem State.setBerth_key (c : BerthId) (x : BerthSt) : (s.setBerth c x).key = s.key := rfl
@[simp] theorem State.setBerth_power (c : BerthId) (x : BerthSt) : (s.setBerth c x).power = s.power := rfl
@[simp] theorem State.setBerth_instCmds (c : BerthId) (x : BerthSt) : (s.setBerth c x).instCmds = s.instCmds := rfl
@[simp] theorem State.setBerth_vfCount (c : BerthId) (x : BerthSt) : (s.setBerth c x).vfCount = s.vfCount := rfl
@[simp] theorem State.setBerth_brtServed (c : BerthId) (x : BerthSt) : (s.setBerth c x).brtServed = s.brtServed := rfl
@[simp] theorem State.setBerth_irqLast (c : BerthId) (x : BerthSt) : (s.setBerth c x).irqLast = s.irqLast := rfl
@[simp] theorem State.setBerth_irqDeferred (c : BerthId) (x : BerthSt) : (s.setBerth c x).irqDeferred = s.irqDeferred := rfl
@[simp] theorem State.setBerth_start (c : BerthId) (x : BerthSt) : (s.setBerth c x).start = s.start := rfl
@[simp] theorem State.setBerth_ferryDown (c : BerthId) (x : BerthSt) : (s.setBerth c x).ferryDown = s.ferryDown := rfl
@[simp] theorem State.setBerth_ceLimit (c : BerthId) (x : BerthSt) : (s.setBerth c x).ceLimit = s.ceLimit := rfl
@[simp] theorem State.setBerth_tracing (c : BerthId) (x : BerthSt) : (s.setBerth c x).tracing = s.tracing := rfl
@[simp] theorem State.setBerth_trace (c : BerthId) (x : BerthSt) : (s.setBerth c x).trace = s.trace := rfl
@[simp] theorem State.setBerth_alerts (c : BerthId) (x : BerthSt) : (s.setBerth c x).alerts = s.alerts := rfl
@[simp] theorem State.setBerth_out (c : BerthId) (x : BerthSt) : (s.setBerth c x).out = s.out := rfl
@[simp] theorem State.setBerth_free (c : BerthId) (x : BerthSt) : (s.setBerth c x).free = s.free := rfl
@[simp] theorem State.setBerth_misused (c : BerthId) (x : BerthSt) : (s.setBerth c x).misused = s.misused := rfl

@[simp] theorem State.setReg_pending (o : Nat) (v : Word) : (s.setReg o v).pending = s.pending := rfl
@[simp] theorem State.setReg_powered (o : Nat) (v : Word) : (s.setReg o v).powered = s.powered := rfl
@[simp] theorem State.setReg_supplyBroken (o : Nat) (v : Word) : (s.setReg o v).supplyBroken = s.supplyBroken := rfl
@[simp] theorem State.setReg_beat (o : Nat) (v : Word) : (s.setReg o v).beat = s.beat := rfl
@[simp] theorem State.setReg_shadow (o : Nat) (v : Word) : (s.setReg o v).shadow = s.shadow := rfl
@[simp] theorem State.setReg_busRead (o : Nat) (v : Word) : (s.setReg o v).busRead = s.busRead := rfl
@[simp] theorem State.setReg_cores (o : Nat) (v : Word) : (s.setReg o v).cores = s.cores := rfl
@[simp] theorem State.setReg_parts (o : Nat) (v : Word) : (s.setReg o v).parts = s.parts := rfl
@[simp] theorem State.setReg_mem (o : Nat) (v : Word) : (s.setReg o v).mem = s.mem := rfl
@[simp] theorem State.setReg_lineErrors (o : Nat) (v : Word) : (s.setReg o v).lineErrors = s.lineErrors := rfl
@[simp] theorem State.setReg_lineKeys (o : Nat) (v : Word) : (s.setReg o v).lineKeys = s.lineKeys := rfl
@[simp] theorem State.setReg_host (o : Nat) (v : Word) : (s.setReg o v).host = s.host := rfl
@[simp] theorem State.setReg_hostUp (o : Nat) (v : Word) : (s.setReg o v).hostUp = s.hostUp := rfl
@[simp] theorem State.setReg_linkBw (o : Nat) (v : Word) : (s.setReg o v).linkBw = s.linkBw := rfl
@[simp] theorem State.setReg_hostDownAt (o : Nat) (v : Word) : (s.setReg o v).hostDownAt = s.hostDownAt := rfl
@[simp] theorem State.setReg_hostHeld (o : Nat) (v : Word) : (s.setReg o v).hostHeld = s.hostHeld := rfl
@[simp] theorem State.setReg_flash (o : Nat) (v : Word) : (s.setReg o v).flash = s.flash := rfl
@[simp] theorem State.setReg_ueList (o : Nat) (v : Word) : (s.setReg o v).ueList = s.ueList := rfl
@[simp] theorem State.setReg_moves (o : Nat) (v : Word) : (s.setReg o v).moves = s.moves := rfl
@[simp] theorem State.setReg_nextMove (o : Nat) (v : Word) : (s.setReg o v).nextMove = s.nextMove := rfl
@[simp] theorem State.setReg_colls (o : Nat) (v : Word) : (s.setReg o v).colls = s.colls := rfl
@[simp] theorem State.setReg_held (o : Nat) (v : Word) : (s.setReg o v).held = s.held := rfl
@[simp] theorem State.setReg_nextHeld (o : Nat) (v : Word) : (s.setReg o v).nextHeld = s.nextHeld := rfl
@[simp] theorem State.setReg_cache (o : Nat) (v : Word) : (s.setReg o v).cache = s.cache := rfl
@[simp] theorem State.setReg_fences (o : Nat) (v : Word) : (s.setReg o v).fences = s.fences := rfl
@[simp] theorem State.setReg_resident (o : Nat) (v : Word) : (s.setReg o v).resident = s.resident := rfl
@[simp] theorem State.setReg_remotePages (o : Nat) (v : Word) : (s.setReg o v).remotePages = s.remotePages := rfl
@[simp] theorem State.setReg_pageMirrors (o : Nat) (v : Word) : (s.setReg o v).pageMirrors = s.pageMirrors := rfl
@[simp] theorem State.setReg_bins (o : Nat) (v : Word) : (s.setReg o v).bins = s.bins := rfl
@[simp] theorem State.setReg_freed (o : Nat) (v : Word) : (s.setReg o v).freed = s.freed := rfl
@[simp] theorem State.setReg_nextFreed (o : Nat) (v : Word) : (s.setReg o v).nextFreed = s.nextFreed := rfl
@[simp] theorem State.setReg_lost (o : Nat) (v : Word) : (s.setReg o v).lost = s.lost := rfl
@[simp] theorem State.setReg_lostAll (o : Nat) (v : Word) : (s.setReg o v).lostAll = s.lostAll := rfl
@[simp] theorem State.setReg_mapLost (o : Nat) (v : Word) : (s.setReg o v).mapLost = s.mapLost := rfl
@[simp] theorem State.setReg_manifests (o : Nat) (v : Word) : (s.setReg o v).manifests = s.manifests := rfl
@[simp] theorem State.setReg_nextManifest (o : Nat) (v : Word) : (s.setReg o v).nextManifest = s.nextManifest := rfl
@[simp] theorem State.setReg_admitOrder (o : Nat) (v : Word) : (s.setReg o v).admitOrder = s.admitOrder := rfl
@[simp] theorem State.setReg_berths (o : Nat) (v : Word) : (s.setReg o v).berths = s.berths := rfl
@[simp] theorem State.setReg_arbs (o : Nat) (v : Word) : (s.setReg o v).arbs = s.arbs := rfl
@[simp] theorem State.setReg_peers (o : Nat) (v : Word) : (s.setReg o v).peers = s.peers := rfl
@[simp] theorem State.setReg_routes (o : Nat) (v : Word) : (s.setReg o v).routes = s.routes := rfl
@[simp] theorem State.setReg_vdevs (o : Nat) (v : Word) : (s.setReg o v).vdevs = s.vdevs := rfl
@[simp] theorem State.setReg_comps (o : Nat) (v : Word) : (s.setReg o v).comps = s.comps := rfl
@[simp] theorem State.setReg_proposals (o : Nat) (v : Word) : (s.setReg o v).proposals = s.proposals := rfl
@[simp] theorem State.setReg_composeWaits (o : Nat) (v : Word) : (s.setReg o v).composeWaits = s.composeWaits := rfl
@[simp] theorem State.setReg_handoffsHeld (o : Nat) (v : Word) : (s.setReg o v).handoffsHeld = s.handoffsHeld := rfl
@[simp] theorem State.setReg_handoffsTaken (o : Nat) (v : Word) : (s.setReg o v).handoffsTaken = s.handoffsTaken := rfl
@[simp] theorem State.setReg_hoDisputes (o : Nat) (v : Word) : (s.setReg o v).hoDisputes = s.hoDisputes := rfl
@[simp] theorem State.setReg_hoOutcomes (o : Nat) (v : Word) : (s.setReg o v).hoOutcomes = s.hoOutcomes := rfl
@[simp] theorem State.setReg_nextHid (o : Nat) (v : Word) : (s.setReg o v).nextHid = s.nextHid := rfl
@[simp] theorem State.setReg_discovery (o : Nat) (v : Word) : (s.setReg o v).discovery = s.discovery := rfl
@[simp] theorem State.setReg_ports (o : Nat) (v : Word) : (s.setReg o v).ports = s.ports := rfl
@[simp] theorem State.setReg_ptp (o : Nat) (v : Word) : (s.setReg o v).ptp = s.ptp := rfl
@[simp] theorem State.setReg_saPending (o : Nat) (v : Word) : (s.setReg o v).saPending = s.saPending := rfl
@[simp] theorem State.setReg_faults (o : Nat) (v : Word) : (s.setReg o v).faults = s.faults := rfl
@[simp] theorem State.setReg_lastFaults (o : Nat) (v : Word) : (s.setReg o v).lastFaults = s.lastFaults := rfl
@[simp] theorem State.setReg_startSummary (o : Nat) (v : Word) : (s.setReg o v).startSummary = s.startSummary := rfl
@[simp] theorem State.setReg_faultSeq (o : Nat) (v : Word) : (s.setReg o v).faultSeq = s.faultSeq := rfl
@[simp] theorem State.setReg_faultMirrored (o : Nat) (v : Word) : (s.setReg o v).faultMirrored = s.faultMirrored := rfl
@[simp] theorem State.setReg_faultConsumed (o : Nat) (v : Word) : (s.setReg o v).faultConsumed = s.faultConsumed := rfl
@[simp] theorem State.setReg_key (o : Nat) (v : Word) : (s.setReg o v).key = s.key := rfl
@[simp] theorem State.setReg_power (o : Nat) (v : Word) : (s.setReg o v).power = s.power := rfl
@[simp] theorem State.setReg_instCmds (o : Nat) (v : Word) : (s.setReg o v).instCmds = s.instCmds := rfl
@[simp] theorem State.setReg_vfCount (o : Nat) (v : Word) : (s.setReg o v).vfCount = s.vfCount := rfl
@[simp] theorem State.setReg_brtServed (o : Nat) (v : Word) : (s.setReg o v).brtServed = s.brtServed := rfl
@[simp] theorem State.setReg_irqLast (o : Nat) (v : Word) : (s.setReg o v).irqLast = s.irqLast := rfl
@[simp] theorem State.setReg_irqDeferred (o : Nat) (v : Word) : (s.setReg o v).irqDeferred = s.irqDeferred := rfl
@[simp] theorem State.setReg_start (o : Nat) (v : Word) : (s.setReg o v).start = s.start := rfl
@[simp] theorem State.setReg_ferryDown (o : Nat) (v : Word) : (s.setReg o v).ferryDown = s.ferryDown := rfl
@[simp] theorem State.setReg_ceLimit (o : Nat) (v : Word) : (s.setReg o v).ceLimit = s.ceLimit := rfl
@[simp] theorem State.setReg_tracing (o : Nat) (v : Word) : (s.setReg o v).tracing = s.tracing := rfl
@[simp] theorem State.setReg_trace (o : Nat) (v : Word) : (s.setReg o v).trace = s.trace := rfl
@[simp] theorem State.setReg_alerts (o : Nat) (v : Word) : (s.setReg o v).alerts = s.alerts := rfl
@[simp] theorem State.setReg_out (o : Nat) (v : Word) : (s.setReg o v).out = s.out := rfl
@[simp] theorem State.setReg_free (o : Nat) (v : Word) : (s.setReg o v).free = s.free := rfl
@[simp] theorem State.setReg_misused (o : Nat) (v : Word) : (s.setReg o v).misused = s.misused := rfl

@[simp] theorem State.setShad_pending (o : Nat) (v : Word) : (s.setShad o v).pending = s.pending := rfl
@[simp] theorem State.setShad_powered (o : Nat) (v : Word) : (s.setShad o v).powered = s.powered := rfl
@[simp] theorem State.setShad_supplyBroken (o : Nat) (v : Word) : (s.setShad o v).supplyBroken = s.supplyBroken := rfl
@[simp] theorem State.setShad_beat (o : Nat) (v : Word) : (s.setShad o v).beat = s.beat := rfl
@[simp] theorem State.setShad_regs (o : Nat) (v : Word) : (s.setShad o v).regs = s.regs := rfl
@[simp] theorem State.setShad_busRead (o : Nat) (v : Word) : (s.setShad o v).busRead = s.busRead := rfl
@[simp] theorem State.setShad_cores (o : Nat) (v : Word) : (s.setShad o v).cores = s.cores := rfl
@[simp] theorem State.setShad_parts (o : Nat) (v : Word) : (s.setShad o v).parts = s.parts := rfl
@[simp] theorem State.setShad_mem (o : Nat) (v : Word) : (s.setShad o v).mem = s.mem := rfl
@[simp] theorem State.setShad_lineErrors (o : Nat) (v : Word) : (s.setShad o v).lineErrors = s.lineErrors := rfl
@[simp] theorem State.setShad_lineKeys (o : Nat) (v : Word) : (s.setShad o v).lineKeys = s.lineKeys := rfl
@[simp] theorem State.setShad_host (o : Nat) (v : Word) : (s.setShad o v).host = s.host := rfl
@[simp] theorem State.setShad_hostUp (o : Nat) (v : Word) : (s.setShad o v).hostUp = s.hostUp := rfl
@[simp] theorem State.setShad_linkBw (o : Nat) (v : Word) : (s.setShad o v).linkBw = s.linkBw := rfl
@[simp] theorem State.setShad_hostDownAt (o : Nat) (v : Word) : (s.setShad o v).hostDownAt = s.hostDownAt := rfl
@[simp] theorem State.setShad_hostHeld (o : Nat) (v : Word) : (s.setShad o v).hostHeld = s.hostHeld := rfl
@[simp] theorem State.setShad_flash (o : Nat) (v : Word) : (s.setShad o v).flash = s.flash := rfl
@[simp] theorem State.setShad_ueList (o : Nat) (v : Word) : (s.setShad o v).ueList = s.ueList := rfl
@[simp] theorem State.setShad_moves (o : Nat) (v : Word) : (s.setShad o v).moves = s.moves := rfl
@[simp] theorem State.setShad_nextMove (o : Nat) (v : Word) : (s.setShad o v).nextMove = s.nextMove := rfl
@[simp] theorem State.setShad_colls (o : Nat) (v : Word) : (s.setShad o v).colls = s.colls := rfl
@[simp] theorem State.setShad_held (o : Nat) (v : Word) : (s.setShad o v).held = s.held := rfl
@[simp] theorem State.setShad_nextHeld (o : Nat) (v : Word) : (s.setShad o v).nextHeld = s.nextHeld := rfl
@[simp] theorem State.setShad_cache (o : Nat) (v : Word) : (s.setShad o v).cache = s.cache := rfl
@[simp] theorem State.setShad_fences (o : Nat) (v : Word) : (s.setShad o v).fences = s.fences := rfl
@[simp] theorem State.setShad_resident (o : Nat) (v : Word) : (s.setShad o v).resident = s.resident := rfl
@[simp] theorem State.setShad_remotePages (o : Nat) (v : Word) : (s.setShad o v).remotePages = s.remotePages := rfl
@[simp] theorem State.setShad_pageMirrors (o : Nat) (v : Word) : (s.setShad o v).pageMirrors = s.pageMirrors := rfl
@[simp] theorem State.setShad_bins (o : Nat) (v : Word) : (s.setShad o v).bins = s.bins := rfl
@[simp] theorem State.setShad_freed (o : Nat) (v : Word) : (s.setShad o v).freed = s.freed := rfl
@[simp] theorem State.setShad_nextFreed (o : Nat) (v : Word) : (s.setShad o v).nextFreed = s.nextFreed := rfl
@[simp] theorem State.setShad_lost (o : Nat) (v : Word) : (s.setShad o v).lost = s.lost := rfl
@[simp] theorem State.setShad_lostAll (o : Nat) (v : Word) : (s.setShad o v).lostAll = s.lostAll := rfl
@[simp] theorem State.setShad_mapLost (o : Nat) (v : Word) : (s.setShad o v).mapLost = s.mapLost := rfl
@[simp] theorem State.setShad_manifests (o : Nat) (v : Word) : (s.setShad o v).manifests = s.manifests := rfl
@[simp] theorem State.setShad_nextManifest (o : Nat) (v : Word) : (s.setShad o v).nextManifest = s.nextManifest := rfl
@[simp] theorem State.setShad_admitOrder (o : Nat) (v : Word) : (s.setShad o v).admitOrder = s.admitOrder := rfl
@[simp] theorem State.setShad_berths (o : Nat) (v : Word) : (s.setShad o v).berths = s.berths := rfl
@[simp] theorem State.setShad_arbs (o : Nat) (v : Word) : (s.setShad o v).arbs = s.arbs := rfl
@[simp] theorem State.setShad_peers (o : Nat) (v : Word) : (s.setShad o v).peers = s.peers := rfl
@[simp] theorem State.setShad_routes (o : Nat) (v : Word) : (s.setShad o v).routes = s.routes := rfl
@[simp] theorem State.setShad_vdevs (o : Nat) (v : Word) : (s.setShad o v).vdevs = s.vdevs := rfl
@[simp] theorem State.setShad_comps (o : Nat) (v : Word) : (s.setShad o v).comps = s.comps := rfl
@[simp] theorem State.setShad_proposals (o : Nat) (v : Word) : (s.setShad o v).proposals = s.proposals := rfl
@[simp] theorem State.setShad_composeWaits (o : Nat) (v : Word) : (s.setShad o v).composeWaits = s.composeWaits := rfl
@[simp] theorem State.setShad_handoffsHeld (o : Nat) (v : Word) : (s.setShad o v).handoffsHeld = s.handoffsHeld := rfl
@[simp] theorem State.setShad_handoffsTaken (o : Nat) (v : Word) : (s.setShad o v).handoffsTaken = s.handoffsTaken := rfl
@[simp] theorem State.setShad_hoDisputes (o : Nat) (v : Word) : (s.setShad o v).hoDisputes = s.hoDisputes := rfl
@[simp] theorem State.setShad_hoOutcomes (o : Nat) (v : Word) : (s.setShad o v).hoOutcomes = s.hoOutcomes := rfl
@[simp] theorem State.setShad_nextHid (o : Nat) (v : Word) : (s.setShad o v).nextHid = s.nextHid := rfl
@[simp] theorem State.setShad_discovery (o : Nat) (v : Word) : (s.setShad o v).discovery = s.discovery := rfl
@[simp] theorem State.setShad_ports (o : Nat) (v : Word) : (s.setShad o v).ports = s.ports := rfl
@[simp] theorem State.setShad_ptp (o : Nat) (v : Word) : (s.setShad o v).ptp = s.ptp := rfl
@[simp] theorem State.setShad_saPending (o : Nat) (v : Word) : (s.setShad o v).saPending = s.saPending := rfl
@[simp] theorem State.setShad_faults (o : Nat) (v : Word) : (s.setShad o v).faults = s.faults := rfl
@[simp] theorem State.setShad_lastFaults (o : Nat) (v : Word) : (s.setShad o v).lastFaults = s.lastFaults := rfl
@[simp] theorem State.setShad_startSummary (o : Nat) (v : Word) : (s.setShad o v).startSummary = s.startSummary := rfl
@[simp] theorem State.setShad_faultSeq (o : Nat) (v : Word) : (s.setShad o v).faultSeq = s.faultSeq := rfl
@[simp] theorem State.setShad_faultMirrored (o : Nat) (v : Word) : (s.setShad o v).faultMirrored = s.faultMirrored := rfl
@[simp] theorem State.setShad_faultConsumed (o : Nat) (v : Word) : (s.setShad o v).faultConsumed = s.faultConsumed := rfl
@[simp] theorem State.setShad_key (o : Nat) (v : Word) : (s.setShad o v).key = s.key := rfl
@[simp] theorem State.setShad_power (o : Nat) (v : Word) : (s.setShad o v).power = s.power := rfl
@[simp] theorem State.setShad_instCmds (o : Nat) (v : Word) : (s.setShad o v).instCmds = s.instCmds := rfl
@[simp] theorem State.setShad_vfCount (o : Nat) (v : Word) : (s.setShad o v).vfCount = s.vfCount := rfl
@[simp] theorem State.setShad_brtServed (o : Nat) (v : Word) : (s.setShad o v).brtServed = s.brtServed := rfl
@[simp] theorem State.setShad_irqLast (o : Nat) (v : Word) : (s.setShad o v).irqLast = s.irqLast := rfl
@[simp] theorem State.setShad_irqDeferred (o : Nat) (v : Word) : (s.setShad o v).irqDeferred = s.irqDeferred := rfl
@[simp] theorem State.setShad_start (o : Nat) (v : Word) : (s.setShad o v).start = s.start := rfl
@[simp] theorem State.setShad_ferryDown (o : Nat) (v : Word) : (s.setShad o v).ferryDown = s.ferryDown := rfl
@[simp] theorem State.setShad_ceLimit (o : Nat) (v : Word) : (s.setShad o v).ceLimit = s.ceLimit := rfl
@[simp] theorem State.setShad_tracing (o : Nat) (v : Word) : (s.setShad o v).tracing = s.tracing := rfl
@[simp] theorem State.setShad_trace (o : Nat) (v : Word) : (s.setShad o v).trace = s.trace := rfl
@[simp] theorem State.setShad_alerts (o : Nat) (v : Word) : (s.setShad o v).alerts = s.alerts := rfl
@[simp] theorem State.setShad_out (o : Nat) (v : Word) : (s.setShad o v).out = s.out := rfl
@[simp] theorem State.setShad_free (o : Nat) (v : Word) : (s.setShad o v).free = s.free := rfl
@[simp] theorem State.setShad_misused (o : Nat) (v : Word) : (s.setShad o v).misused = s.misused := rfl

@[simp] theorem State.updManifest_pending (i : Nat) (f : Manifest → Manifest) : (s.updManifest i f).pending = s.pending := rfl
@[simp] theorem State.updManifest_powered (i : Nat) (f : Manifest → Manifest) : (s.updManifest i f).powered = s.powered := rfl
@[simp] theorem State.updManifest_supplyBroken (i : Nat) (f : Manifest → Manifest) : (s.updManifest i f).supplyBroken = s.supplyBroken := rfl
@[simp] theorem State.updManifest_beat (i : Nat) (f : Manifest → Manifest) : (s.updManifest i f).beat = s.beat := rfl
@[simp] theorem State.updManifest_regs (i : Nat) (f : Manifest → Manifest) : (s.updManifest i f).regs = s.regs := rfl
@[simp] theorem State.updManifest_shadow (i : Nat) (f : Manifest → Manifest) : (s.updManifest i f).shadow = s.shadow := rfl
@[simp] theorem State.updManifest_busRead (i : Nat) (f : Manifest → Manifest) : (s.updManifest i f).busRead = s.busRead := rfl
@[simp] theorem State.updManifest_cores (i : Nat) (f : Manifest → Manifest) : (s.updManifest i f).cores = s.cores := rfl
@[simp] theorem State.updManifest_parts (i : Nat) (f : Manifest → Manifest) : (s.updManifest i f).parts = s.parts := rfl
@[simp] theorem State.updManifest_mem (i : Nat) (f : Manifest → Manifest) : (s.updManifest i f).mem = s.mem := rfl
@[simp] theorem State.updManifest_lineErrors (i : Nat) (f : Manifest → Manifest) : (s.updManifest i f).lineErrors = s.lineErrors := rfl
@[simp] theorem State.updManifest_lineKeys (i : Nat) (f : Manifest → Manifest) : (s.updManifest i f).lineKeys = s.lineKeys := rfl
@[simp] theorem State.updManifest_host (i : Nat) (f : Manifest → Manifest) : (s.updManifest i f).host = s.host := rfl
@[simp] theorem State.updManifest_hostUp (i : Nat) (f : Manifest → Manifest) : (s.updManifest i f).hostUp = s.hostUp := rfl
@[simp] theorem State.updManifest_linkBw (i : Nat) (f : Manifest → Manifest) : (s.updManifest i f).linkBw = s.linkBw := rfl
@[simp] theorem State.updManifest_hostDownAt (i : Nat) (f : Manifest → Manifest) : (s.updManifest i f).hostDownAt = s.hostDownAt := rfl
@[simp] theorem State.updManifest_hostHeld (i : Nat) (f : Manifest → Manifest) : (s.updManifest i f).hostHeld = s.hostHeld := rfl
@[simp] theorem State.updManifest_flash (i : Nat) (f : Manifest → Manifest) : (s.updManifest i f).flash = s.flash := rfl
@[simp] theorem State.updManifest_ueList (i : Nat) (f : Manifest → Manifest) : (s.updManifest i f).ueList = s.ueList := rfl
@[simp] theorem State.updManifest_moves (i : Nat) (f : Manifest → Manifest) : (s.updManifest i f).moves = s.moves := rfl
@[simp] theorem State.updManifest_nextMove (i : Nat) (f : Manifest → Manifest) : (s.updManifest i f).nextMove = s.nextMove := rfl
@[simp] theorem State.updManifest_colls (i : Nat) (f : Manifest → Manifest) : (s.updManifest i f).colls = s.colls := rfl
@[simp] theorem State.updManifest_held (i : Nat) (f : Manifest → Manifest) : (s.updManifest i f).held = s.held := rfl
@[simp] theorem State.updManifest_nextHeld (i : Nat) (f : Manifest → Manifest) : (s.updManifest i f).nextHeld = s.nextHeld := rfl
@[simp] theorem State.updManifest_cache (i : Nat) (f : Manifest → Manifest) : (s.updManifest i f).cache = s.cache := rfl
@[simp] theorem State.updManifest_fences (i : Nat) (f : Manifest → Manifest) : (s.updManifest i f).fences = s.fences := rfl
@[simp] theorem State.updManifest_resident (i : Nat) (f : Manifest → Manifest) : (s.updManifest i f).resident = s.resident := rfl
@[simp] theorem State.updManifest_remotePages (i : Nat) (f : Manifest → Manifest) : (s.updManifest i f).remotePages = s.remotePages := rfl
@[simp] theorem State.updManifest_pageMirrors (i : Nat) (f : Manifest → Manifest) : (s.updManifest i f).pageMirrors = s.pageMirrors := rfl
@[simp] theorem State.updManifest_bins (i : Nat) (f : Manifest → Manifest) : (s.updManifest i f).bins = s.bins := rfl
@[simp] theorem State.updManifest_freed (i : Nat) (f : Manifest → Manifest) : (s.updManifest i f).freed = s.freed := rfl
@[simp] theorem State.updManifest_nextFreed (i : Nat) (f : Manifest → Manifest) : (s.updManifest i f).nextFreed = s.nextFreed := rfl
@[simp] theorem State.updManifest_lost (i : Nat) (f : Manifest → Manifest) : (s.updManifest i f).lost = s.lost := rfl
@[simp] theorem State.updManifest_lostAll (i : Nat) (f : Manifest → Manifest) : (s.updManifest i f).lostAll = s.lostAll := rfl
@[simp] theorem State.updManifest_mapLost (i : Nat) (f : Manifest → Manifest) : (s.updManifest i f).mapLost = s.mapLost := rfl
@[simp] theorem State.updManifest_nextManifest (i : Nat) (f : Manifest → Manifest) : (s.updManifest i f).nextManifest = s.nextManifest := rfl
@[simp] theorem State.updManifest_admitOrder (i : Nat) (f : Manifest → Manifest) : (s.updManifest i f).admitOrder = s.admitOrder := rfl
@[simp] theorem State.updManifest_berths (i : Nat) (f : Manifest → Manifest) : (s.updManifest i f).berths = s.berths := rfl
@[simp] theorem State.updManifest_arbs (i : Nat) (f : Manifest → Manifest) : (s.updManifest i f).arbs = s.arbs := rfl
@[simp] theorem State.updManifest_peers (i : Nat) (f : Manifest → Manifest) : (s.updManifest i f).peers = s.peers := rfl
@[simp] theorem State.updManifest_routes (i : Nat) (f : Manifest → Manifest) : (s.updManifest i f).routes = s.routes := rfl
@[simp] theorem State.updManifest_vdevs (i : Nat) (f : Manifest → Manifest) : (s.updManifest i f).vdevs = s.vdevs := rfl
@[simp] theorem State.updManifest_comps (i : Nat) (f : Manifest → Manifest) : (s.updManifest i f).comps = s.comps := rfl
@[simp] theorem State.updManifest_proposals (i : Nat) (f : Manifest → Manifest) : (s.updManifest i f).proposals = s.proposals := rfl
@[simp] theorem State.updManifest_composeWaits (i : Nat) (f : Manifest → Manifest) : (s.updManifest i f).composeWaits = s.composeWaits := rfl
@[simp] theorem State.updManifest_handoffsHeld (i : Nat) (f : Manifest → Manifest) : (s.updManifest i f).handoffsHeld = s.handoffsHeld := rfl
@[simp] theorem State.updManifest_handoffsTaken (i : Nat) (f : Manifest → Manifest) : (s.updManifest i f).handoffsTaken = s.handoffsTaken := rfl
@[simp] theorem State.updManifest_hoDisputes (i : Nat) (f : Manifest → Manifest) : (s.updManifest i f).hoDisputes = s.hoDisputes := rfl
@[simp] theorem State.updManifest_hoOutcomes (i : Nat) (f : Manifest → Manifest) : (s.updManifest i f).hoOutcomes = s.hoOutcomes := rfl
@[simp] theorem State.updManifest_nextHid (i : Nat) (f : Manifest → Manifest) : (s.updManifest i f).nextHid = s.nextHid := rfl
@[simp] theorem State.updManifest_discovery (i : Nat) (f : Manifest → Manifest) : (s.updManifest i f).discovery = s.discovery := rfl
@[simp] theorem State.updManifest_ports (i : Nat) (f : Manifest → Manifest) : (s.updManifest i f).ports = s.ports := rfl
@[simp] theorem State.updManifest_ptp (i : Nat) (f : Manifest → Manifest) : (s.updManifest i f).ptp = s.ptp := rfl
@[simp] theorem State.updManifest_saPending (i : Nat) (f : Manifest → Manifest) : (s.updManifest i f).saPending = s.saPending := rfl
@[simp] theorem State.updManifest_faults (i : Nat) (f : Manifest → Manifest) : (s.updManifest i f).faults = s.faults := rfl
@[simp] theorem State.updManifest_lastFaults (i : Nat) (f : Manifest → Manifest) : (s.updManifest i f).lastFaults = s.lastFaults := rfl
@[simp] theorem State.updManifest_startSummary (i : Nat) (f : Manifest → Manifest) : (s.updManifest i f).startSummary = s.startSummary := rfl
@[simp] theorem State.updManifest_faultSeq (i : Nat) (f : Manifest → Manifest) : (s.updManifest i f).faultSeq = s.faultSeq := rfl
@[simp] theorem State.updManifest_faultMirrored (i : Nat) (f : Manifest → Manifest) : (s.updManifest i f).faultMirrored = s.faultMirrored := rfl
@[simp] theorem State.updManifest_faultConsumed (i : Nat) (f : Manifest → Manifest) : (s.updManifest i f).faultConsumed = s.faultConsumed := rfl
@[simp] theorem State.updManifest_key (i : Nat) (f : Manifest → Manifest) : (s.updManifest i f).key = s.key := rfl
@[simp] theorem State.updManifest_power (i : Nat) (f : Manifest → Manifest) : (s.updManifest i f).power = s.power := rfl
@[simp] theorem State.updManifest_instCmds (i : Nat) (f : Manifest → Manifest) : (s.updManifest i f).instCmds = s.instCmds := rfl
@[simp] theorem State.updManifest_vfCount (i : Nat) (f : Manifest → Manifest) : (s.updManifest i f).vfCount = s.vfCount := rfl
@[simp] theorem State.updManifest_brtServed (i : Nat) (f : Manifest → Manifest) : (s.updManifest i f).brtServed = s.brtServed := rfl
@[simp] theorem State.updManifest_irqLast (i : Nat) (f : Manifest → Manifest) : (s.updManifest i f).irqLast = s.irqLast := rfl
@[simp] theorem State.updManifest_irqDeferred (i : Nat) (f : Manifest → Manifest) : (s.updManifest i f).irqDeferred = s.irqDeferred := rfl
@[simp] theorem State.updManifest_start (i : Nat) (f : Manifest → Manifest) : (s.updManifest i f).start = s.start := rfl
@[simp] theorem State.updManifest_ferryDown (i : Nat) (f : Manifest → Manifest) : (s.updManifest i f).ferryDown = s.ferryDown := rfl
@[simp] theorem State.updManifest_ceLimit (i : Nat) (f : Manifest → Manifest) : (s.updManifest i f).ceLimit = s.ceLimit := rfl
@[simp] theorem State.updManifest_tracing (i : Nat) (f : Manifest → Manifest) : (s.updManifest i f).tracing = s.tracing := rfl
@[simp] theorem State.updManifest_trace (i : Nat) (f : Manifest → Manifest) : (s.updManifest i f).trace = s.trace := rfl
@[simp] theorem State.updManifest_alerts (i : Nat) (f : Manifest → Manifest) : (s.updManifest i f).alerts = s.alerts := rfl
@[simp] theorem State.updManifest_out (i : Nat) (f : Manifest → Manifest) : (s.updManifest i f).out = s.out := rfl
@[simp] theorem State.updManifest_free (i : Nat) (f : Manifest → Manifest) : (s.updManifest i f).free = s.free := rfl
@[simp] theorem State.updManifest_misused (i : Nat) (f : Manifest → Manifest) : (s.updManifest i f).misused = s.misused := rfl

@[simp] theorem State.emit_pending (o : Out) : (s.emit o).pending = s.pending := rfl
@[simp] theorem State.emit_powered (o : Out) : (s.emit o).powered = s.powered := rfl
@[simp] theorem State.emit_supplyBroken (o : Out) : (s.emit o).supplyBroken = s.supplyBroken := rfl
@[simp] theorem State.emit_beat (o : Out) : (s.emit o).beat = s.beat := rfl
@[simp] theorem State.emit_regs (o : Out) : (s.emit o).regs = s.regs := rfl
@[simp] theorem State.emit_shadow (o : Out) : (s.emit o).shadow = s.shadow := rfl
@[simp] theorem State.emit_busRead (o : Out) : (s.emit o).busRead = s.busRead := rfl
@[simp] theorem State.emit_cores (o : Out) : (s.emit o).cores = s.cores := rfl
@[simp] theorem State.emit_parts (o : Out) : (s.emit o).parts = s.parts := rfl
@[simp] theorem State.emit_mem (o : Out) : (s.emit o).mem = s.mem := rfl
@[simp] theorem State.emit_lineErrors (o : Out) : (s.emit o).lineErrors = s.lineErrors := rfl
@[simp] theorem State.emit_lineKeys (o : Out) : (s.emit o).lineKeys = s.lineKeys := rfl
@[simp] theorem State.emit_host (o : Out) : (s.emit o).host = s.host := rfl
@[simp] theorem State.emit_hostUp (o : Out) : (s.emit o).hostUp = s.hostUp := rfl
@[simp] theorem State.emit_linkBw (o : Out) : (s.emit o).linkBw = s.linkBw := rfl
@[simp] theorem State.emit_hostDownAt (o : Out) : (s.emit o).hostDownAt = s.hostDownAt := rfl
@[simp] theorem State.emit_hostHeld (o : Out) : (s.emit o).hostHeld = s.hostHeld := rfl
@[simp] theorem State.emit_flash (o : Out) : (s.emit o).flash = s.flash := rfl
@[simp] theorem State.emit_ueList (o : Out) : (s.emit o).ueList = s.ueList := rfl
@[simp] theorem State.emit_moves (o : Out) : (s.emit o).moves = s.moves := rfl
@[simp] theorem State.emit_nextMove (o : Out) : (s.emit o).nextMove = s.nextMove := rfl
@[simp] theorem State.emit_colls (o : Out) : (s.emit o).colls = s.colls := rfl
@[simp] theorem State.emit_held (o : Out) : (s.emit o).held = s.held := rfl
@[simp] theorem State.emit_nextHeld (o : Out) : (s.emit o).nextHeld = s.nextHeld := rfl
@[simp] theorem State.emit_cache (o : Out) : (s.emit o).cache = s.cache := rfl
@[simp] theorem State.emit_fences (o : Out) : (s.emit o).fences = s.fences := rfl
@[simp] theorem State.emit_resident (o : Out) : (s.emit o).resident = s.resident := rfl
@[simp] theorem State.emit_remotePages (o : Out) : (s.emit o).remotePages = s.remotePages := rfl
@[simp] theorem State.emit_pageMirrors (o : Out) : (s.emit o).pageMirrors = s.pageMirrors := rfl
@[simp] theorem State.emit_bins (o : Out) : (s.emit o).bins = s.bins := rfl
@[simp] theorem State.emit_freed (o : Out) : (s.emit o).freed = s.freed := rfl
@[simp] theorem State.emit_nextFreed (o : Out) : (s.emit o).nextFreed = s.nextFreed := rfl
@[simp] theorem State.emit_lost (o : Out) : (s.emit o).lost = s.lost := rfl
@[simp] theorem State.emit_lostAll (o : Out) : (s.emit o).lostAll = s.lostAll := rfl
@[simp] theorem State.emit_mapLost (o : Out) : (s.emit o).mapLost = s.mapLost := rfl
@[simp] theorem State.emit_manifests (o : Out) : (s.emit o).manifests = s.manifests := rfl
@[simp] theorem State.emit_nextManifest (o : Out) : (s.emit o).nextManifest = s.nextManifest := rfl
@[simp] theorem State.emit_admitOrder (o : Out) : (s.emit o).admitOrder = s.admitOrder := rfl
@[simp] theorem State.emit_berths (o : Out) : (s.emit o).berths = s.berths := rfl
@[simp] theorem State.emit_arbs (o : Out) : (s.emit o).arbs = s.arbs := rfl
@[simp] theorem State.emit_peers (o : Out) : (s.emit o).peers = s.peers := rfl
@[simp] theorem State.emit_routes (o : Out) : (s.emit o).routes = s.routes := rfl
@[simp] theorem State.emit_vdevs (o : Out) : (s.emit o).vdevs = s.vdevs := rfl
@[simp] theorem State.emit_comps (o : Out) : (s.emit o).comps = s.comps := rfl
@[simp] theorem State.emit_proposals (o : Out) : (s.emit o).proposals = s.proposals := rfl
@[simp] theorem State.emit_composeWaits (o : Out) : (s.emit o).composeWaits = s.composeWaits := rfl
@[simp] theorem State.emit_handoffsHeld (o : Out) : (s.emit o).handoffsHeld = s.handoffsHeld := rfl
@[simp] theorem State.emit_handoffsTaken (o : Out) : (s.emit o).handoffsTaken = s.handoffsTaken := rfl
@[simp] theorem State.emit_hoDisputes (o : Out) : (s.emit o).hoDisputes = s.hoDisputes := rfl
@[simp] theorem State.emit_hoOutcomes (o : Out) : (s.emit o).hoOutcomes = s.hoOutcomes := rfl
@[simp] theorem State.emit_nextHid (o : Out) : (s.emit o).nextHid = s.nextHid := rfl
@[simp] theorem State.emit_discovery (o : Out) : (s.emit o).discovery = s.discovery := rfl
@[simp] theorem State.emit_ports (o : Out) : (s.emit o).ports = s.ports := rfl
@[simp] theorem State.emit_ptp (o : Out) : (s.emit o).ptp = s.ptp := rfl
@[simp] theorem State.emit_saPending (o : Out) : (s.emit o).saPending = s.saPending := rfl
@[simp] theorem State.emit_faults (o : Out) : (s.emit o).faults = s.faults := rfl
@[simp] theorem State.emit_lastFaults (o : Out) : (s.emit o).lastFaults = s.lastFaults := rfl
@[simp] theorem State.emit_startSummary (o : Out) : (s.emit o).startSummary = s.startSummary := rfl
@[simp] theorem State.emit_faultSeq (o : Out) : (s.emit o).faultSeq = s.faultSeq := rfl
@[simp] theorem State.emit_faultMirrored (o : Out) : (s.emit o).faultMirrored = s.faultMirrored := rfl
@[simp] theorem State.emit_faultConsumed (o : Out) : (s.emit o).faultConsumed = s.faultConsumed := rfl
@[simp] theorem State.emit_key (o : Out) : (s.emit o).key = s.key := rfl
@[simp] theorem State.emit_power (o : Out) : (s.emit o).power = s.power := rfl
@[simp] theorem State.emit_instCmds (o : Out) : (s.emit o).instCmds = s.instCmds := rfl
@[simp] theorem State.emit_vfCount (o : Out) : (s.emit o).vfCount = s.vfCount := rfl
@[simp] theorem State.emit_brtServed (o : Out) : (s.emit o).brtServed = s.brtServed := rfl
@[simp] theorem State.emit_irqLast (o : Out) : (s.emit o).irqLast = s.irqLast := rfl
@[simp] theorem State.emit_irqDeferred (o : Out) : (s.emit o).irqDeferred = s.irqDeferred := rfl
@[simp] theorem State.emit_start (o : Out) : (s.emit o).start = s.start := rfl
@[simp] theorem State.emit_ferryDown (o : Out) : (s.emit o).ferryDown = s.ferryDown := rfl
@[simp] theorem State.emit_ceLimit (o : Out) : (s.emit o).ceLimit = s.ceLimit := rfl
@[simp] theorem State.emit_tracing (o : Out) : (s.emit o).tracing = s.tracing := rfl
@[simp] theorem State.emit_trace (o : Out) : (s.emit o).trace = s.trace := rfl
@[simp] theorem State.emit_alerts (o : Out) : (s.emit o).alerts = s.alerts := rfl
@[simp] theorem State.emit_free (o : Out) : (s.emit o).free = s.free := rfl
@[simp] theorem State.emit_misused (o : Out) : (s.emit o).misused = s.misused := rfl

@[simp] theorem State.tick_pending : (s.tick).pending = s.pending := rfl
@[simp] theorem State.tick_powered : (s.tick).powered = s.powered := rfl
@[simp] theorem State.tick_supplyBroken : (s.tick).supplyBroken = s.supplyBroken := rfl
@[simp] theorem State.tick_beat : (s.tick).beat = s.beat := rfl
@[simp] theorem State.tick_regs : (s.tick).regs = s.regs := rfl
@[simp] theorem State.tick_shadow : (s.tick).shadow = s.shadow := rfl
@[simp] theorem State.tick_busRead : (s.tick).busRead = s.busRead := rfl
@[simp] theorem State.tick_cores : (s.tick).cores = s.cores := rfl
@[simp] theorem State.tick_parts : (s.tick).parts = s.parts := rfl
@[simp] theorem State.tick_mem : (s.tick).mem = s.mem := rfl
@[simp] theorem State.tick_lineErrors : (s.tick).lineErrors = s.lineErrors := rfl
@[simp] theorem State.tick_lineKeys : (s.tick).lineKeys = s.lineKeys := rfl
@[simp] theorem State.tick_host : (s.tick).host = s.host := rfl
@[simp] theorem State.tick_hostUp : (s.tick).hostUp = s.hostUp := rfl
@[simp] theorem State.tick_linkBw : (s.tick).linkBw = s.linkBw := rfl
@[simp] theorem State.tick_hostDownAt : (s.tick).hostDownAt = s.hostDownAt := rfl
@[simp] theorem State.tick_hostHeld : (s.tick).hostHeld = s.hostHeld := rfl
@[simp] theorem State.tick_flash : (s.tick).flash = s.flash := rfl
@[simp] theorem State.tick_ueList : (s.tick).ueList = s.ueList := rfl
@[simp] theorem State.tick_moves : (s.tick).moves = s.moves := rfl
@[simp] theorem State.tick_nextMove : (s.tick).nextMove = s.nextMove := rfl
@[simp] theorem State.tick_colls : (s.tick).colls = s.colls := rfl
@[simp] theorem State.tick_held : (s.tick).held = s.held := rfl
@[simp] theorem State.tick_nextHeld : (s.tick).nextHeld = s.nextHeld := rfl
@[simp] theorem State.tick_cache : (s.tick).cache = s.cache := rfl
@[simp] theorem State.tick_fences : (s.tick).fences = s.fences := rfl
@[simp] theorem State.tick_resident : (s.tick).resident = s.resident := rfl
@[simp] theorem State.tick_remotePages : (s.tick).remotePages = s.remotePages := rfl
@[simp] theorem State.tick_pageMirrors : (s.tick).pageMirrors = s.pageMirrors := rfl
@[simp] theorem State.tick_bins : (s.tick).bins = s.bins := rfl
@[simp] theorem State.tick_freed : (s.tick).freed = s.freed := rfl
@[simp] theorem State.tick_nextFreed : (s.tick).nextFreed = s.nextFreed := rfl
@[simp] theorem State.tick_lost : (s.tick).lost = s.lost := rfl
@[simp] theorem State.tick_lostAll : (s.tick).lostAll = s.lostAll := rfl
@[simp] theorem State.tick_mapLost : (s.tick).mapLost = s.mapLost := rfl
@[simp] theorem State.tick_manifests : (s.tick).manifests = s.manifests := rfl
@[simp] theorem State.tick_nextManifest : (s.tick).nextManifest = s.nextManifest := rfl
@[simp] theorem State.tick_admitOrder : (s.tick).admitOrder = s.admitOrder := rfl
@[simp] theorem State.tick_berths : (s.tick).berths = s.berths := rfl
@[simp] theorem State.tick_arbs : (s.tick).arbs = s.arbs := rfl
@[simp] theorem State.tick_peers : (s.tick).peers = s.peers := rfl
@[simp] theorem State.tick_routes : (s.tick).routes = s.routes := rfl
@[simp] theorem State.tick_vdevs : (s.tick).vdevs = s.vdevs := rfl
@[simp] theorem State.tick_comps : (s.tick).comps = s.comps := rfl
@[simp] theorem State.tick_proposals : (s.tick).proposals = s.proposals := rfl
@[simp] theorem State.tick_composeWaits : (s.tick).composeWaits = s.composeWaits := rfl
@[simp] theorem State.tick_handoffsHeld : (s.tick).handoffsHeld = s.handoffsHeld := rfl
@[simp] theorem State.tick_handoffsTaken : (s.tick).handoffsTaken = s.handoffsTaken := rfl
@[simp] theorem State.tick_hoDisputes : (s.tick).hoDisputes = s.hoDisputes := rfl
@[simp] theorem State.tick_hoOutcomes : (s.tick).hoOutcomes = s.hoOutcomes := rfl
@[simp] theorem State.tick_nextHid : (s.tick).nextHid = s.nextHid := rfl
@[simp] theorem State.tick_discovery : (s.tick).discovery = s.discovery := rfl
@[simp] theorem State.tick_ports : (s.tick).ports = s.ports := rfl
@[simp] theorem State.tick_ptp : (s.tick).ptp = s.ptp := rfl
@[simp] theorem State.tick_saPending : (s.tick).saPending = s.saPending := rfl
@[simp] theorem State.tick_faults : (s.tick).faults = s.faults := rfl
@[simp] theorem State.tick_lastFaults : (s.tick).lastFaults = s.lastFaults := rfl
@[simp] theorem State.tick_startSummary : (s.tick).startSummary = s.startSummary := rfl
@[simp] theorem State.tick_faultSeq : (s.tick).faultSeq = s.faultSeq := rfl
@[simp] theorem State.tick_faultMirrored : (s.tick).faultMirrored = s.faultMirrored := rfl
@[simp] theorem State.tick_faultConsumed : (s.tick).faultConsumed = s.faultConsumed := rfl
@[simp] theorem State.tick_key : (s.tick).key = s.key := rfl
@[simp] theorem State.tick_power : (s.tick).power = s.power := rfl
@[simp] theorem State.tick_instCmds : (s.tick).instCmds = s.instCmds := rfl
@[simp] theorem State.tick_vfCount : (s.tick).vfCount = s.vfCount := rfl
@[simp] theorem State.tick_brtServed : (s.tick).brtServed = s.brtServed := rfl
@[simp] theorem State.tick_irqLast : (s.tick).irqLast = s.irqLast := rfl
@[simp] theorem State.tick_irqDeferred : (s.tick).irqDeferred = s.irqDeferred := rfl
@[simp] theorem State.tick_start : (s.tick).start = s.start := rfl
@[simp] theorem State.tick_ferryDown : (s.tick).ferryDown = s.ferryDown := rfl
@[simp] theorem State.tick_ceLimit : (s.tick).ceLimit = s.ceLimit := rfl
@[simp] theorem State.tick_tracing : (s.tick).tracing = s.tracing := rfl
@[simp] theorem State.tick_trace : (s.tick).trace = s.trace := rfl
@[simp] theorem State.tick_alerts : (s.tick).alerts = s.alerts := rfl
@[simp] theorem State.tick_out : (s.tick).out = s.out := rfl
@[simp] theorem State.tick_misused : (s.tick).misused = s.misused := rfl

@[simp] theorem State.misuse_pending (r : Reach) : (s.misuse r).pending = s.pending := rfl
@[simp] theorem State.misuse_powered (r : Reach) : (s.misuse r).powered = s.powered := rfl
@[simp] theorem State.misuse_supplyBroken (r : Reach) : (s.misuse r).supplyBroken = s.supplyBroken := rfl
@[simp] theorem State.misuse_beat (r : Reach) : (s.misuse r).beat = s.beat := rfl
@[simp] theorem State.misuse_regs (r : Reach) : (s.misuse r).regs = s.regs := rfl
@[simp] theorem State.misuse_shadow (r : Reach) : (s.misuse r).shadow = s.shadow := rfl
@[simp] theorem State.misuse_busRead (r : Reach) : (s.misuse r).busRead = s.busRead := rfl
@[simp] theorem State.misuse_cores (r : Reach) : (s.misuse r).cores = s.cores := rfl
@[simp] theorem State.misuse_parts (r : Reach) : (s.misuse r).parts = s.parts := rfl
@[simp] theorem State.misuse_mem (r : Reach) : (s.misuse r).mem = s.mem := rfl
@[simp] theorem State.misuse_lineErrors (r : Reach) : (s.misuse r).lineErrors = s.lineErrors := rfl
@[simp] theorem State.misuse_lineKeys (r : Reach) : (s.misuse r).lineKeys = s.lineKeys := rfl
@[simp] theorem State.misuse_host (r : Reach) : (s.misuse r).host = s.host := rfl
@[simp] theorem State.misuse_hostUp (r : Reach) : (s.misuse r).hostUp = s.hostUp := rfl
@[simp] theorem State.misuse_linkBw (r : Reach) : (s.misuse r).linkBw = s.linkBw := rfl
@[simp] theorem State.misuse_hostDownAt (r : Reach) : (s.misuse r).hostDownAt = s.hostDownAt := rfl
@[simp] theorem State.misuse_hostHeld (r : Reach) : (s.misuse r).hostHeld = s.hostHeld := rfl
@[simp] theorem State.misuse_flash (r : Reach) : (s.misuse r).flash = s.flash := rfl
@[simp] theorem State.misuse_ueList (r : Reach) : (s.misuse r).ueList = s.ueList := rfl
@[simp] theorem State.misuse_moves (r : Reach) : (s.misuse r).moves = s.moves := rfl
@[simp] theorem State.misuse_nextMove (r : Reach) : (s.misuse r).nextMove = s.nextMove := rfl
@[simp] theorem State.misuse_colls (r : Reach) : (s.misuse r).colls = s.colls := rfl
@[simp] theorem State.misuse_held (r : Reach) : (s.misuse r).held = s.held := rfl
@[simp] theorem State.misuse_nextHeld (r : Reach) : (s.misuse r).nextHeld = s.nextHeld := rfl
@[simp] theorem State.misuse_cache (r : Reach) : (s.misuse r).cache = s.cache := rfl
@[simp] theorem State.misuse_fences (r : Reach) : (s.misuse r).fences = s.fences := rfl
@[simp] theorem State.misuse_resident (r : Reach) : (s.misuse r).resident = s.resident := rfl
@[simp] theorem State.misuse_remotePages (r : Reach) : (s.misuse r).remotePages = s.remotePages := rfl
@[simp] theorem State.misuse_pageMirrors (r : Reach) : (s.misuse r).pageMirrors = s.pageMirrors := rfl
@[simp] theorem State.misuse_bins (r : Reach) : (s.misuse r).bins = s.bins := rfl
@[simp] theorem State.misuse_freed (r : Reach) : (s.misuse r).freed = s.freed := rfl
@[simp] theorem State.misuse_nextFreed (r : Reach) : (s.misuse r).nextFreed = s.nextFreed := rfl
@[simp] theorem State.misuse_lost (r : Reach) : (s.misuse r).lost = s.lost := rfl
@[simp] theorem State.misuse_lostAll (r : Reach) : (s.misuse r).lostAll = s.lostAll := rfl
@[simp] theorem State.misuse_mapLost (r : Reach) : (s.misuse r).mapLost = s.mapLost := rfl
@[simp] theorem State.misuse_manifests (r : Reach) : (s.misuse r).manifests = s.manifests := rfl
@[simp] theorem State.misuse_nextManifest (r : Reach) : (s.misuse r).nextManifest = s.nextManifest := rfl
@[simp] theorem State.misuse_admitOrder (r : Reach) : (s.misuse r).admitOrder = s.admitOrder := rfl
@[simp] theorem State.misuse_berths (r : Reach) : (s.misuse r).berths = s.berths := rfl
@[simp] theorem State.misuse_arbs (r : Reach) : (s.misuse r).arbs = s.arbs := rfl
@[simp] theorem State.misuse_peers (r : Reach) : (s.misuse r).peers = s.peers := rfl
@[simp] theorem State.misuse_routes (r : Reach) : (s.misuse r).routes = s.routes := rfl
@[simp] theorem State.misuse_vdevs (r : Reach) : (s.misuse r).vdevs = s.vdevs := rfl
@[simp] theorem State.misuse_comps (r : Reach) : (s.misuse r).comps = s.comps := rfl
@[simp] theorem State.misuse_proposals (r : Reach) : (s.misuse r).proposals = s.proposals := rfl
@[simp] theorem State.misuse_composeWaits (r : Reach) : (s.misuse r).composeWaits = s.composeWaits := rfl
@[simp] theorem State.misuse_handoffsHeld (r : Reach) : (s.misuse r).handoffsHeld = s.handoffsHeld := rfl
@[simp] theorem State.misuse_handoffsTaken (r : Reach) : (s.misuse r).handoffsTaken = s.handoffsTaken := rfl
@[simp] theorem State.misuse_hoDisputes (r : Reach) : (s.misuse r).hoDisputes = s.hoDisputes := rfl
@[simp] theorem State.misuse_hoOutcomes (r : Reach) : (s.misuse r).hoOutcomes = s.hoOutcomes := rfl
@[simp] theorem State.misuse_nextHid (r : Reach) : (s.misuse r).nextHid = s.nextHid := rfl
@[simp] theorem State.misuse_discovery (r : Reach) : (s.misuse r).discovery = s.discovery := rfl
@[simp] theorem State.misuse_ports (r : Reach) : (s.misuse r).ports = s.ports := rfl
@[simp] theorem State.misuse_ptp (r : Reach) : (s.misuse r).ptp = s.ptp := rfl
@[simp] theorem State.misuse_saPending (r : Reach) : (s.misuse r).saPending = s.saPending := rfl
@[simp] theorem State.misuse_faults (r : Reach) : (s.misuse r).faults = s.faults := rfl
@[simp] theorem State.misuse_lastFaults (r : Reach) : (s.misuse r).lastFaults = s.lastFaults := rfl
@[simp] theorem State.misuse_startSummary (r : Reach) : (s.misuse r).startSummary = s.startSummary := rfl
@[simp] theorem State.misuse_faultSeq (r : Reach) : (s.misuse r).faultSeq = s.faultSeq := rfl
@[simp] theorem State.misuse_faultMirrored (r : Reach) : (s.misuse r).faultMirrored = s.faultMirrored := rfl
@[simp] theorem State.misuse_faultConsumed (r : Reach) : (s.misuse r).faultConsumed = s.faultConsumed := rfl
@[simp] theorem State.misuse_key (r : Reach) : (s.misuse r).key = s.key := rfl
@[simp] theorem State.misuse_power (r : Reach) : (s.misuse r).power = s.power := rfl
@[simp] theorem State.misuse_instCmds (r : Reach) : (s.misuse r).instCmds = s.instCmds := rfl
@[simp] theorem State.misuse_vfCount (r : Reach) : (s.misuse r).vfCount = s.vfCount := rfl
@[simp] theorem State.misuse_brtServed (r : Reach) : (s.misuse r).brtServed = s.brtServed := rfl
@[simp] theorem State.misuse_irqLast (r : Reach) : (s.misuse r).irqLast = s.irqLast := rfl
@[simp] theorem State.misuse_irqDeferred (r : Reach) : (s.misuse r).irqDeferred = s.irqDeferred := rfl
@[simp] theorem State.misuse_start (r : Reach) : (s.misuse r).start = s.start := rfl
@[simp] theorem State.misuse_ferryDown (r : Reach) : (s.misuse r).ferryDown = s.ferryDown := rfl
@[simp] theorem State.misuse_ceLimit (r : Reach) : (s.misuse r).ceLimit = s.ceLimit := rfl
@[simp] theorem State.misuse_tracing (r : Reach) : (s.misuse r).tracing = s.tracing := rfl
@[simp] theorem State.misuse_trace (r : Reach) : (s.misuse r).trace = s.trace := rfl
@[simp] theorem State.misuse_alerts (r : Reach) : (s.misuse r).alerts = s.alerts := rfl
@[simp] theorem State.misuse_out (r : Reach) : (s.misuse r).out = s.out := rfl
@[simp] theorem State.misuse_free (r : Reach) : (s.misuse r).free = s.free := rfl

@[simp] theorem State.hostPut_pending (o : Nat) (l : List Byte) : (s.hostPut o l).pending = s.pending := rfl
@[simp] theorem State.hostPut_powered (o : Nat) (l : List Byte) : (s.hostPut o l).powered = s.powered := rfl
@[simp] theorem State.hostPut_supplyBroken (o : Nat) (l : List Byte) : (s.hostPut o l).supplyBroken = s.supplyBroken := rfl
@[simp] theorem State.hostPut_beat (o : Nat) (l : List Byte) : (s.hostPut o l).beat = s.beat := rfl
@[simp] theorem State.hostPut_regs (o : Nat) (l : List Byte) : (s.hostPut o l).regs = s.regs := rfl
@[simp] theorem State.hostPut_shadow (o : Nat) (l : List Byte) : (s.hostPut o l).shadow = s.shadow := rfl
@[simp] theorem State.hostPut_busRead (o : Nat) (l : List Byte) : (s.hostPut o l).busRead = s.busRead := rfl
@[simp] theorem State.hostPut_cores (o : Nat) (l : List Byte) : (s.hostPut o l).cores = s.cores := rfl
@[simp] theorem State.hostPut_parts (o : Nat) (l : List Byte) : (s.hostPut o l).parts = s.parts := rfl
@[simp] theorem State.hostPut_mem (o : Nat) (l : List Byte) : (s.hostPut o l).mem = s.mem := rfl
@[simp] theorem State.hostPut_lineErrors (o : Nat) (l : List Byte) : (s.hostPut o l).lineErrors = s.lineErrors := rfl
@[simp] theorem State.hostPut_lineKeys (o : Nat) (l : List Byte) : (s.hostPut o l).lineKeys = s.lineKeys := rfl
@[simp] theorem State.hostPut_hostUp (o : Nat) (l : List Byte) : (s.hostPut o l).hostUp = s.hostUp := rfl
@[simp] theorem State.hostPut_linkBw (o : Nat) (l : List Byte) : (s.hostPut o l).linkBw = s.linkBw := rfl
@[simp] theorem State.hostPut_hostDownAt (o : Nat) (l : List Byte) : (s.hostPut o l).hostDownAt = s.hostDownAt := rfl
@[simp] theorem State.hostPut_hostHeld (o : Nat) (l : List Byte) : (s.hostPut o l).hostHeld = s.hostHeld := rfl
@[simp] theorem State.hostPut_flash (o : Nat) (l : List Byte) : (s.hostPut o l).flash = s.flash := rfl
@[simp] theorem State.hostPut_ueList (o : Nat) (l : List Byte) : (s.hostPut o l).ueList = s.ueList := rfl
@[simp] theorem State.hostPut_moves (o : Nat) (l : List Byte) : (s.hostPut o l).moves = s.moves := rfl
@[simp] theorem State.hostPut_nextMove (o : Nat) (l : List Byte) : (s.hostPut o l).nextMove = s.nextMove := rfl
@[simp] theorem State.hostPut_colls (o : Nat) (l : List Byte) : (s.hostPut o l).colls = s.colls := rfl
@[simp] theorem State.hostPut_held (o : Nat) (l : List Byte) : (s.hostPut o l).held = s.held := rfl
@[simp] theorem State.hostPut_nextHeld (o : Nat) (l : List Byte) : (s.hostPut o l).nextHeld = s.nextHeld := rfl
@[simp] theorem State.hostPut_cache (o : Nat) (l : List Byte) : (s.hostPut o l).cache = s.cache := rfl
@[simp] theorem State.hostPut_fences (o : Nat) (l : List Byte) : (s.hostPut o l).fences = s.fences := rfl
@[simp] theorem State.hostPut_resident (o : Nat) (l : List Byte) : (s.hostPut o l).resident = s.resident := rfl
@[simp] theorem State.hostPut_remotePages (o : Nat) (l : List Byte) : (s.hostPut o l).remotePages = s.remotePages := rfl
@[simp] theorem State.hostPut_pageMirrors (o : Nat) (l : List Byte) : (s.hostPut o l).pageMirrors = s.pageMirrors := rfl
@[simp] theorem State.hostPut_bins (o : Nat) (l : List Byte) : (s.hostPut o l).bins = s.bins := rfl
@[simp] theorem State.hostPut_freed (o : Nat) (l : List Byte) : (s.hostPut o l).freed = s.freed := rfl
@[simp] theorem State.hostPut_nextFreed (o : Nat) (l : List Byte) : (s.hostPut o l).nextFreed = s.nextFreed := rfl
@[simp] theorem State.hostPut_lost (o : Nat) (l : List Byte) : (s.hostPut o l).lost = s.lost := rfl
@[simp] theorem State.hostPut_lostAll (o : Nat) (l : List Byte) : (s.hostPut o l).lostAll = s.lostAll := rfl
@[simp] theorem State.hostPut_mapLost (o : Nat) (l : List Byte) : (s.hostPut o l).mapLost = s.mapLost := rfl
@[simp] theorem State.hostPut_manifests (o : Nat) (l : List Byte) : (s.hostPut o l).manifests = s.manifests := rfl
@[simp] theorem State.hostPut_nextManifest (o : Nat) (l : List Byte) : (s.hostPut o l).nextManifest = s.nextManifest := rfl
@[simp] theorem State.hostPut_admitOrder (o : Nat) (l : List Byte) : (s.hostPut o l).admitOrder = s.admitOrder := rfl
@[simp] theorem State.hostPut_berths (o : Nat) (l : List Byte) : (s.hostPut o l).berths = s.berths := rfl
@[simp] theorem State.hostPut_arbs (o : Nat) (l : List Byte) : (s.hostPut o l).arbs = s.arbs := rfl
@[simp] theorem State.hostPut_peers (o : Nat) (l : List Byte) : (s.hostPut o l).peers = s.peers := rfl
@[simp] theorem State.hostPut_routes (o : Nat) (l : List Byte) : (s.hostPut o l).routes = s.routes := rfl
@[simp] theorem State.hostPut_vdevs (o : Nat) (l : List Byte) : (s.hostPut o l).vdevs = s.vdevs := rfl
@[simp] theorem State.hostPut_comps (o : Nat) (l : List Byte) : (s.hostPut o l).comps = s.comps := rfl
@[simp] theorem State.hostPut_proposals (o : Nat) (l : List Byte) : (s.hostPut o l).proposals = s.proposals := rfl
@[simp] theorem State.hostPut_composeWaits (o : Nat) (l : List Byte) : (s.hostPut o l).composeWaits = s.composeWaits := rfl
@[simp] theorem State.hostPut_handoffsHeld (o : Nat) (l : List Byte) : (s.hostPut o l).handoffsHeld = s.handoffsHeld := rfl
@[simp] theorem State.hostPut_handoffsTaken (o : Nat) (l : List Byte) : (s.hostPut o l).handoffsTaken = s.handoffsTaken := rfl
@[simp] theorem State.hostPut_hoDisputes (o : Nat) (l : List Byte) : (s.hostPut o l).hoDisputes = s.hoDisputes := rfl
@[simp] theorem State.hostPut_hoOutcomes (o : Nat) (l : List Byte) : (s.hostPut o l).hoOutcomes = s.hoOutcomes := rfl
@[simp] theorem State.hostPut_nextHid (o : Nat) (l : List Byte) : (s.hostPut o l).nextHid = s.nextHid := rfl
@[simp] theorem State.hostPut_discovery (o : Nat) (l : List Byte) : (s.hostPut o l).discovery = s.discovery := rfl
@[simp] theorem State.hostPut_ports (o : Nat) (l : List Byte) : (s.hostPut o l).ports = s.ports := rfl
@[simp] theorem State.hostPut_ptp (o : Nat) (l : List Byte) : (s.hostPut o l).ptp = s.ptp := rfl
@[simp] theorem State.hostPut_saPending (o : Nat) (l : List Byte) : (s.hostPut o l).saPending = s.saPending := rfl
@[simp] theorem State.hostPut_faults (o : Nat) (l : List Byte) : (s.hostPut o l).faults = s.faults := rfl
@[simp] theorem State.hostPut_lastFaults (o : Nat) (l : List Byte) : (s.hostPut o l).lastFaults = s.lastFaults := rfl
@[simp] theorem State.hostPut_startSummary (o : Nat) (l : List Byte) : (s.hostPut o l).startSummary = s.startSummary := rfl
@[simp] theorem State.hostPut_faultSeq (o : Nat) (l : List Byte) : (s.hostPut o l).faultSeq = s.faultSeq := rfl
@[simp] theorem State.hostPut_faultMirrored (o : Nat) (l : List Byte) : (s.hostPut o l).faultMirrored = s.faultMirrored := rfl
@[simp] theorem State.hostPut_faultConsumed (o : Nat) (l : List Byte) : (s.hostPut o l).faultConsumed = s.faultConsumed := rfl
@[simp] theorem State.hostPut_key (o : Nat) (l : List Byte) : (s.hostPut o l).key = s.key := rfl
@[simp] theorem State.hostPut_power (o : Nat) (l : List Byte) : (s.hostPut o l).power = s.power := rfl
@[simp] theorem State.hostPut_instCmds (o : Nat) (l : List Byte) : (s.hostPut o l).instCmds = s.instCmds := rfl
@[simp] theorem State.hostPut_vfCount (o : Nat) (l : List Byte) : (s.hostPut o l).vfCount = s.vfCount := rfl
@[simp] theorem State.hostPut_brtServed (o : Nat) (l : List Byte) : (s.hostPut o l).brtServed = s.brtServed := rfl
@[simp] theorem State.hostPut_irqLast (o : Nat) (l : List Byte) : (s.hostPut o l).irqLast = s.irqLast := rfl
@[simp] theorem State.hostPut_irqDeferred (o : Nat) (l : List Byte) : (s.hostPut o l).irqDeferred = s.irqDeferred := rfl
@[simp] theorem State.hostPut_start (o : Nat) (l : List Byte) : (s.hostPut o l).start = s.start := rfl
@[simp] theorem State.hostPut_ferryDown (o : Nat) (l : List Byte) : (s.hostPut o l).ferryDown = s.ferryDown := rfl
@[simp] theorem State.hostPut_ceLimit (o : Nat) (l : List Byte) : (s.hostPut o l).ceLimit = s.ceLimit := rfl
@[simp] theorem State.hostPut_tracing (o : Nat) (l : List Byte) : (s.hostPut o l).tracing = s.tracing := rfl
@[simp] theorem State.hostPut_trace (o : Nat) (l : List Byte) : (s.hostPut o l).trace = s.trace := rfl
@[simp] theorem State.hostPut_alerts (o : Nat) (l : List Byte) : (s.hostPut o l).alerts = s.alerts := rfl
@[simp] theorem State.hostPut_out (o : Nat) (l : List Byte) : (s.hostPut o l).out = s.out := rfl
@[simp] theorem State.hostPut_free (o : Nat) (l : List Byte) : (s.hostPut o l).free = s.free := rfl
@[simp] theorem State.hostPut_misused (o : Nat) (l : List Byte) : (s.hostPut o l).misused = s.misused := rfl

@[simp] theorem State.hostStores_pending (w : HostStores) : (s.hostStores w).pending = s.pending := rfl
@[simp] theorem State.hostStores_powered (w : HostStores) : (s.hostStores w).powered = s.powered := rfl
@[simp] theorem State.hostStores_supplyBroken (w : HostStores) : (s.hostStores w).supplyBroken = s.supplyBroken := rfl
@[simp] theorem State.hostStores_beat (w : HostStores) : (s.hostStores w).beat = s.beat := rfl
@[simp] theorem State.hostStores_regs (w : HostStores) : (s.hostStores w).regs = s.regs := rfl
@[simp] theorem State.hostStores_shadow (w : HostStores) : (s.hostStores w).shadow = s.shadow := rfl
@[simp] theorem State.hostStores_busRead (w : HostStores) : (s.hostStores w).busRead = s.busRead := rfl
@[simp] theorem State.hostStores_cores (w : HostStores) : (s.hostStores w).cores = s.cores := rfl
@[simp] theorem State.hostStores_parts (w : HostStores) : (s.hostStores w).parts = s.parts := rfl
@[simp] theorem State.hostStores_mem (w : HostStores) : (s.hostStores w).mem = s.mem := rfl
@[simp] theorem State.hostStores_lineErrors (w : HostStores) : (s.hostStores w).lineErrors = s.lineErrors := rfl
@[simp] theorem State.hostStores_lineKeys (w : HostStores) : (s.hostStores w).lineKeys = s.lineKeys := rfl
@[simp] theorem State.hostStores_hostUp (w : HostStores) : (s.hostStores w).hostUp = s.hostUp := rfl
@[simp] theorem State.hostStores_linkBw (w : HostStores) : (s.hostStores w).linkBw = s.linkBw := rfl
@[simp] theorem State.hostStores_hostDownAt (w : HostStores) : (s.hostStores w).hostDownAt = s.hostDownAt := rfl
@[simp] theorem State.hostStores_hostHeld (w : HostStores) : (s.hostStores w).hostHeld = s.hostHeld := rfl
@[simp] theorem State.hostStores_flash (w : HostStores) : (s.hostStores w).flash = s.flash := rfl
@[simp] theorem State.hostStores_ueList (w : HostStores) : (s.hostStores w).ueList = s.ueList := rfl
@[simp] theorem State.hostStores_moves (w : HostStores) : (s.hostStores w).moves = s.moves := rfl
@[simp] theorem State.hostStores_nextMove (w : HostStores) : (s.hostStores w).nextMove = s.nextMove := rfl
@[simp] theorem State.hostStores_colls (w : HostStores) : (s.hostStores w).colls = s.colls := rfl
@[simp] theorem State.hostStores_held (w : HostStores) : (s.hostStores w).held = s.held := rfl
@[simp] theorem State.hostStores_nextHeld (w : HostStores) : (s.hostStores w).nextHeld = s.nextHeld := rfl
@[simp] theorem State.hostStores_cache (w : HostStores) : (s.hostStores w).cache = s.cache := rfl
@[simp] theorem State.hostStores_fences (w : HostStores) : (s.hostStores w).fences = s.fences := rfl
@[simp] theorem State.hostStores_resident (w : HostStores) : (s.hostStores w).resident = s.resident := rfl
@[simp] theorem State.hostStores_remotePages (w : HostStores) : (s.hostStores w).remotePages = s.remotePages := rfl
@[simp] theorem State.hostStores_pageMirrors (w : HostStores) : (s.hostStores w).pageMirrors = s.pageMirrors := rfl
@[simp] theorem State.hostStores_bins (w : HostStores) : (s.hostStores w).bins = s.bins := rfl
@[simp] theorem State.hostStores_freed (w : HostStores) : (s.hostStores w).freed = s.freed := rfl
@[simp] theorem State.hostStores_nextFreed (w : HostStores) : (s.hostStores w).nextFreed = s.nextFreed := rfl
@[simp] theorem State.hostStores_lost (w : HostStores) : (s.hostStores w).lost = s.lost := rfl
@[simp] theorem State.hostStores_lostAll (w : HostStores) : (s.hostStores w).lostAll = s.lostAll := rfl
@[simp] theorem State.hostStores_mapLost (w : HostStores) : (s.hostStores w).mapLost = s.mapLost := rfl
@[simp] theorem State.hostStores_manifests (w : HostStores) : (s.hostStores w).manifests = s.manifests := rfl
@[simp] theorem State.hostStores_nextManifest (w : HostStores) : (s.hostStores w).nextManifest = s.nextManifest := rfl
@[simp] theorem State.hostStores_admitOrder (w : HostStores) : (s.hostStores w).admitOrder = s.admitOrder := rfl
@[simp] theorem State.hostStores_berths (w : HostStores) : (s.hostStores w).berths = s.berths := rfl
@[simp] theorem State.hostStores_arbs (w : HostStores) : (s.hostStores w).arbs = s.arbs := rfl
@[simp] theorem State.hostStores_peers (w : HostStores) : (s.hostStores w).peers = s.peers := rfl
@[simp] theorem State.hostStores_routes (w : HostStores) : (s.hostStores w).routes = s.routes := rfl
@[simp] theorem State.hostStores_vdevs (w : HostStores) : (s.hostStores w).vdevs = s.vdevs := rfl
@[simp] theorem State.hostStores_comps (w : HostStores) : (s.hostStores w).comps = s.comps := rfl
@[simp] theorem State.hostStores_proposals (w : HostStores) : (s.hostStores w).proposals = s.proposals := rfl
@[simp] theorem State.hostStores_composeWaits (w : HostStores) : (s.hostStores w).composeWaits = s.composeWaits := rfl
@[simp] theorem State.hostStores_handoffsHeld (w : HostStores) : (s.hostStores w).handoffsHeld = s.handoffsHeld := rfl
@[simp] theorem State.hostStores_handoffsTaken (w : HostStores) : (s.hostStores w).handoffsTaken = s.handoffsTaken := rfl
@[simp] theorem State.hostStores_hoDisputes (w : HostStores) : (s.hostStores w).hoDisputes = s.hoDisputes := rfl
@[simp] theorem State.hostStores_hoOutcomes (w : HostStores) : (s.hostStores w).hoOutcomes = s.hoOutcomes := rfl
@[simp] theorem State.hostStores_nextHid (w : HostStores) : (s.hostStores w).nextHid = s.nextHid := rfl
@[simp] theorem State.hostStores_discovery (w : HostStores) : (s.hostStores w).discovery = s.discovery := rfl
@[simp] theorem State.hostStores_ports (w : HostStores) : (s.hostStores w).ports = s.ports := rfl
@[simp] theorem State.hostStores_ptp (w : HostStores) : (s.hostStores w).ptp = s.ptp := rfl
@[simp] theorem State.hostStores_saPending (w : HostStores) : (s.hostStores w).saPending = s.saPending := rfl
@[simp] theorem State.hostStores_faults (w : HostStores) : (s.hostStores w).faults = s.faults := rfl
@[simp] theorem State.hostStores_lastFaults (w : HostStores) : (s.hostStores w).lastFaults = s.lastFaults := rfl
@[simp] theorem State.hostStores_startSummary (w : HostStores) : (s.hostStores w).startSummary = s.startSummary := rfl
@[simp] theorem State.hostStores_faultSeq (w : HostStores) : (s.hostStores w).faultSeq = s.faultSeq := rfl
@[simp] theorem State.hostStores_faultMirrored (w : HostStores) : (s.hostStores w).faultMirrored = s.faultMirrored := rfl
@[simp] theorem State.hostStores_faultConsumed (w : HostStores) : (s.hostStores w).faultConsumed = s.faultConsumed := rfl
@[simp] theorem State.hostStores_key (w : HostStores) : (s.hostStores w).key = s.key := rfl
@[simp] theorem State.hostStores_power (w : HostStores) : (s.hostStores w).power = s.power := rfl
@[simp] theorem State.hostStores_instCmds (w : HostStores) : (s.hostStores w).instCmds = s.instCmds := rfl
@[simp] theorem State.hostStores_vfCount (w : HostStores) : (s.hostStores w).vfCount = s.vfCount := rfl
@[simp] theorem State.hostStores_brtServed (w : HostStores) : (s.hostStores w).brtServed = s.brtServed := rfl
@[simp] theorem State.hostStores_irqLast (w : HostStores) : (s.hostStores w).irqLast = s.irqLast := rfl
@[simp] theorem State.hostStores_irqDeferred (w : HostStores) : (s.hostStores w).irqDeferred = s.irqDeferred := rfl
@[simp] theorem State.hostStores_start (w : HostStores) : (s.hostStores w).start = s.start := rfl
@[simp] theorem State.hostStores_ferryDown (w : HostStores) : (s.hostStores w).ferryDown = s.ferryDown := rfl
@[simp] theorem State.hostStores_ceLimit (w : HostStores) : (s.hostStores w).ceLimit = s.ceLimit := rfl
@[simp] theorem State.hostStores_tracing (w : HostStores) : (s.hostStores w).tracing = s.tracing := rfl
@[simp] theorem State.hostStores_trace (w : HostStores) : (s.hostStores w).trace = s.trace := rfl
@[simp] theorem State.hostStores_alerts (w : HostStores) : (s.hostStores w).alerts = s.alerts := rfl
@[simp] theorem State.hostStores_out (w : HostStores) : (s.hostStores w).out = s.out := rfl
@[simp] theorem State.hostStores_free (w : HostStores) : (s.hostStores w).free = s.free := rfl
@[simp] theorem State.hostStores_misused (w : HostStores) : (s.hostStores w).misused = s.misused := rfl

@[simp] theorem State.framed_pending (t : State) : (s.framed t).pending = s.pending := rfl
@[simp] theorem State.framed_powered (t : State) : (s.framed t).powered = s.powered := rfl
@[simp] theorem State.framed_supplyBroken (t : State) : (s.framed t).supplyBroken = s.supplyBroken := rfl
@[simp] theorem State.framed_beat (t : State) : (s.framed t).beat = s.beat := rfl
@[simp] theorem State.framed_regs (t : State) : (s.framed t).regs = t.regs := rfl
@[simp] theorem State.framed_shadow (t : State) : (s.framed t).shadow = t.shadow := rfl
@[simp] theorem State.framed_busRead (t : State) : (s.framed t).busRead = t.busRead := rfl
@[simp] theorem State.framed_cores (t : State) : (s.framed t).cores = t.cores := rfl
@[simp] theorem State.framed_parts (t : State) : (s.framed t).parts = t.parts := rfl
@[simp] theorem State.framed_mem (t : State) : (s.framed t).mem = t.mem := rfl
@[simp] theorem State.framed_lineErrors (t : State) : (s.framed t).lineErrors = t.lineErrors := rfl
@[simp] theorem State.framed_lineKeys (t : State) : (s.framed t).lineKeys = t.lineKeys := rfl
@[simp] theorem State.framed_host (t : State) : (s.framed t).host = t.host := rfl
@[simp] theorem State.framed_hostUp (t : State) : (s.framed t).hostUp = t.hostUp := rfl
@[simp] theorem State.framed_linkBw (t : State) : (s.framed t).linkBw = t.linkBw := rfl
@[simp] theorem State.framed_hostDownAt (t : State) : (s.framed t).hostDownAt = t.hostDownAt := rfl
@[simp] theorem State.framed_hostHeld (t : State) : (s.framed t).hostHeld = t.hostHeld := rfl
@[simp] theorem State.framed_flash (t : State) : (s.framed t).flash = t.flash := rfl
@[simp] theorem State.framed_ueList (t : State) : (s.framed t).ueList = t.ueList := rfl
@[simp] theorem State.framed_moves (t : State) : (s.framed t).moves = t.moves := rfl
@[simp] theorem State.framed_nextMove (t : State) : (s.framed t).nextMove = t.nextMove := rfl
@[simp] theorem State.framed_colls (t : State) : (s.framed t).colls = t.colls := rfl
@[simp] theorem State.framed_held (t : State) : (s.framed t).held = t.held := rfl
@[simp] theorem State.framed_nextHeld (t : State) : (s.framed t).nextHeld = t.nextHeld := rfl
@[simp] theorem State.framed_cache (t : State) : (s.framed t).cache = t.cache := rfl
@[simp] theorem State.framed_fences (t : State) : (s.framed t).fences = t.fences := rfl
@[simp] theorem State.framed_resident (t : State) : (s.framed t).resident = t.resident := rfl
@[simp] theorem State.framed_remotePages (t : State) : (s.framed t).remotePages = t.remotePages := rfl
@[simp] theorem State.framed_pageMirrors (t : State) : (s.framed t).pageMirrors = t.pageMirrors := rfl
@[simp] theorem State.framed_bins (t : State) : (s.framed t).bins = t.bins := rfl
@[simp] theorem State.framed_freed (t : State) : (s.framed t).freed = t.freed := rfl
@[simp] theorem State.framed_nextFreed (t : State) : (s.framed t).nextFreed = t.nextFreed := rfl
@[simp] theorem State.framed_lost (t : State) : (s.framed t).lost = t.lost := rfl
@[simp] theorem State.framed_lostAll (t : State) : (s.framed t).lostAll = t.lostAll := rfl
@[simp] theorem State.framed_mapLost (t : State) : (s.framed t).mapLost = t.mapLost := rfl
@[simp] theorem State.framed_manifests (t : State) : (s.framed t).manifests = t.manifests := rfl
@[simp] theorem State.framed_nextManifest (t : State) : (s.framed t).nextManifest = t.nextManifest := rfl
@[simp] theorem State.framed_admitOrder (t : State) : (s.framed t).admitOrder = t.admitOrder := rfl
@[simp] theorem State.framed_berths (t : State) : (s.framed t).berths = t.berths := rfl
@[simp] theorem State.framed_arbs (t : State) : (s.framed t).arbs = t.arbs := rfl
@[simp] theorem State.framed_peers (t : State) : (s.framed t).peers = t.peers := rfl
@[simp] theorem State.framed_routes (t : State) : (s.framed t).routes = t.routes := rfl
@[simp] theorem State.framed_vdevs (t : State) : (s.framed t).vdevs = t.vdevs := rfl
@[simp] theorem State.framed_comps (t : State) : (s.framed t).comps = t.comps := rfl
@[simp] theorem State.framed_proposals (t : State) : (s.framed t).proposals = t.proposals := rfl
@[simp] theorem State.framed_composeWaits (t : State) : (s.framed t).composeWaits = t.composeWaits := rfl
@[simp] theorem State.framed_handoffsHeld (t : State) : (s.framed t).handoffsHeld = t.handoffsHeld := rfl
@[simp] theorem State.framed_handoffsTaken (t : State) : (s.framed t).handoffsTaken = t.handoffsTaken := rfl
@[simp] theorem State.framed_hoDisputes (t : State) : (s.framed t).hoDisputes = t.hoDisputes := rfl
@[simp] theorem State.framed_hoOutcomes (t : State) : (s.framed t).hoOutcomes = t.hoOutcomes := rfl
@[simp] theorem State.framed_nextHid (t : State) : (s.framed t).nextHid = t.nextHid := rfl
@[simp] theorem State.framed_discovery (t : State) : (s.framed t).discovery = t.discovery := rfl
@[simp] theorem State.framed_ports (t : State) : (s.framed t).ports = t.ports := rfl
@[simp] theorem State.framed_ptp (t : State) : (s.framed t).ptp = t.ptp := rfl
@[simp] theorem State.framed_saPending (t : State) : (s.framed t).saPending = t.saPending := rfl
@[simp] theorem State.framed_faults (t : State) : (s.framed t).faults = t.faults := rfl
@[simp] theorem State.framed_lastFaults (t : State) : (s.framed t).lastFaults = t.lastFaults := rfl
@[simp] theorem State.framed_startSummary (t : State) : (s.framed t).startSummary = t.startSummary := rfl
@[simp] theorem State.framed_faultSeq (t : State) : (s.framed t).faultSeq = t.faultSeq := rfl
@[simp] theorem State.framed_faultMirrored (t : State) : (s.framed t).faultMirrored = t.faultMirrored := rfl
@[simp] theorem State.framed_faultConsumed (t : State) : (s.framed t).faultConsumed = t.faultConsumed := rfl
@[simp] theorem State.framed_key (t : State) : (s.framed t).key = t.key := rfl
@[simp] theorem State.framed_power (t : State) : (s.framed t).power = t.power := rfl
@[simp] theorem State.framed_instCmds (t : State) : (s.framed t).instCmds = t.instCmds := rfl
@[simp] theorem State.framed_vfCount (t : State) : (s.framed t).vfCount = t.vfCount := rfl
@[simp] theorem State.framed_brtServed (t : State) : (s.framed t).brtServed = t.brtServed := rfl
@[simp] theorem State.framed_irqLast (t : State) : (s.framed t).irqLast = t.irqLast := rfl
@[simp] theorem State.framed_irqDeferred (t : State) : (s.framed t).irqDeferred = t.irqDeferred := rfl
@[simp] theorem State.framed_start (t : State) : (s.framed t).start = t.start := rfl
@[simp] theorem State.framed_ferryDown (t : State) : (s.framed t).ferryDown = t.ferryDown := rfl
@[simp] theorem State.framed_ceLimit (t : State) : (s.framed t).ceLimit = t.ceLimit := rfl
@[simp] theorem State.framed_tracing (t : State) : (s.framed t).tracing = t.tracing := rfl
@[simp] theorem State.framed_trace (t : State) : (s.framed t).trace = t.trace := rfl
@[simp] theorem State.framed_alerts (t : State) : (s.framed t).alerts = t.alerts := rfl
@[simp] theorem State.framed_out (t : State) : (s.framed t).out = t.out := rfl
@[simp] theorem State.framed_free (t : State) : (s.framed t).free = t.free := rfl
@[simp] theorem State.framed_misused (t : State) : (s.framed t).misused = s.misused := rfl

/-- What a core, a partition, a berth or a register holds after it is set. -/
@[simp] theorem State.core_setCore_same (c : CoreId) (x : CoreSt) : (s.setCore c x).core c = x := by
  simp [State.core, State.setCore]

theorem State.core_setCore_other (c d : CoreId) (x : CoreSt) (h : d ≠ c) : (s.setCore c x).core d = s.core d := by
  have h' : c.val ≠ d.val := fun e => h (Fin.ext e.symm)
  simp [State.core, State.setCore, h']

@[simp] theorem State.core_updCore_same (c : CoreId) (f : CoreSt → CoreSt) : (s.updCore c f).core c = f (s.core c) := by
  simp [State.updCore]

theorem State.core_updCore_other (c d : CoreId) (f : CoreSt → CoreSt) (h : d ≠ c) : (s.updCore c f).core d = s.core d :=
  State.core_setCore_other s c d _ h

@[simp] theorem State.part_setPart_same (c : PartId) (x : PartSt) : (s.setPart c x).part c = x := by
  simp [State.part, State.setPart]

theorem State.part_setPart_other (c d : PartId) (x : PartSt) (h : d ≠ c) : (s.setPart c x).part d = s.part d := by
  have h' : c.val ≠ d.val := fun e => h (Fin.ext e.symm)
  simp [State.part, State.setPart, h']

@[simp] theorem State.berth_setBerth_same (c : BerthId) (x : BerthSt) : (s.setBerth c x).berth c = x := by
  simp [State.berth, State.setBerth]

/-- A state that keeps the queue, PWRGD, the supply, the beat and the mark of another is not changed by framing it. -/
theorem State.framed_eq (t : State) (hp : t.pending = s.pending) (hw : t.powered = s.powered)
    (hb : t.supplyBroken = s.supplyBroken) (ht : t.beat = s.beat) (hm : t.misused = s.misused) : s.framed t = t := by
  unfold State.framed
  rw [← hp, ← hw, ← hb, ← ht, ← hm]

end Sys2Proof.Machine
end

