-- ==== Sys2Proof/Laws/Ops.lean ====
section
/-! SUPPORT. What a command can do, said once for each of the two ways a command runs. -/

namespace Sys2Proof.Machine

theorem whenOn_operates {s : State} (h : Operates s) (f : State → State) : whenOn f s = .next (s.framed (f s)) := by
  simp [whenOn, h.1, h.2]

/-- A command that answers a next state ran in a part that operates, or met a part without power. -/
theorem whenOn_next {f : State → State} {s t : State} (h : whenOn f s = .next t) :
    (Operates s ∧ t = s.framed (f s)) ∨ (s.powered = false ∧ t = s) := by
  unfold whenOn at h
  split at h
  · cases h
  · rename_i hb
    split at h
    · rename_i hp
      exact .inl ⟨⟨hp, by simpa using hb⟩, by cases h; rfl⟩
    · rename_i hp
      exact .inr ⟨by simpa using hp, by cases h; rfl⟩

theorem whenChecked_operates {s : State} (h : Operates s) (f : State → State) (hm : (f s).misused = none) :
    whenChecked f s = .next (s.framed (f s)) := by
  simp [whenChecked, h.1, h.2, hm]

theorem whenChecked_next {f : State → State} {s t : State} (h : whenChecked f s = .next t) :
    (Operates s ∧ (f s).misused = none ∧ t = s.framed (f s)) ∨ (s.powered = false ∧ t = s) := by
  unfold whenChecked at h
  split at h
  · cases h
  · rename_i hb
    split at h
    · rename_i hp
      simp only at h
      split at h
      · cases h
      · rename_i hm
        exact .inl ⟨⟨hp, by simpa using hb⟩, hm, by cases h; rfl⟩
    · rename_i hp
      exact .inr ⟨by simpa using hp, by cases h; rfl⟩

theorem whenOn_outside {f : State → State} {s : State} (h : s.supplyBroken = true) :
    whenOn f s = .fault .outsideLimits := by simp [whenOn, h]

theorem whenChecked_outside {f : State → State} {s : State} (h : s.supplyBroken = true) :
    whenChecked f s = .fault .outsideLimits := by simp [whenChecked, h]

/-- A row of the host's register window, where the host reaches the register. -/
theorem hostWrite_reached {s : State} (h : Operates s) (off : Nat) (f : State → State) (hr : s.hostReaches off = true) :
    hostWrite off f s = .next (s.framed (f s)) := by
  simp [hostWrite, whenOn_operates h, hr]

/-- A read of an RC register that the host reaches returns its value and leaves zero (R13). -/
theorem hostReadClear_reached {s : State} (h : Operates s) (off : Nat) (hu : s.hostUp = true) (ha : s.answers off = true) :
    hostReadClear off s = .next (s.readClear off) := by
  simp only [hostReadClear, whenOn_operates h, hu, ha]
  rfl

end Sys2Proof.Machine
end

