-- ==== Sys2Proof/Laws/Exec.lean ====
section
/-! SUPPORT. How every command runs: as an effect on a part that operates, checked for a misuse where one can be met. -/

namespace Sys2Proof.Machine

/-- A command whose effect runs through one of the two wrappers; only one that can meet a misuse is checked for it. -/
def RunsBy (i : Instr) (s : State) : Prop :=
  (∃ f, exec i s = whenOn f s) ∨ (canMisuse i = true ∧ ∃ f, exec i s = whenChecked f s)

/-- An answer that comes through the wrapper without the check. -/
theorem runsBy_on {i : Instr} {s : State} (f : State → State) (h : exec i s = whenOn f s) : RunsBy i s := .inl ⟨f, h⟩

theorem runs_on {i : Instr} {s : State} (r : Answer) (h : exec i s = r) (w : ∃ f, r = whenOn f s) : RunsBy i s :=
  .inl (by rw [h]; exact w)

theorem runs_checked {i : Instr} {s : State} (r : Answer) (h : exec i s = r) (c : canMisuse i = true)
    (w : ∃ f, r = whenChecked f s) : RunsBy i s :=
  .inr ⟨c, by rw [h]; exact w⟩

/-- Every command but the three of the supply and PTP_MESSAGE runs so. -/
theorem command_runs (i : Instr) (s : State) (h1 : i ≠ .powerGood) (h2 : i ≠ .powerDown) (h3 : i ≠ .supplyFault)
    (h4 : isPtpMessage i = false) :
    RunsBy i s :=
  match i with
  | .powerGood => absurd rfl h1
  | .powerDown => absurd rfl h2
  | .supplyFault => absurd rfl h3
  | .frameWrite rx e d =>
    runs_checked (execFrameWrite rx e d s) rfl rfl (by unfold execFrameWrite dataFrame; exact ⟨_, rfl⟩)
  | .frameRead rx e => runs_checked (execFrameRead rx e s) rfl rfl (by unfold execFrameRead dataFrame; exact ⟨_, rfl⟩)
  | .rdata rx e d => runs_checked (execRdata rx e d s) rfl rfl (by unfold execRdata dataFrame; exact ⟨_, rfl⟩)
  | .atomic rx e w => runs_checked (execAtomic rx e w s) rfl rfl (by unfold execAtomic dataFrame; exact ⟨_, rfl⟩)
  | .startAssay a b c => runs_on (execStartAssay a b c s) rfl (by unfold execStartAssay startRow; exact ⟨_, rfl⟩)
  | .startRoot a => runs_on (execStartRoot a s) rfl (by unfold execStartRoot startRow; exact ⟨_, rfl⟩)
  | .startFerry a => runs_on (execStartFerry a s) rfl (by unfold execStartFerry startRow; exact ⟨_, rfl⟩)
  | .startCompute a => runs_on (execStartCompute a s) rfl (by unfold execStartCompute startRow; exact ⟨_, rfl⟩)
  | .startDram a b => runs_on (execStartDram a b s) rfl (by unfold execStartDram startRow; exact ⟨_, rfl⟩)
  | .startOptics a => runs_on (execStartOptics a s) rfl (by unfold execStartOptics startRow; exact ⟨_, rfl⟩)
  | .startRoster a => runs_on (execStartRoster a s) rfl (by unfold execStartRoster startRow; exact ⟨_, rfl⟩)
  | .registerWrite a b c d => runs_on (execRegisterWrite a b c d s) rfl (by unfold execRegisterWrite; exact ⟨_, rfl⟩)
  | .add a => runs_on (execAdd a s) rfl (by unfold execAdd alu2 runPure; exact ⟨_, rfl⟩)
  | .sub a => runs_on (execSub a s) rfl (by unfold execSub alu2 runPure; exact ⟨_, rfl⟩)
  | .and a => runs_on (execAnd a s) rfl (by unfold execAnd alu2 runPure; exact ⟨_, rfl⟩)
  | .or a => runs_on (execOr a s) rfl (by unfold execOr alu2 runPure; exact ⟨_, rfl⟩)
  | .xor a => runs_on (execXor a s) rfl (by unfold execXor alu2 runPure; exact ⟨_, rfl⟩)
  | .andn a => runs_on (execAndn a s) rfl (by unfold execAndn alu2 runPure; exact ⟨_, rfl⟩)
  | .sll a => runs_on (execSll a s) rfl (by unfold execSll alu2 runPure; exact ⟨_, rfl⟩)
  | .srl a => runs_on (execSrl a s) rfl (by unfold execSrl alu2 runPure; exact ⟨_, rfl⟩)
  | .sra a => runs_on (execSra a s) rfl (by unfold execSra alu2 runPure; exact ⟨_, rfl⟩)
  | .min a => runs_on (execMin a s) rfl (by unfold execMin alu2 runPure; exact ⟨_, rfl⟩)
  | .max a => runs_on (execMax a s) rfl (by unfold execMax alu2 runPure; exact ⟨_, rfl⟩)
  | .minu a => runs_on (execMinu a s) rfl (by unfold execMinu alu2 runPure; exact ⟨_, rfl⟩)
  | .maxu a => runs_on (execMaxu a s) rfl (by unfold execMaxu alu2 runPure; exact ⟨_, rfl⟩)
  | .mul a => runs_on (execMul a s) rfl (by unfold execMul alu2 runPure; exact ⟨_, rfl⟩)
  | .mulhu a => runs_on (execMulhu a s) rfl (by unfold execMulhu alu2 runPure; exact ⟨_, rfl⟩)
  | .mulhs a => runs_on (execMulhs a s) rfl (by unfold execMulhs alu2 runPure; exact ⟨_, rfl⟩)
  | .divu a => runs_on (execDivu a s) rfl (by unfold execDivu alu2 runPure; exact ⟨_, rfl⟩)
  | .divs a => runs_on (execDivs a s) rfl (by unfold execDivs alu2 runPure; exact ⟨_, rfl⟩)
  | .remu a => runs_on (execRemu a s) rfl (by unfold execRemu alu2 runPure; exact ⟨_, rfl⟩)
  | .rems a => runs_on (execRems a s) rfl (by unfold execRems alu2 runPure; exact ⟨_, rfl⟩)
  | .clz a => runs_on (execClz a s) rfl (by unfold execClz alu1 runPure; exact ⟨_, rfl⟩)
  | .ctz a => runs_on (execCtz a s) rfl (by unfold execCtz alu1 runPure; exact ⟨_, rfl⟩)
  | .popc a => runs_on (execPopc a s) rfl (by unfold execPopc alu1 runPure; exact ⟨_, rfl⟩)
  | .alui a b => runs_on (execAlui a b s) rfl (by unfold execAlui runPure; exact ⟨_, rfl⟩)
  | .movi a => runs_on (execMovi a s) rfl (by unfold execMovi runPure; exact ⟨_, rfl⟩)
  | .movh a => runs_on (execMovh a s) rfl (by unfold execMovh runPure; exact ⟨_, rfl⟩)
  | .sel a => runs_on (execSel a s) rfl (by unfold execSel runPure; exact ⟨_, rfl⟩)
  | .cmp a b => runs_on (execCmp a b s) rfl (by unfold execCmp runPure; exact ⟨_, rfl⟩)
  | .cmpi a b => runs_on (execCmpi a b s) rfl (by unfold execCmpi runPure; exact ⟨_, rfl⟩)
  | .pand a => runs_on (execPand a s) rfl (by unfold execPand plog runPure; exact ⟨_, rfl⟩)
  | .por a => runs_on (execPor a s) rfl (by unfold execPor plog runPure; exact ⟨_, rfl⟩)
  | .pxor a => runs_on (execPxor a s) rfl (by unfold execPxor plog runPure; exact ⟨_, rfl⟩)
  | .pandn a => runs_on (execPandn a s) rfl (by unfold execPandn plog runPure; exact ⟨_, rfl⟩)
  | .pnot a => runs_on (execPnot a s) rfl (by unfold execPnot runPure; exact ⟨_, rfl⟩)
  | .ld8u a => runs_on (execLd8u a s) rfl (by unfold execLd8u load runCore; exact ⟨_, rfl⟩)
  | .ld16u a => runs_on (execLd16u a s) rfl (by unfold execLd16u load runCore; exact ⟨_, rfl⟩)
  | .ld32u a => runs_on (execLd32u a s) rfl (by unfold execLd32u load runCore; exact ⟨_, rfl⟩)
  | .ld64 a => runs_on (execLd64 a s) rfl (by unfold execLd64 load runCore; exact ⟨_, rfl⟩)
  | .ld8s a => runs_on (execLd8s a s) rfl (by unfold execLd8s load runCore; exact ⟨_, rfl⟩)
  | .ld16s a => runs_on (execLd16s a s) rfl (by unfold execLd16s load runCore; exact ⟨_, rfl⟩)
  | .ld32s a => runs_on (execLd32s a s) rfl (by unfold execLd32s load runCore; exact ⟨_, rfl⟩)
  | .st8 a => runs_on (execSt8 a s) rfl (by unfold execSt8 store runCore; exact ⟨_, rfl⟩)
  | .st16 a => runs_on (execSt16 a s) rfl (by unfold execSt16 store runCore; exact ⟨_, rfl⟩)
  | .st32 a => runs_on (execSt32 a s) rfl (by unfold execSt32 store runCore; exact ⟨_, rfl⟩)
  | .st64 a => runs_on (execSt64 a s) rfl (by unfold execSt64 store runCore; exact ⟨_, rfl⟩)
  | .bra a => runs_on (execBra a s) rfl (by unfold execBra runCore; exact ⟨_, rfl⟩)
  | .call a => runs_on (execCall a s) rfl (by unfold execCall runCore; exact ⟨_, rfl⟩)
  | .jr a => runs_on (execJr a s) rfl (by unfold execJr runCore; exact ⟨_, rfl⟩)
  | .loopDec a => runs_on (execLoopDec a s) rfl (by unfold execLoopDec runCore; exact ⟨_, rfl⟩)
  | .nop a => runs_on (execNop a s) rfl (by unfold execNop runPure; exact ⟨_, rfl⟩)
  | .kend a => runs_on (execKend a s) rfl (by unfold execKend runCore; exact ⟨_, rfl⟩)
  | .brk a => runs_on (execBrk a s) rfl (by unfold execBrk runCore; exact ⟨_, rfl⟩)
  | .srd a => runs_on (execSrd a s) rfl (by unfold execSrd runCore; exact ⟨_, rfl⟩)
  | .tdset a => runs_on (execTdset a s) rfl (by unfold execTdset runPure; exact ⟨_, rfl⟩)
  | .tdscl a => runs_on (execTdscl a s) rfl (by unfold execTdscl runPure; exact ⟨_, rfl⟩)
  | .tdadd a => runs_on (execTdadd a s) rfl (by unfold execTdadd runPure; exact ⟨_, rfl⟩)
  | .mma a => runs_on (execMma a s) rfl (by unfold execMma runCore; exact ⟨_, rfl⟩)
  | .azero a => runs_on (execAzero a s) rfl (by unfold execAzero runPure; exact ⟨_, rfl⟩)
  | .adrn a => runs_on (execAdrn a s) rfl (by unfold execAdrn runCore; exact ⟨_, rfl⟩)
  | .adrv a => runs_on (execAdrv a s) rfl (by unfold execAdrv runCore; exact ⟨_, rfl⟩)
  | .vadd a => runs_on (execVadd a s) rfl (by unfold execVadd vfp2 vecOp runCore; exact ⟨_, rfl⟩)
  | .vsub a => runs_on (execVsub a s) rfl (by unfold execVsub vfp2 vecOp runCore; exact ⟨_, rfl⟩)
  | .vmul a => runs_on (execVmul a s) rfl (by unfold execVmul vfp2 vecOp runCore; exact ⟨_, rfl⟩)
  | .vfma a => runs_on (execVfma a s) rfl (by unfold execVfma vfp3 vecOp runCore; exact ⟨_, rfl⟩)
  | .vfnma a => runs_on (execVfnma a s) rfl (by unfold execVfnma vfp3 vecOp runCore; exact ⟨_, rfl⟩)
  | .vmin a => runs_on (execVmin a s) rfl (by unfold execVmin vfp2 vecOp runCore; exact ⟨_, rfl⟩)
  | .vmax a => runs_on (execVmax a s) rfl (by unfold execVmax vfp2 vecOp runCore; exact ⟨_, rfl⟩)
  | .vabs a => runs_on (execVabs a s) rfl (by unfold execVabs vec1 vecOp runCore; exact ⟨_, rfl⟩)
  | .vneg a => runs_on (execVneg a s) rfl (by unfold execVneg vec1 vecOp runCore; exact ⟨_, rfl⟩)
  | .vmov a => runs_on (execVmov a s) rfl (by unfold execVmov vec1 vecOp runCore; exact ⟨_, rfl⟩)
  | .vrope a => runs_on (execVrope a s) rfl (by unfold execVrope runCore; exact ⟨_, rfl⟩)
  | .vbadd a => runs_on (execVbadd a s) rfl (by unfold execVbadd vbf2 vecOp runCore; exact ⟨_, rfl⟩)
  | .vbsub a => runs_on (execVbsub a s) rfl (by unfold execVbsub vbf2 vecOp runCore; exact ⟨_, rfl⟩)
  | .vbmul a => runs_on (execVbmul a s) rfl (by unfold execVbmul vbf2 vecOp runCore; exact ⟨_, rfl⟩)
  | .vbfma a => runs_on (execVbfma a s) rfl (by unfold execVbfma vbf3 vecOp runCore; exact ⟨_, rfl⟩)
  | .vbfnma a => runs_on (execVbfnma a s) rfl (by unfold execVbfnma vbf3 vecOp runCore; exact ⟨_, rfl⟩)
  | .vbmin a => runs_on (execVbmin a s) rfl (by unfold execVbmin vbf2 vecOp runCore; exact ⟨_, rfl⟩)
  | .vbmax a => runs_on (execVbmax a s) rfl (by unfold execVbmax vbf2 vecOp runCore; exact ⟨_, rfl⟩)
  | .vfeq a => runs_on (execVfeq a s) rfl (by unfold execVfeq vcmp vecOp runCore; exact ⟨_, rfl⟩)
  | .vflt a => runs_on (execVflt a s) rfl (by unfold execVflt vcmp vecOp runCore; exact ⟨_, rfl⟩)
  | .vfle a => runs_on (execVfle a s) rfl (by unfold execVfle vcmp vecOp runCore; exact ⟨_, rfl⟩)
  | .vfun a => runs_on (execVfun a s) rfl (by unfold execVfun vcmp vecOp runCore; exact ⟨_, rfl⟩)
  | .vieq a => runs_on (execVieq a s) rfl (by unfold execVieq vcmp vecOp runCore; exact ⟨_, rfl⟩)
  | .vilt a => runs_on (execVilt a s) rfl (by unfold execVilt vcmp vecOp runCore; exact ⟨_, rfl⟩)
  | .viltu a => runs_on (execViltu a s) rfl (by unfold execViltu vcmp vecOp runCore; exact ⟨_, rfl⟩)
  | .viadd a => runs_on (execViadd a s) rfl (by unfold execViadd vint vecOp runCore; exact ⟨_, rfl⟩)
  | .visub a => runs_on (execVisub a s) rfl (by unfold execVisub vint vecOp runCore; exact ⟨_, rfl⟩)
  | .viand a => runs_on (execViand a s) rfl (by unfold execViand vint vecOp runCore; exact ⟨_, rfl⟩)
  | .vior a => runs_on (execVior a s) rfl (by unfold execVior vint vecOp runCore; exact ⟨_, rfl⟩)
  | .vixor a => runs_on (execVixor a s) rfl (by unfold execVixor vint vecOp runCore; exact ⟨_, rfl⟩)
  | .viandn a => runs_on (execViandn a s) rfl (by unfold execViandn vint vecOp runCore; exact ⟨_, rfl⟩)
  | .visll a => runs_on (execVisll a s) rfl (by unfold execVisll vint vecOp runCore; exact ⟨_, rfl⟩)
  | .visrl a => runs_on (execVisrl a s) rfl (by unfold execVisrl vint vecOp runCore; exact ⟨_, rfl⟩)
  | .visra a => runs_on (execVisra a s) rfl (by unfold execVisra vint vecOp runCore; exact ⟨_, rfl⟩)
  | .vimin a => runs_on (execVimin a s) rfl (by unfold execVimin vint vecOp runCore; exact ⟨_, rfl⟩)
  | .vimax a => runs_on (execVimax a s) rfl (by unfold execVimax vint vecOp runCore; exact ⟨_, rfl⟩)
  | .viminu a => runs_on (execViminu a s) rfl (by unfold execViminu vint vecOp runCore; exact ⟨_, rfl⟩)
  | .vimaxu a => runs_on (execVimaxu a s) rfl (by unfold execVimaxu vint vecOp runCore; exact ⟨_, rfl⟩)
  | .vimul a => runs_on (execVimul a s) rfl (by unfold execVimul vint vecOp runCore; exact ⟨_, rfl⟩)
  | .vsel a => runs_on (execVsel a s) rfl (by unfold execVsel vecOp runCore; exact ⟨_, rfl⟩)
  | .vbcast a => runs_on (execVbcast a s) rfl (by unfold execVbcast vecOp runCore; exact ⟨_, rfl⟩)
  | .viota a => runs_on (execViota a s) rfl (by unfold execViota runCore; exact ⟨_, rfl⟩)
  | .vfirst a => runs_on (execVfirst a s) rfl (by unfold execVfirst vecOp runCore; exact ⟨_, rfl⟩)
  | .vget a => runs_on (execVget a s) rfl (by unfold execVget runPure; exact ⟨_, rfl⟩)
  | .vput a => runs_on (execVput a s) rfl (by unfold execVput runPure; exact ⟨_, rfl⟩)
  | .vperm a => runs_on (execVperm a s) rfl (by unfold execVperm vecOp runCore; exact ⟨_, rfl⟩)
  | .vf2bf a => runs_on (execVf2bf a s) rfl (by unfold execVf2bf narrow vecOp runCore; exact ⟨_, rfl⟩)
  | .vbf2fl a => runs_on (execVbf2fl a s) rfl (by unfold execVbf2fl vec1 vecOp runCore; exact ⟨_, rfl⟩)
  | .vbf2fh a => runs_on (execVbf2fh a s) rfl (by unfold execVbf2fh vec1 vecOp runCore; exact ⟨_, rfl⟩)
  | .vf2h a => runs_on (execVf2h a s) rfl (by unfold execVf2h narrow vecOp runCore; exact ⟨_, rfl⟩)
  | .vh2fl a => runs_on (execVh2fl a s) rfl (by unfold execVh2fl vec1 vecOp runCore; exact ⟨_, rfl⟩)
  | .vh2fh a => runs_on (execVh2fh a s) rfl (by unfold execVh2fh vec1 vecOp runCore; exact ⟨_, rfl⟩)
  | .vf2i a => runs_on (execVf2i a s) rfl (by unfold execVf2i vec1 vecOp runCore; exact ⟨_, rfl⟩)
  | .vf2iz a => runs_on (execVf2iz a s) rfl (by unfold execVf2iz vec1 vecOp runCore; exact ⟨_, rfl⟩)
  | .vi2f a => runs_on (execVi2f a s) rfl (by unfold execVi2f vec1 vecOp runCore; exact ⟨_, rfl⟩)
  | .vqmx a => runs_on (execVqmx a s) rfl (by unfold execVqmx runCore; exact ⟨_, rfl⟩)
  | .vld a => runs_on (execVld a s) rfl (by unfold execVld runCore; exact ⟨_, rfl⟩)
  | .vst a => runs_on (execVst a s) rfl (by unfold execVst runCore; exact ⟨_, rfl⟩)
  | .vrsum a => runs_on (execVrsum a s) rfl (by unfold execVrsum vred runCore; exact ⟨_, rfl⟩)
  | .vrmax a => runs_on (execVrmax a s) rfl (by unfold execVrmax vred runCore; exact ⟨_, rfl⟩)
  | .vrmin a => runs_on (execVrmin a s) rfl (by unfold execVrmin vred runCore; exact ⟨_, rfl⟩)
  | .vrisum a => runs_on (execVrisum a s) rfl (by unfold execVrisum vred runCore; exact ⟨_, rfl⟩)
  | .exp2 a => runs_on (execExp2 a s) rfl (by unfold execExp2 sfu runCore; exact ⟨_, rfl⟩)
  | .log2 a => runs_on (execLog2 a s) rfl (by unfold execLog2 sfu runCore; exact ⟨_, rfl⟩)
  | .rcp a => runs_on (execRcp a s) rfl (by unfold execRcp sfu runCore; exact ⟨_, rfl⟩)
  | .rsq a => runs_on (execRsq a s) rfl (by unfold execRsq sfu runCore; exact ⟨_, rfl⟩)
  | .tanh a => runs_on (execTanh a s) rfl (by unfold execTanh sfu runCore; exact ⟨_, rfl⟩)
  | .sigm a => runs_on (execSigm a s) rfl (by unfold execSigm sfu runCore; exact ⟨_, rfl⟩)
  | .sin a => runs_on (execSin a s) rfl (by unfold execSin sfu runCore; exact ⟨_, rfl⟩)
  | .cos a => runs_on (execCos a s) rfl (by unfold execCos sfu runCore; exact ⟨_, rfl⟩)
  | .vosm a => runs_on (execVosm a s) rfl (by unfold execVosm runCore; exact ⟨_, rfl⟩)
  | .vrms a => runs_on (execVrms a s) rfl (by unfold execVrms runCore; exact ⟨_, rfl⟩)
  | .vrng a => runs_on (execVrng a s) rfl (by unfold execVrng runCore; exact ⟨_, rfl⟩)
  | .srng a => runs_on (execSrng a s) rfl (by unfold execSrng runCore; exact ⟨_, rfl⟩)
  | .topk a => runs_on (execTopk a s) rfl (by unfold execTopk runCore; exact ⟨_, rfl⟩)
  | .tkmrg a => runs_on (execTkmrg a s) rfl (by unfold execTkmrg runPure; exact ⟨_, rfl⟩)
  | .sdraw a => runs_on (execSdraw a s) rfl (by unfold execSdraw runCore; exact ⟨_, rfl⟩)
  | .copy a b => runs_checked (execCopy a b s) rfl rfl (by unfold execCopy runChecked; exact ⟨_, rfl⟩)
  | .fill a b => runs_checked (execFill a b s) rfl rfl (by unfold execFill runChecked; exact ⟨_, rfl⟩)
  | .movementRetire a => runs_checked (execMovementRetire a s) rfl rfl (by unfold execMovementRetire; exact ⟨_, rfl⟩)
  | .allred a => runs_checked (execAllred a s) rfl rfl (by unfold execAllred runChecked; exact ⟨_, rfl⟩)
  | .allgath a => runs_checked (execAllgath a s) rfl rfl (by unfold execAllgath runChecked; exact ⟨_, rfl⟩)
  | .redscat a => runs_checked (execRedscat a s) rfl rfl (by unfold execRedscat runChecked; exact ⟨_, rfl⟩)
  | .cbar a => runs_checked (execCbar a s) rfl rfl (by unfold execCbar runChecked; exact ⟨_, rfl⟩)
  | .collectiveRetire a b c d => runs_checked (execCollectiveRetire a b c d s) rfl rfl (by unfold execCollectiveRetire; exact ⟨_, rfl⟩)
  | .eadd a => runs_checked (execEadd a s) rfl rfl (by unfold execEadd runChecked; exact ⟨_, rfl⟩)
  | .ewait a => runs_checked (execEwait a s) rfl rfl (by unfold execEwait runChecked; exact ⟨_, rfl⟩)
  | .erd a => runs_checked (execErd a s) rfl rfl (by unfold execErd runChecked; exact ⟨_, rfl⟩)
  | .eventRepoll a b => runs_checked (execEventRepoll a b s) rfl rfl (by unfold execEventRepoll; exact ⟨_, rfl⟩)
  | .rel a => runs_on (execRel a s) rfl (by unfold execRel runCore; exact ⟨_, rfl⟩)
  | .acq a => runs_on (execAcq a s) rfl (by unfold execAcq runCore; exact ⟨_, rfl⟩)
  | .mwait a => runs_on (execMwait a s) rfl (by unfold execMwait runCore; exact ⟨_, rfl⟩)
  | .fset a => runs_checked (execFset a s) rfl rfl (by unfold execFset runChecked; exact ⟨_, rfl⟩)
  | .fwait a => runs_checked (execFwait a s) rfl rfl (by unfold execFwait runChecked; exact ⟨_, rfl⟩)
  | .lastoffPerform a => runs_checked (execLastoffPerform a s) rfl rfl (by unfold execLastoffPerform; exact ⟨_, rfl⟩)
  | .phys a => runs_on (execPhys a s) rfl (by unfold execPhys runCore; exact ⟨_, rfl⟩)
  | .pmark a => runs_on (execPmark a s) rfl (by unfold execPmark runCore; exact ⟨_, rfl⟩)
  | .pcnt a => runs_on (execPcnt a s) rfl (by unfold execPcnt runCore; exact ⟨_, rfl⟩)
  | .sbnew a => runs_on (execSbnew a s) rfl (by unfold execSbnew runCore; exact ⟨_, rfl⟩)
  | .sbcmt a => runs_on (execSbcmt a s) rfl (by unfold execSbcmt sbOverRange runCore; exact ⟨_, rfl⟩)
  | .sbfree a => runs_on (execSbfree a s) rfl (by unfold execSbfree sbOverRange runCore; exact ⟨_, rfl⟩)
  | .sbstat a => runs_on (execSbstat a s) rfl (by unfold execSbstat runCore; exact ⟨_, rfl⟩)
  | .stree a => runs_on (execStree a s) rfl (by unfold execStree runCore; exact ⟨_, rfl⟩)
  | .sanc a => runs_on (execSanc a s) rfl (by unfold execSanc runCore; exact ⟨_, rfl⟩)
  | .sacpt a => runs_on (execSacpt a s) rfl (by unfold execSacpt runCore; exact ⟨_, rfl⟩)
  | .scmt a => runs_checked (execScmt a s) rfl rfl (by unfold execScmt runChecked; exact ⟨_, rfl⟩)
  | .storageReturn a => runs_on (execStorageReturn a s) rfl (by unfold execStorageReturn; exact ⟨_, rfl⟩)
  | .foldSwitch a b c => runs_on (execFoldSwitch a b c s) rfl (by unfold execFoldSwitch; exact ⟨_, rfl⟩)
  | .doorbell a b c d e f => runs_on (execDoorbell a b c d e f s) rfl (by unfold execDoorbell; exact ⟨_, rfl⟩)
  | .fetch a b => runs_checked (execFetch a b s) rfl rfl (by unfold execFetch; exact ⟨_, rfl⟩)
  | .waitEventPoll a => runs_checked (execWaitEventPoll a s) rfl rfl (by unfold execWaitEventPoll; exact ⟨_, rfl⟩)
  | .admission a => runs_checked (execAdmission a s) rfl rfl (by unfold execAdmission; exact ⟨_, rfl⟩)
  | .kernelIssue a => runs_checked (execKernelIssue a s) rfl rfl (by unfold execKernelIssue; exact ⟨_, rfl⟩)
  | .runEnd a => runs_checked (execRunEnd a s) rfl rfl (by unfold execRunEnd; exact ⟨_, rfl⟩)
  | .tokenRingPoll a => runs_checked (execTokenRingPoll a s) rfl rfl (by unfold execTokenRingPoll; exact ⟨_, rfl⟩)
  | .manifestComplete a => runs_checked (execManifestComplete a s) rfl rfl (by unfold execManifestComplete; exact ⟨_, rfl⟩)
  | .cringPoll a b => runs_checked (execCringPoll a b s) rfl rfl (by unfold execCringPoll; exact ⟨_, rfl⟩)
  | .manifestRetire a => runs_on (execManifestRetire a s) rfl (by unfold execManifestRetire; exact ⟨_, rfl⟩)
  | .replayReissue a => runs_checked (execReplayReissue a s) rfl rfl (by unfold execReplayReissue; exact ⟨_, rfl⟩)
  | .loadBerth a b => runs_on (execLoadBerth a b s) rfl (by unfold execLoadBerth hostWrite; exact ⟨_, rfl⟩)
  | .berthLoaded a => runs_on (execBerthLoaded a s) rfl (by unfold execBerthLoaded; exact ⟨_, rfl⟩)
  | .unloadBerth a b => runs_on (execUnloadBerth a b s) rfl (by unfold execUnloadBerth hostWrite; exact ⟨_, rfl⟩)
  | .berthEmpty a => runs_on (execBerthEmpty a s) rfl (by unfold execBerthEmpty; exact ⟨_, rfl⟩)
  | .brtQrevoke a => runs_on (execBrtQrevoke a s) rfl (by unfold execBrtQrevoke hostWrite; exact ⟨_, rfl⟩)
  | .ldgAbandon a => runs_on (execLdgAbandon a s) rfl (by unfold execLdgAbandon hostWrite; exact ⟨_, rfl⟩)
  | .ldgCountRead a => runs_on (execLdgCountRead a s) rfl (by unfold execLdgCountRead hostReadClear; exact ⟨_, rfl⟩)
  | .xltFenceGo a => runs_on (execXltFenceGo a s) rfl (by unfold execXltFenceGo hostWrite; exact ⟨_, rfl⟩)
  | .fenceComplete => runs_on (execFenceComplete s) rfl (by unfold execFenceComplete; exact ⟨_, rfl⟩)
  | .xltCountRead a => runs_on (execXltCountRead a s) rfl (by unfold execXltCountRead hostReadClear; exact ⟨_, rfl⟩)
  | .ttbCommit a b => runs_on (execTtbCommit a b s) rfl (by unfold execTtbCommit hostWrite; exact ⟨_, rfl⟩)
  | .ttbCommitEffect a => runs_on (execTtbCommitEffect a s) rfl (by unfold execTtbCommitEffect; exact ⟨_, rfl⟩)
  | .subCountRead a => runs_on (execSubCountRead a s) rfl (by unfold execSubCountRead hostReadClear; exact ⟨_, rfl⟩)
  | .arbitration a b => runs_checked (execArbitration a b s) rfl rfl (by unfold execArbitration; exact ⟨_, rfl⟩)
  | .waitCounterExpire a b => runs_on (execWaitCounterExpire a b s) rfl (by unfold execWaitCounterExpire; exact ⟨_, rfl⟩)
  | .arbEpochAdvance a => runs_on (execArbEpochAdvance a s) rfl (by unfold execArbEpochAdvance; exact ⟨_, rfl⟩)
  | .arbWithdraw a b => runs_on (execArbWithdraw a b s) rfl (by unfold execArbWithdraw; exact ⟨_, rfl⟩)
  | .arbCommit a => runs_on (execArbCommit a s) rfl (by unfold execArbCommit hostWrite; exact ⟨_, rfl⟩)
  | .arbCountRead a => runs_on (execArbCountRead a s) rfl (by unfold execArbCountRead; exact ⟨_, rfl⟩)
  | .scrubTurn a b => runs_on (execScrubTurn a b s) rfl (by unfold execScrubTurn; exact ⟨_, rfl⟩)
  | .memUeClear a => runs_on (execMemUeClear a s) rfl (by unfold execMemUeClear hostWrite; exact ⟨_, rfl⟩)
  | .memCeRead a b => runs_on (execMemCeRead a b s) rfl (by unfold execMemCeRead hostReadClear; exact ⟨_, rfl⟩)
  | .portEnable a b => runs_on (execPortEnable a b s) rfl (by unfold execPortEnable hostWrite; exact ⟨_, rfl⟩)
  | .laneTrainingTimeout a b => runs_on (execLaneTrainingTimeout a b s) rfl (by unfold execLaneTrainingTimeout; exact ⟨_, rfl⟩)
  | .lnkCountRead a b => runs_on (execLnkCountRead a b s) rfl (by unfold execLnkCountRead hostReadClear; exact ⟨_, rfl⟩)
  | .frameForward a b c => runs_on (execFrameForward a b c s) rfl (by unfold execFrameForward; exact ⟨_, rfl⟩)
  | .neighbourSolicitation a b c => runs_on (execNeighbourSolicitation a b c s) rfl (by unfold execNeighbourSolicitation; exact ⟨_, rfl⟩)
  | .ptpMessage _ _ _ _ => absurd h4 (fun h => Bool.noConfusion h)
  | .softAdvance a => runs_on (execSoftAdvance a s) rfl (by unfold execSoftAdvance hostWrite; exact ⟨_, rfl⟩)
  | .hardAdvance a => runs_on (execHardAdvance a s) rfl (by unfold execHardAdvance hostWrite; exact ⟨_, rfl⟩)
  | .pnThreshold a => runs_on (execPnThreshold a s) rfl (by unfold execPnThreshold; exact ⟨_, rfl⟩)
  | .advanceTimeout => runs_on (execAdvanceTimeout s) rfl (by unfold execAdvanceTimeout; exact ⟨_, rfl⟩)
  | .oldAnExpire a => runs_on (execOldAnExpire a s) rfl (by unfold execOldAnExpire; exact ⟨_, rfl⟩)
  | .laserLoss a b => runs_on (execLaserLoss a b s) rfl (by unfold execLaserLoss; exact ⟨_, rfl⟩)
  | .laserRestore a b => runs_on (execLaserRestore a b s) rfl (by unfold execLaserRestore; exact ⟨_, rfl⟩)
  | .countOff a b c => runs_on (execCountOff a b c s) rfl (by unfold execCountOff; exact ⟨_, rfl⟩)
  | .claim a b c d e => runs_on (execClaim a b c d e s) rfl (by unfold execClaim; exact ⟨_, rfl⟩)
  | .defend a b c d e => runs_on (execDefend a b c d e s) rfl (by unfold execDefend; exact ⟨_, rfl⟩)
  | .claimTimer => runs_on (execClaimTimer s) rfl (by unfold execClaimTimer; exact ⟨_, rfl⟩)
  | .discoveryFallback => runs_on (execDiscoveryFallback s) rfl (by unfold execDiscoveryFallback; exact ⟨_, rfl⟩)
  | .rediscover a => runs_on (execRediscover a s) rfl (by unfold execRediscover hostWrite; exact ⟨_, rfl⟩)
  | .hello a b c d => runs_on (execHello a b c d s) rfl (by unfold execHello; exact ⟨_, rfl⟩)
  | .helloTimer => runs_on (execHelloTimer s) rfl (by unfold execHelloTimer; exact ⟨_, rfl⟩)
  | .keeperLatencyUpdate a => runs_on (execKeeperLatencyUpdate a s) rfl (by unfold execKeeperLatencyUpdate; exact ⟨_, rfl⟩)
  | .peerDead a => runs_on (execPeerDead a s) rfl (by unfold execPeerDead; exact ⟨_, rfl⟩)
  | .wack a b c => runs_checked (execWack a b c s) rfl rfl (by unfold execWack; exact ⟨_, rfl⟩)
  | .sack a b c => runs_on (execSack a b c s) rfl (by unfold execSack; exact ⟨_, rfl⟩)
  | .sackTimer a => runs_on (execSackTimer a s) rfl (by unfold execSackTimer; exact ⟨_, rfl⟩)
  | .retransmitTimer a b => runs_on (execRetransmitTimer a b s) rfl (by unfold execRetransmitTimer; exact ⟨_, rfl⟩)
  | .join a => runs_on (execJoin a s) rfl (by unfold execJoin compose; exact ⟨_, rfl⟩)
  | .activate a => runs_on (execActivate a s) rfl (by unfold execActivate compose; exact ⟨_, rfl⟩)
  | .rehost a => runs_on (execRehost a s) rfl (by unfold execRehost compose; exact ⟨_, rfl⟩)
  | .leave a => runs_on (execLeave a s) rfl (by unfold execLeave compose; exact ⟨_, rfl⟩)
  | .dissolve a => runs_on (execDissolve a s) rfl (by unfold execDissolve compose; exact ⟨_, rfl⟩)
  | .request a b => runs_on (execRequest a b s) rfl (by unfold execRequest rosterFrame; exact ⟨_, rfl⟩)
  | .propose a b => runs_on (execPropose a b s) rfl (by unfold execPropose rosterFrame; exact ⟨_, rfl⟩)
  | .vote a b => runs_on (execVote a b s) rfl (by unfold execVote rosterFrame; exact ⟨_, rfl⟩)
  | .compCommit a b c => runs_on (execCompCommit a b c s) rfl (by unfold execCompCommit rosterFrame; exact ⟨_, rfl⟩)
  | .compAbort a b => runs_on (execCompAbort a b s) rfl (by unfold execCompAbort rosterFrame; exact ⟨_, rfl⟩)
  | .reply a b => runs_on (execReply a b s) rfl (by unfold execReply rosterFrame; exact ⟨_, rfl⟩)
  | .rosterSync a b c d => runs_on (execRosterSync a b c d s) rfl (by unfold execRosterSync rosterFrame; exact ⟨_, rfl⟩)
  | .partner a b c d => runs_on (execPartner a b c d s) rfl (by unfold execPartner; exact ⟨_, rfl⟩)
  | .handoff a => runs_on (execHandoff a s) rfl (by unfold execHandoff mailCommand hostWrite; exact ⟨_, rfl⟩)
  | .hoOffer a b => runs_on (execHoOffer a b s) rfl (by unfold execHoOffer hoFrame rosterFrame; exact ⟨_, rfl⟩)
  | .handoffCopyDone a b => runs_on (execHandoffCopyDone a b s) rfl (by unfold execHandoffCopyDone; exact ⟨_, rfl⟩)
  | .hoTake a b => runs_on (execHoTake a b s) rfl (by unfold execHoTake hoFrame rosterFrame; exact ⟨_, rfl⟩)
  | .hoAck a b => runs_on (execHoAck a b s) rfl (by unfold execHoAck hoFrame rosterFrame; exact ⟨_, rfl⟩)
  | .hoDone a b => runs_on (execHoDone a b s) rfl (by unfold execHoDone hoFrame rosterFrame; exact ⟨_, rfl⟩)
  | .hoRefuse a b => runs_on (execHoRefuse a b s) rfl (by unfold execHoRefuse hoFrame rosterFrame; exact ⟨_, rfl⟩)
  | .hoReport a b => runs_on (execHoReport a b s) rfl (by unfold execHoReport rosterFrame; exact ⟨_, rfl⟩)
  | .hoDecide a b => runs_on (execHoDecide a b s) rfl (by unfold execHoDecide rosterFrame; exact ⟨_, rfl⟩)
  | .handoffTimer a b c => runs_on (execHandoffTimer a b c s) rfl (by unfold execHandoffTimer; exact ⟨_, rfl⟩)
  | .reportRepeat a b c => runs_on (execReportRepeat a b c s) rfl (by unfold execReportRepeat; exact ⟨_, rfl⟩)
  | .keeperQueryTimeout a b => runs_on (execKeeperQueryTimeout a b s) rfl (by unfold execKeeperQueryTimeout; exact ⟨_, rfl⟩)
  | .decideRepeat a b => runs_on (execDecideRepeat a b s) rfl (by unfold execDecideRepeat; exact ⟨_, rfl⟩)
  | .rosLostClear a => runs_on (execRosLostClear a s) rfl (by unfold execRosLostClear hostWrite; exact ⟨_, rfl⟩)
  | .rosHoCountRead a => runs_on (execRosHoCountRead a s) rfl (by unfold execRosHoCountRead hostReadClear; exact ⟨_, rfl⟩)
  | .hostLinkUp a b => runs_checked (execHostLinkUp a b s) rfl rfl (by unfold execHostLinkUp; exact ⟨_, rfl⟩)
  | .hostLinkDown => runs_on (execHostLinkDown s) rfl (by unfold execHostLinkDown; exact ⟨_, rfl⟩)
  | .hostLinkTimeout => runs_on (execHostLinkTimeout s) rfl (by unfold execHostLinkTimeout; exact ⟨_, rfl⟩)
  | .retrain a => runs_on (execRetrain a s) rfl (by unfold execRetrain hostWrite; exact ⟨_, rfl⟩)
  | .irqModerationExpire a => runs_on (execIrqModerationExpire a s) rfl (by unfold execIrqModerationExpire; exact ⟨_, rfl⟩)
  | .devModeWrite a => runs_on (execDevModeWrite a s) rfl (by unfold execDevModeWrite hostWrite; exact ⟨_, rfl⟩)
  | .instanceWrite a b => runs_on (execInstanceWrite a b s) rfl (by unfold execInstanceWrite hostWrite; exact ⟨_, rfl⟩)
  | .resetDrain a => runs_on (execResetDrain a s) rfl (by unfold execResetDrain hostWrite; exact ⟨_, rfl⟩)
  | .resetSquash a => runs_on (execResetSquash a s) rfl (by unfold execResetSquash hostWrite; exact ⟨_, rfl⟩)
  | .removeDrain a => runs_on (execRemoveDrain a s) rfl (by unfold execRemoveDrain hostWrite; exact ⟨_, rfl⟩)
  | .removeSquash a => runs_on (execRemoveSquash a s) rfl (by unfold execRemoveSquash hostWrite; exact ⟨_, rfl⟩)
  | .functionLevelReset a => runs_on (execFunctionLevelReset a s) rfl (by unfold execFunctionLevelReset; exact ⟨_, rfl⟩)
  | .cxlReset => runs_on (execCxlReset s) rfl (by unfold execCxlReset; exact ⟨_, rfl⟩)
  | .vfEnableClear => runs_on (execVfEnableClear s) rfl (by unfold execVfEnableClear; exact ⟨_, rfl⟩)
  | .instanceCommandDone a => runs_on (execInstanceCommandDone a s) rfl (by unfold execInstanceCommandDone; exact ⟨_, rfl⟩)
  | .rackGrant a b c d => runs_on (execRackGrant a b c d s) rfl (by unfold execRackGrant; exact ⟨_, rfl⟩)
  | .grantEffective => runs_on (execGrantEffective s) rfl (by unfold execGrantEffective; exact ⟨_, rfl⟩)
  | .rackTimeout => runs_on (execRackTimeout s) rfl (by unfold execRackTimeout; exact ⟨_, rfl⟩)
  | .rackReportTimer => runs_on (execRackReportTimer s) rfl (by unfold execRackReportTimer; exact ⟨_, rfl⟩)
  | .slackInterval a => runs_on (execSlackInterval a s) rfl (by unfold execSlackInterval; exact ⟨_, rfl⟩)
  | .slack a b c => runs_on (execSlack a b c s) rfl (by unfold execSlack; exact ⟨_, rfl⟩)
  | .loanOrder a b c => runs_on (execLoanOrder a b c s) rfl (by unfold execLoanOrder; exact ⟨_, rfl⟩)
  | .loan a b c => runs_on (execLoan a b c s) rfl (by unfold execLoan; exact ⟨_, rfl⟩)
  | .loanExpire => runs_on (execLoanExpire s) rfl (by unfold execLoanExpire; exact ⟨_, rfl⟩)
  | .lentExpire => runs_on (execLentExpire s) rfl (by unfold execLentExpire; exact ⟨_, rfl⟩)
  | .railChoice a b => runs_on (execRailChoice a b s) rfl (by unfold execRailChoice; exact ⟨_, rfl⟩)
  | .railStepSettled a => runs_on (execRailStepSettled a s) rfl (by unfold execRailStepSettled; exact ⟨_, rfl⟩)
  | .pwrCommit a => runs_on (execPwrCommit a s) rfl (by unfold execPwrCommit hostWrite; exact ⟨_, rfl⟩)
  | .droop a => runs_on (execDroop a s) rfl (by unfold execDroop; exact ⟨_, rfl⟩)
  | .droopHoldExpire a => runs_on (execDroopHoldExpire a s) rfl (by unfold execDroopHoldExpire; exact ⟨_, rfl⟩)
  | .pwrDroopCntRead a => runs_on (execPwrDroopCntRead a s) rfl (by unfold execPwrDroopCntRead hostReadClear; exact ⟨_, rfl⟩)
  | .pwrRsvShortRead a => runs_on (execPwrRsvShortRead a s) rfl (by unfold execPwrRsvShortRead hostReadClear; exact ⟨_, rfl⟩)
  | .thermalOver a b => runs_on (execThermalOver a b s) rfl (by unfold execThermalOver; exact ⟨_, rfl⟩)
  | .thermalRecover a b => runs_on (execThermalRecover a b s) rfl (by unfold execThermalRecover; exact ⟨_, rfl⟩)
  | .thermtrip => runs_on (execThermtrip s) rfl (by unfold execThermtrip; exact ⟨_, rfl⟩)
  | .install a b c d => runs_on (execInstall a b c d s) rfl (by unfold execInstall keyCommand hostWrite; exact ⟨_, rfl⟩)
  | .removeTenant a b => runs_on (execRemoveTenant a b s) rfl (by unfold execRemoveTenant keyCommand hostWrite; exact ⟨_, rfl⟩)
  | .removalWaitEnd => runs_on (execRemovalWaitEnd s) rfl (by unfold execRemovalWaitEnd; exact ⟨_, rfl⟩)
  | .attest a b => runs_on (execAttest a b s) rfl (by unfold execAttest keyCommand hostWrite; exact ⟨_, rfl⟩)
  | .certs a b => runs_on (execCerts a b s) rfl (by unfold execCerts keyCommand hostWrite; exact ⟨_, rfl⟩)
  | .openBundle a b c d => runs_on (execOpenBundle a b c d s) rfl (by unfold execOpenBundle keyCommand hostWrite; exact ⟨_, rfl⟩)
  | .decrypt a b c => runs_on (execDecrypt a b c s) rfl (by unfold execDecrypt keyCommand hostWrite; exact ⟨_, rfl⟩)
  | .closeBundle a b => runs_on (execCloseBundle a b s) rfl (by unfold execCloseBundle keyCommand hostWrite; exact ⟨_, rfl⟩)
  | .eraseDomain a b => runs_on (execEraseDomain a b s) rfl (by unfold execEraseDomain keyCommand hostWrite; exact ⟨_, rfl⟩)
  | .seal a b => runs_on (execSeal a b s) rfl (by unfold execSeal keyCommand hostWrite; exact ⟨_, rfl⟩)
  | .unseal a b c => runs_on (execUnseal a b c s) rfl (by unfold execUnseal keyCommand hostWrite; exact ⟨_, rfl⟩)
  | .keyDebugEnable a => runs_on (execKeyDebugEnable a s) rfl (by unfold execKeyDebugEnable hostWrite; exact ⟨_, rfl⟩)
  | .keyThaw a => runs_on (execKeyThaw a s) rfl (by unfold execKeyThaw hostWrite; exact ⟨_, rfl⟩)
  | .keyViolationsRead => runs_on (execKeyViolationsRead s) rfl (by unfold execKeyViolationsRead hostReadClear; exact ⟨_, rfl⟩)
  | .fltReset a => runs_on (execFltReset a s) rfl (by unfold execFltReset hostWrite; exact ⟨_, rfl⟩)
  | .salvageDone a => runs_on (execSalvageDone a s) rfl (by unfold execSalvageDone; exact ⟨_, rfl⟩)
  | .salvageFallback a => runs_on (execSalvageFallback a s) rfl (by unfold execSalvageFallback; exact ⟨_, rfl⟩)
  | .salvageDeferredWrite a => runs_on (execSalvageDeferredWrite a s) rfl (by unfold execSalvageDeferredWrite; exact ⟨_, rfl⟩)
  | .zeroDone a => runs_on (execZeroDone a s) rfl (by unfold execZeroDone; exact ⟨_, rfl⟩)
  | .patternTestDone a b => runs_on (execPatternTestDone a b s) rfl (by unfold execPatternTestDone; exact ⟨_, rfl⟩)
  | .dramReinitDone a => runs_on (execDramReinitDone a s) rfl (by unfold execDramReinitDone; exact ⟨_, rfl⟩)
  | .channelReinitFailed a => runs_on (execChannelReinitFailed a s) rfl (by unfold execChannelReinitFailed; exact ⟨_, rfl⟩)
  | .partitionStranded a => runs_on (execPartitionStranded a s) rfl (by unfold execPartitionStranded; exact ⟨_, rfl⟩)
  | .retirementListWrite a b => runs_on (execRetirementListWrite a b s) rfl (by unfold execRetirementListWrite; exact ⟨_, rfl⟩)
  | .fltRingWrite a => runs_on (execFltRingWrite a s) rfl (by unfold execFltRingWrite hostWrite; exact ⟨_, rfl⟩)
  | .fltOvfClear a => runs_on (execFltOvfClear a s) rfl (by unfold execFltOvfClear hostWrite; exact ⟨_, rfl⟩)
  | .faultSummaryWrite => runs_on (execFaultSummaryWrite s) rfl (by unfold execFaultSummaryWrite; exact ⟨_, rfl⟩)
  | .seqset a => runs_on (execSeqset a s) rfl (by unfold execSeqset mailCommand hostWrite; exact ⟨_, rfl⟩)
  | .retire a => runs_on (execRetire a s) rfl (by unfold execRetire mailCommand hostWrite; exact ⟨_, rfl⟩)
  | .retireClear a => runs_on (execRetireClear a s) rfl (by unfold execRetireClear mailCommand hostWrite; exact ⟨_, rfl⟩)
  | .extend a => runs_on (execExtend a s) rfl (by unfold execExtend mailCommand hostWrite; exact ⟨_, rfl⟩)
  | .compose a => runs_on (execCompose a s) rfl (by unfold execCompose mailCommand hostWrite; exact ⟨_, rfl⟩)
  | .fwWrite a b c => runs_on (execFwWrite a b c s) rfl (by unfold execFwWrite mailCommand hostWrite; exact ⟨_, rfl⟩)
  | .cfgWrite a b c => runs_on (execCfgWrite a b c s) rfl (by unfold execCfgWrite mailCommand hostWrite; exact ⟨_, rfl⟩)
  | .journalRead a => runs_on (execJournalRead a s) rfl (by unfold execJournalRead mailCommand hostWrite; exact ⟨_, rfl⟩)
  | .faultSummary a => runs_on (execFaultSummary a s) rfl (by unfold execFaultSummary mailCommand hostWrite; exact ⟨_, rfl⟩)
  | .telemetry a => runs_on (execTelemetry a s) rfl (by unfold execTelemetry mailCommand hostWrite; exact ⟨_, rfl⟩)
  | .ferRestart a => runs_on (execFerRestart a s) rfl (by unfold execFerRestart hostWrite; exact ⟨_, rfl⟩)
  | .ferryHeartbeat => runs_on (execFerryHeartbeat s) rfl (by unfold execFerryHeartbeat; exact ⟨_, rfl⟩)
  | .ferryShed a => runs_on (execFerryShed a s) rfl (by unfold execFerryShed; exact ⟨_, rfl⟩)
  | .smbIdent => runs_on (execSmbIdent s) rfl (by unfold execSmbIdent smbRead; exact ⟨_, rfl⟩)
  | .smbSerial => runs_on (execSmbSerial s) rfl (by unfold execSmbSerial smbRead; exact ⟨_, rfl⟩)
  | .smbState => runs_on (execSmbState s) rfl (by unfold execSmbState smbRead; exact ⟨_, rfl⟩)
  | .smbTemp => runs_on (execSmbTemp s) rfl (by unfold execSmbTemp smbRead; exact ⟨_, rfl⟩)
  | .smbPower => runs_on (execSmbPower s) rfl (by unfold execSmbPower smbRead; exact ⟨_, rfl⟩)
  | .smbLaser => runs_on (execSmbLaser s) rfl (by unfold execSmbLaser smbRead; exact ⟨_, rfl⟩)
  | .smbAlert => runs_on (execSmbAlert s) rfl (by unfold execSmbAlert smbRead; exact ⟨_, rfl⟩)
  | .portTrained a b => runs_on (execPortTrained a b s) rfl (by unfold execPortTrained; exact ⟨_, rfl⟩)
  | .advanceConfirmed a => runs_on (execAdvanceConfirmed a s) rfl (by unfold execAdvanceConfirmed; exact ⟨_, rfl⟩)
  | .peerAdvance a b => runs_on (execPeerAdvance a b s) rfl (by unfold execPeerAdvance; exact ⟨_, rfl⟩)
  | .salvageFallbackDone a => runs_on (execSalvageFallbackDone a s) rfl (by unfold execSalvageFallbackDone; exact ⟨_, rfl⟩)
  | .reservedEncoding a b => runs_on (execReservedEncoding a b s) rfl (by unfold execReservedEncoding; exact ⟨_, rfl⟩)
  | .vfEnableSet a => runs_on (execVfEnableSet a s) rfl (by unfold execVfEnableSet; exact ⟨_, rfl⟩)
  | .ptpSyncInterval => runs_on (execPtpSyncInterval s) rfl (by unfold execPtpSyncInterval; exact ⟨_, rfl⟩)
  | .frameDiscarded a b => runs_on (execFrameDiscarded a b s) rfl (by unfold execFrameDiscarded; exact ⟨_, rfl⟩)

end Sys2Proof.Machine
end

