-- ==== Sys2Proof/Laws/Map.lean ====
section
/-! SUPPORT. The sparse maps: every operation keeps the canonical form, and what a key reads after each. -/

namespace Sys2Proof.Machine

theorem mapWfFrom_weaken {α : Type} [DecidableEq α] {d : α} {m : SMap α} {lo hi : Nat} (h : hi ≤ lo)
    (w : mapWfFrom d lo m = true) : mapWfFrom d hi m = true := by
  cases m with
  | nil => rfl
  | cons p t =>
    obtain ⟨k, v⟩ := p
    simp only [mapWfFrom, Bool.and_eq_true, decide_eq_true_eq] at w ⊢
    exact ⟨⟨by omega, w.1.2⟩, w.2⟩

theorem mapPut_wfFrom {α : Type} [DecidableEq α] {d : α} (n : Nat) (x : α) :
    ∀ (m : SMap α) (lo : Nat), lo ≤ n → mapWfFrom d lo m = true → mapWfFrom d lo (mapPut d m n x) = true
  | [], lo, h, _ => by
    unfold mapPut
    split
    · rfl
    · simp [mapWfFrom, *]
  | (k, v) :: t, lo, h, w => by
    simp only [mapWfFrom, Bool.and_eq_true, decide_eq_true_eq] at w
    obtain ⟨⟨hk, hv⟩, wt⟩ := w
    unfold mapPut
    by_cases h1 : n < k
    · by_cases h2 : x = d
      · simp [h1, h2, mapWfFrom, hk, hv, wt]
      · have : n + 1 ≤ k := h1
        simp [h1, h2, mapWfFrom, hv, wt, h, this]
    · by_cases h2 : k = n
      · by_cases h3 : x = d
        · subst h2
          simp only [h3, Nat.lt_irrefl, if_true, if_false]
          exact mapWfFrom_weaken (by omega) wt
        · subst h2
          simp [h3, mapWfFrom, hk, wt]
      · have ht := mapPut_wfFrom n x t (k + 1) (by omega) wt
        simp [h1, h2, mapWfFrom, hk, hv, ht]

theorem mapPut_wf {α : Type} [DecidableEq α] {d : α} {m : SMap α} (n : Nat) (x : α) (w : mapWf d m = true) :
    mapWf d (mapPut d m n x) = true := mapPut_wfFrom n x m 0 (Nat.zero_le _) w

theorem mapWrite_wf {α : Type} [DecidableEq α] {d : α} :
    ∀ (xs : List α) (m : SMap α) (a : Nat), mapWf d m = true → mapWf d (mapWrite d m a xs) = true
  | [], _, _, w => w
  | x :: xs, m, a, w => mapWrite_wf xs (mapPut d m a x) (a + 1) (mapPut_wf a x w)

theorem mapClear_wfFrom {α : Type} [DecidableEq α] {d : α} (lo hi : Nat) :
    ∀ (m : SMap α) (b : Nat), mapWfFrom d b m = true → mapWfFrom d b (mapClear m lo hi) = true
  | [], _, _ => rfl
  | (k, v) :: t, b, w => by
    simp only [mapWfFrom, Bool.and_eq_true, decide_eq_true_eq] at w
    obtain ⟨⟨hk, hv⟩, wt⟩ := w
    have ht := mapClear_wfFrom lo hi t (k + 1) wt
    unfold mapClear at ht ⊢
    rw [List.filter_cons]
    split
    · simp only [mapWfFrom, Bool.and_eq_true, decide_eq_true_eq]
      exact ⟨⟨hk, hv⟩, ht⟩
    · exact mapWfFrom_weaken (by omega) ht

theorem mapClear_wf {α : Type} [DecidableEq α] {d : α} {m : SMap α} (lo hi : Nat) (w : mapWf d m = true) :
    mapWf d (mapClear m lo hi) = true := mapClear_wfFrom lo hi m 0 w

theorem mapWf_nil {α : Type} [DecidableEq α] (d : α) : mapWf d ([] : SMap α) = true := rfl

/-- A key below every listed key reads as the default. -/
theorem mapGet_below {α : Type} [DecidableEq α] {d : α} {j : Nat} :
    ∀ (m : SMap α) (lo : Nat), mapWfFrom d lo m = true → j < lo → mapGet d m j = d
  | [], _, _, _ => rfl
  | (k, v) :: t, lo, w, h => by
    simp only [mapWfFrom, Bool.and_eq_true, decide_eq_true_eq] at w
    have hne : k ≠ j := by omega
    simp only [mapGet, hne, if_false]
    exact mapGet_below t (k + 1) w.2 (by omega)

theorem mapGet_mapPut_from {α : Type} [DecidableEq α] {d : α} (n : Nat) (x : α) (j : Nat) :
    ∀ (m : SMap α) (lo : Nat), mapWfFrom d lo m = true →
      mapGet d (mapPut d m n x) j = if j = n then x else mapGet d m j
  | [], _, _ => by
    unfold mapPut
    by_cases hx : x = d
    · by_cases hj : j = n <;> simp [hx, mapGet, hj]
    · by_cases hj : j = n
      · simp [hx, mapGet, hj]
      · have hj' : n ≠ j := fun e => hj e.symm
        simp [hx, mapGet, hj, hj']
  | (k, v) :: t, lo, w => by
    simp only [mapWfFrom, Bool.and_eq_true, decide_eq_true_eq] at w
    obtain ⟨⟨_, _⟩, wt⟩ := w
    unfold mapPut
    by_cases h1 : n < k
    · by_cases hj : j = n
      · subst hj
        have hk : k ≠ j := by omega
        have hb := mapGet_below (j := j) t (k + 1) wt (by omega)
        by_cases hx : x = d <;> simp [h1, hx, mapGet, hk, hb]
      · have hj' : n ≠ j := fun e => hj e.symm
        by_cases hx : x = d <;> simp [h1, hx, mapGet, hj, hj']
    · by_cases h2 : k = n
      · subst h2
        by_cases hj : j = k
        · subst hj
          have hb := mapGet_below (j := j) t (j + 1) wt (by omega)
          by_cases hx : x = d <;> simp [hx, mapGet, hb]
        · have hj' : k ≠ j := fun e => hj e.symm
          by_cases hx : x = d <;> simp [hx, mapGet, hj, hj']
      · have ht := mapGet_mapPut_from n x j t (k + 1) wt
        by_cases hkj : k = j
        · subst hkj
          simp [h1, h2, mapGet]
        · simp [h1, h2, mapGet, hkj, ht]

/-- A read after a write: the value written at its key, the earlier value everywhere else. -/
theorem mapGet_mapPut {α : Type} [DecidableEq α] {d : α} {m : SMap α} (n : Nat) (x : α) (j : Nat)
    (w : mapWf d m = true) : mapGet d (mapPut d m n x) j = if j = n then x else mapGet d m j :=
  mapGet_mapPut_from n x j m 0 w

/-- What each key reads after a list of values is written at consecutive keys. -/
theorem mapGet_mapWrite {α : Type} [DecidableEq α] {d : α} (j : Nat) :
    ∀ (xs : List α) (m : SMap α) (a : Nat), mapWf d m = true →
      mapGet d (mapWrite d m a xs) j = if h : a ≤ j ∧ j - a < xs.length then xs[j - a]'h.2 else mapGet d m j
  | [], m, a, _ => by simp [mapWrite]
  | x :: xs, m, a, w => by
    rw [mapWrite, mapGet_mapWrite j xs _ _ (mapPut_wf a x w), mapGet_mapPut a x j w]
    by_cases hj : j = a
    · subst hj
      have h1 : ¬ (j + 1 ≤ j ∧ j - (j + 1) < xs.length) := fun h => by omega
      rw [dif_neg h1]
      simp
    · by_cases hl : a ≤ j
      · have e : j - a = (j - (a + 1)) + 1 := by omega
        by_cases hc : j - (a + 1) < xs.length
        · have h1 : a + 1 ≤ j ∧ j - (a + 1) < xs.length := ⟨by omega, hc⟩
          have h2 : a ≤ j ∧ j - a < (x :: xs).length := ⟨hl, by simp; omega⟩
          rw [dif_pos h1, dif_pos h2]
          simp [e]
        · have h1 : ¬ (a + 1 ≤ j ∧ j - (a + 1) < xs.length) := fun h => hc h.2
          have h2 : ¬ (a ≤ j ∧ j - a < (x :: xs).length) := fun h => hc (by simp at h; omega)
          rw [dif_neg h1, dif_neg h2, if_neg hj]
      · have h1 : ¬ (a + 1 ≤ j ∧ j - (a + 1) < xs.length) := fun h => by omega
        have h2 : ¬ (a ≤ j ∧ j - a < (x :: xs).length) := fun h => hl h.1
        rw [dif_neg h1, dif_neg h2, if_neg hj]

/-- A cleared range reads as the default, every other key as before. -/
theorem mapGet_mapClear {α : Type} (d : α) (lo hi j : Nat) :
    ∀ (m : SMap α), mapGet d (mapClear m lo hi) j = if lo ≤ j ∧ j < hi then d else mapGet d m j
  | [] => by simp [mapClear, mapGet]
  | (k, v) :: t => by
    have ht := mapGet_mapClear d lo hi j t
    unfold mapClear at ht ⊢
    rw [List.filter_cons]
    by_cases hk : (k < lo || hi ≤ k) = true
    · simp only [hk, if_true, mapGet]
      by_cases hkj : k = j
      · subst hkj
        simp at hk
        have : ¬ (lo ≤ k ∧ k < hi) := by omega
        simp [this]
      · simp [hkj, ht]
    · simp only [hk, mapGet]
      by_cases hkj : k = j
      · subst hkj
        simp at hk
        have h2 : lo ≤ k ∧ k < hi := by omega
        simp [ht, h2]
      · simp [hkj, ht]

end Sys2Proof.Machine
end

