-- ==== Sys2Proof/Laws/Memory.lean ====
section
/-! SUPPORT. The memory operations keep the canonical form of every store, and change nothing of the cores, the jobs and the
supply. -/

namespace Sys2Proof.Machine

/-- What every operation on memory, registers, the fault queue and host memory keeps. -/
structure MemStep (s t : State) : Prop where
  wf : Memory.wf s = true → Memory.wf t = true
  cores : t.cores = s.cores
  misused : t.misused = s.misused
  manifests : t.manifests = s.manifests
  moves : t.moves = s.moves
  colls : t.colls = s.colls
  held : t.held = s.held
  berths : t.berths = s.berths
  peers : t.peers = s.peers
  hostUp : t.hostUp = s.hostUp
  pending : t.pending = s.pending
  powered : t.powered = s.powered
  supply : t.supplyBroken = s.supplyBroken
  beat : t.beat = s.beat
  flash : t.flash = s.flash

theorem MemStep.refl (s : State) : MemStep s s := ⟨id, rfl, rfl, rfl, rfl, rfl, rfl, rfl, rfl, rfl, rfl, rfl, rfl, rfl, rfl⟩

theorem MemStep.trans {s t u : State} (h : MemStep s t) (k : MemStep t u) : MemStep s u where
  wf := fun w => k.wf (h.wf w)
  cores := k.cores.trans h.cores
  misused := k.misused.trans h.misused
  manifests := k.manifests.trans h.manifests
  moves := k.moves.trans h.moves
  colls := k.colls.trans h.colls
  held := k.held.trans h.held
  berths := k.berths.trans h.berths
  peers := k.peers.trans h.peers
  hostUp := k.hostUp.trans h.hostUp
  pending := k.pending.trans h.pending
  powered := k.powered.trans h.powered
  supply := k.supply.trans h.supply
  beat := k.beat.trans h.beat
  flash := k.flash.trans h.flash

/-- An operation that leaves the stores alone. -/
theorem MemStep.of_stores {s t : State} (hm : t.mem = s.mem) (he : t.lineErrors = s.lineErrors) (hk : t.lineKeys = s.lineKeys)
    (hh : t.host = s.host) (cores : t.cores = s.cores) (misused : t.misused = s.misused) (manifests : t.manifests = s.manifests)
    (moves : t.moves = s.moves) (colls : t.colls = s.colls) (held : t.held = s.held) (berths : t.berths = s.berths)
    (peers : t.peers = s.peers) (hostUp : t.hostUp = s.hostUp) (pending : t.pending = s.pending)
    (powered : t.powered = s.powered) (supply : t.supplyBroken = s.supplyBroken) (beat : t.beat = s.beat)
    (flash : t.flash = s.flash) : MemStep s t :=
  ⟨fun w => by simpa [Memory.wf, hm, he, hk, hh, flash] using w, cores, misused, manifests, moves, colls, held, berths, peers,
    hostUp, pending, powered, supply, beat, flash⟩

/-- A fold of operations that each keep it. -/
theorem MemStep.foldl {α : Type} {f : State → α → State} (h : ∀ s x, MemStep s (f s x)) :
    ∀ (l : List α) (s : State), MemStep s (l.foldl f s)
  | [], s => MemStep.refl s
  | x :: t, s => (h s x).trans (MemStep.foldl h t (f s x))

/-! ## Registers, free values, what leaves the part -/

theorem setReg_memStep (s : State) (o : Nat) (v : Word) : MemStep s (s.setReg o v) := by
  apply MemStep.of_stores <;> rfl

theorem setRegField_memStep (s : State) (o hi lo v : Nat) : MemStep s (s.setRegField o hi lo v) := setReg_memStep s o _

theorem countReg_memStep (s : State) (o : Nat) : MemStep s (s.countReg o) := setReg_memStep s o _

theorem tick_memStep (s : State) : MemStep s s.tick := by apply MemStep.of_stores <;> rfl

theorem raiseVector_memStep (s : State) (v : Nat) : MemStep s (s.raiseVector v) := by
  unfold State.raiseVector
  simp only
  repeat' split
  all_goals first | exact MemStep.refl s | (apply MemStep.of_stores <;> rfl)

/-! ## Host memory -/

theorem hostPut_memStep (s : State) (a : Nat) (bs : List Byte) : MemStep s (s.hostPut a bs) := by
  refine ⟨fun w => ?_, rfl, rfl, rfl, rfl, rfl, rfl, rfl, rfl, rfl, rfl, rfl, rfl, rfl, rfl⟩
  simp only [Memory.wf, Bool.and_eq_true] at w ⊢
  exact ⟨⟨w.1.1, mapWrite_wf bs s.host a w.1.2⟩, w.2⟩

theorem mapPut_all_wf {α : Type} [DecidableEq α] {d : α} :
    ∀ (w : List (Nat × α)) (m : SMap α), mapWf d m = true → mapWf d (w.foldl (fun m p => mapPut d m p.1 p.2) m) = true
  | [], _, h => h
  | p :: t, m, h => mapPut_all_wf t (mapPut d m p.1 p.2) (mapPut_wf p.1 p.2 h)

theorem hostStores_memStep (s : State) (w : HostStores) : MemStep s (s.hostStores w) := by
  refine ⟨fun h => ?_, rfl, rfl, rfl, rfl, rfl, rfl, rfl, rfl, rfl, rfl, rfl, rfl, rfl, rfl⟩
  simp only [Memory.wf, Bool.and_eq_true] at h ⊢
  exact ⟨⟨h.1.1, mapPut_all_wf w s.host h.1.2⟩, h.2⟩

theorem publish_memStep (s : State) (a : Nat) (bs : List Byte) (v : List Nat) : MemStep s (s.publish a bs v) := by
  unfold State.publish
  split
  · exact (hostPut_memStep s a bs).trans (MemStep.foldl raiseVector_memStep v _)
  · apply MemStep.of_stores <;> rfl

/-- The host's memory reads as written where a store of bytes covers an address, and as before elsewhere. -/
theorem hostPut_reads (s : State) (a : Nat) (bs : List Byte) (w : mapWf 0 s.host = true) (j : Nat) :
    mapGet 0 (s.hostPut a bs).host j = if h : a ≤ j ∧ j - a < bs.length then bs[j - a]'h.2 else mapGet 0 s.host j :=
  mapGet_mapWrite j bs s.host a w

/-! ## The fault queue -/

theorem showQueued_memStep (s : State) : MemStep s s.showQueued := setRegField_memStep s _ _ _ _

theorem readConsumed_memStep (s : State) : MemStep s s.readConsumed := by
  unfold State.readConsumed
  split
  · exact showQueued_memStep s
  · split
    · refine MemStep.trans (t := { s with faults := _, faultConsumed := _ }) ?_ (showQueued_memStep _)
      apply MemStep.of_stores <;> rfl
    · exact showQueued_memStep s

theorem mirrorOne_memStep (s : State) (e : FaultEntry) : MemStep s (s.mirrorOne e) := by
  unfold State.mirrorOne
  split
  · exact MemStep.refl s
  · rename_i base size _
    refine (readConsumed_memStep s).trans ?_
    refine MemStep.trans ?_ (setReg_memStep _ _ _)
    refine MemStep.trans ?_ (publish_memStep _ _ _ _)
    refine (publish_memStep s.readConsumed (base + 0x40 + 64 * (s.readConsumed.faultMirrored % size)) e.encode []).trans ?_
    apply MemStep.of_stores <;> rfl

theorem addFault_memStep (s : State) (e : FaultEntry) : MemStep s (s.addFault e) := by
  unfold State.addFault
  simp only
  have h1 : MemStep s (if s.faults.length ≥ 1024 then s.readConsumed else s) := by
    split
    · exact readConsumed_memStep s
    · exact MemStep.refl s
  refine h1.trans ?_
  generalize (if s.faults.length ≥ 1024 then s.readConsumed else s) = u
  split
  · refine MemStep.trans ?_ (setRegField_memStep _ _ _ _ _)
    refine MemStep.trans ?_ (setReg_memStep _ _ _)
    refine (countReg_memStep u (R_FLT_OVF_COUNT + 4 * (e.source % 16))).trans ?_
    split
    · exact setReg_memStep _ _ _
    · exact MemStep.refl _
  · refine MemStep.trans ?_ (mirrorOne_memStep _ _)
    refine MemStep.trans ?_ (showQueued_memStep _)
    apply MemStep.of_stores <;> rfl

/-! ## Reading and writing lines -/

theorem noTenant_memStep (s : State) : MemStep s s.noTenant := by
  unfold State.noTenant
  split
  · exact MemStep.refl s
  · refine MemStep.trans ?_ (addFault_memStep _ _)
    apply MemStep.of_stores <;> rfl

theorem setPart_memStep (s : State) (p : PartId) (x : PartSt) : MemStep s (s.setPart p x) := by
  apply MemStep.of_stores <;> rfl

/-- An entry written on a condition. -/
theorem faultIf_memStep {s u : State} (P : Prop) [Decidable P] (e : FaultEntry) (h : MemStep s u) :
    MemStep s (if P then u.addFault e else u) := by
  split
  · exact h.trans (addFault_memStep _ _)
  · exact h

theorem countCe_memStep (s : State) (c : Nat) (dram : Bool) (line : Nat) (master : Bool) :
    MemStep s (s.countCe c dram line master) := by
  unfold State.countCe
  exact faultIf_memStep _ _ ((countReg_memStep s _).trans (setPart_memStep _ _ _))

theorem listUe_memStep (s : State) (line : Nat) : MemStep s (s.listUe line) := by
  unfold State.listUe
  split
  · exact MemStep.refl s
  · split
    · apply MemStep.of_stores <;> rfl
    · exact MemStep.refl s

theorem markRewritten_memStep (s : State) (line : Nat) : MemStep s (s.markRewritten line) := by
  unfold State.markRewritten
  repeat' split
  all_goals first | exact MemStep.refl s | (apply MemStep.of_stores <;> rfl)

theorem tableRead_memStep (s : State) (line : Nat) : MemStep s (s.tableRead line) := by
  unfold State.tableRead
  split
  · exact MemStep.refl s
  · refine MemStep.trans ?_ (addFault_memStep _ _)
    refine ⟨fun w => ?_, rfl, rfl, rfl, rfl, rfl, rfl, rfl, rfl, rfl, rfl, rfl, rfl, rfl, rfl⟩
    simp only [Memory.wf, Bool.and_eq_true] at w ⊢
    exact ⟨⟨⟨⟨w.1.1.1.1, mapPut_wf line [] w.1.1.1.2⟩, w.1.1.2⟩, w.1.2⟩, w.2⟩

theorem readLine_memStep (s : State) (line d : Nat) (master : Bool) : MemStep s (s.readLine line d master).1 := by
  have hc : ∀ (c : Nat) (key : Option LineKey) (data : List Byte), MemStep s
      ((match rsDecode (mapGet [] s.lineErrors line) with
        | .clean left => (s, LineOut.ok (residue key left data))
        | .corrected left => (s.countCe c key.isSome line master, .ok (residue key left data))
        | .uncorrectable => (s, .ue)) : State × LineOut).1 := by
    intro c key data
    split
    · exact MemStep.refl s
    · exact countCe_memStep _ _ _ _ _
    · exact MemStep.refl s
  unfold State.readLine
  simp only
  split
  · exact hc _ _ _
  · exact tableRead_memStep s line
  · split
    · exact noTenant_memStep s
    · split
      · split
        · exact MemStep.refl s
        · split
          · exact (countCe_memStep s _ _ _ _).trans (tick_memStep _)
          · exact tick_memStep s
      · exact hc _ _ _
  · split
    · exact noTenant_memStep s
    · split
      · exact hc _ _ _
      · exact hc _ _ _
  · exact MemStep.refl s

theorem inject_memStep (s : State) (line : Nat) : MemStep s (s.inject line) := by
  unfold State.inject
  split
  · rename_i e _
    refine MemStep.trans ?_ (setRegField_memStep _ _ _ _ _)
    refine ⟨fun w => ?_, rfl, rfl, rfl, rfl, rfl, rfl, rfl, rfl, rfl, rfl, rfl, rfl, rfl, rfl⟩
    simp only [Memory.wf, Bool.and_eq_true] at w ⊢
    exact ⟨⟨⟨⟨w.1.1.1.1, mapPut_wf line e w.1.1.1.2⟩, w.1.1.2⟩, w.1.2⟩, w.2⟩
  · exact MemStep.refl s

theorem putLine_memStep (s : State) (line : Nat) (data : List Byte) (key : LineKey) (whole : Bool) :
    MemStep s (s.putLine line data key whole) := by
  unfold State.putLine
  simp only
  have h1 : MemStep s { s with
      mem := mapWrite 0 s.mem line data, lineKeys := mapPut .unwritten s.lineKeys line key,
      lineErrors := mapPut [] s.lineErrors line [] } := by
    refine ⟨fun w => ?_, rfl, rfl, rfl, rfl, rfl, rfl, rfl, rfl, rfl, rfl, rfl, rfl, rfl, rfl⟩
    simp only [Memory.wf, Bool.and_eq_true] at w ⊢
    exact ⟨⟨⟨⟨mapWrite_wf data s.mem line w.1.1.1.1, mapPut_wf line [] w.1.1.1.2⟩, mapPut_wf line key w.1.1.2⟩, w.1.2⟩, w.2⟩
  have h2 := h1.trans (inject_memStep _ line)
  split
  · exact h2.trans (markRewritten_memStep _ _)
  · exact h2

theorem encodeLine_memStep (s : State) (line d : Nat) (data : List Byte) (whole : Bool) :
    MemStep s (s.encodeLine line d data whole) := by
  unfold State.encodeLine
  split
  · exact putLine_memStep s _ _ _ _
  · split
    · exact noTenant_memStep s
    · exact putLine_memStep s _ _ _ _
  · split
    · exact noTenant_memStep s
    · exact putLine_memStep s _ _ _ _
  · exact MemStep.refl s

theorem writeLine_memStep (s : State) (line d : Nat) (data : List Byte) : MemStep s (s.writeLine line d data) :=
  encodeLine_memStep s line d data true

theorem writePart_memStep (s : State) (a d : Nat) (bs : List Byte) : MemStep s (s.writePart a d bs).1 := by
  unfold State.writePart
  simp only
  have h := readLine_memStep s (lineOf a) d true
  split
  · rename_i s1 data e
    rw [e] at h
    exact h.trans (encodeLine_memStep _ _ _ _ _)
  · rename_i s1 e
    rw [e] at h
    exact h

theorem writeWithin_memStep (s : State) (a d : Nat) (bs : List Byte) : MemStep s (s.writeWithin a d bs).1 := by
  unfold State.writeWithin
  split
  · exact writeLine_memStep _ _ _ _
  · exact writePart_memStep _ _ _ _

/-- A fold over a state and a result beside it. -/
theorem MemStep.foldl_fst {α β : Type} {f : State × β → α → State × β} (h : ∀ p x, MemStep p.1 (f p x).1) :
    ∀ (l : List α) (p : State × β), MemStep p.1 (l.foldl f p).1
  | [], p => MemStep.refl p.1
  | x :: t, p => (h p x).trans (MemStep.foldl_fst h t (f p x))

theorem readBytes_memStep (s : State) (a n d : Nat) : MemStep s (s.readBytes a n d).1 := by
  unfold State.readBytes
  refine MemStep.foldl_fst (fun p x => ?_) _ (s, _)
  split
  · exact MemStep.refl _
  · have h := readLine_memStep p.1 (lineOf x.1) d true
    split
    · rename_i e
      rw [e] at h
      exact h
    · rename_i e
      rw [e] at h
      exact h

theorem writeBytes_memStep (s : State) (a d : Nat) (bs : List Byte) : MemStep s (s.writeBytes a d bs).1 := by
  unfold State.writeBytes
  refine MemStep.foldl_fst (fun p x => ?_) _ (s, none)
  split
  · exact MemStep.refl _
  · exact writeWithin_memStep _ _ _ _

/-- Clearing a range keeps the canonical form. -/
theorem forgetRange_memStep (s : State) (lo hi : Nat) : MemStep s (s.forgetRange lo hi) := by
  refine ⟨fun w => ?_, rfl, rfl, rfl, rfl, rfl, rfl, rfl, rfl, rfl, rfl, rfl, rfl, rfl, rfl⟩
  simp only [Memory.wf, Bool.and_eq_true] at w ⊢
  exact ⟨⟨⟨⟨mapClear_wf lo hi w.1.1.1.1, mapClear_wf lo hi w.1.1.1.2⟩, mapClear_wf lo hi w.1.1.2⟩, w.1.2⟩, w.2⟩

/-- Writing a range with zeros keeps it too. -/
theorem zeroRange_memStep (s : State) (lo hi : Nat) : MemStep s (s.zeroRange lo hi) := by
  unfold State.zeroRange
  simp only
  refine MemStep.trans ?_ (MemStep.foldl (fun t l => markRewritten_memStep t l) _ _)
  refine (forgetRange_memStep s lo hi).trans ?_
  split
  · exact inject_memStep _ _
  · exact MemStep.refl _

theorem flashPut_wf (s : State) (a : Nat) (bs : List Byte) (w : Memory.wf s = true) : Memory.wf (s.flashPut a bs) = true := by
  simp only [Memory.wf, Bool.and_eq_true] at w ⊢
  exact ⟨w.1, mapWrite_wf bs s.flash a w.2⟩

/-- The flash reads as written where a write covers an address, and as before elsewhere. -/
theorem flashPut_reads (s : State) (a : Nat) (bs : List Byte) (w : mapWf 0 s.flash = true) (j : Nat) :
    mapGet 0 (s.flashPut a bs).flash j = if h : a ≤ j ∧ j - a < bs.length then bs[j - a]'h.2 else mapGet 0 s.flash j :=
  mapGet_mapWrite j bs s.flash a w

/-- The memory of the part before power-on is canonical. -/
theorem reset_memory_wf : Memory.wf State.reset = true := by decide

/-! ## Words at places -/

theorem placeRead_memStep (s : State) (p : Place) (n : Nat) : MemStep s (s.placeRead p n).1 := by
  cases p with
  | dev a d => exact readBytes_memStep s a n d
  | bench c a => exact MemStep.refl s
  | host a => exact MemStep.refl s
  | remote l a d => exact MemStep.refl s

theorem wordRead_memStep (s : State) (p : Place) : MemStep s (s.wordRead p).1 := by
  unfold State.wordRead
  have h := placeRead_memStep s p 8
  split <;> (rename_i e; rw [e] at h; exact h)

/-- A write to device or host memory; a bench belongs to a core. -/
theorem placeWrite_memStep (s : State) (p : Place) (bs : List Byte) (hp : ∀ c a, p ≠ .bench c a) :
    MemStep s (s.placeWrite p bs).1 := by
  cases p with
  | dev a d => exact writeBytes_memStep s a d bs
  | bench c a => exact absurd rfl (hp c a)
  | host a => exact hostPut_memStep s a bs
  | remote l a d => exact MemStep.refl s

theorem wordAdd_memStep (s : State) (p : Place) (w : Word) (hp : ∀ c a, p ≠ .bench c a) : MemStep s (s.wordAdd p w).1 := by
  unfold State.wordAdd
  have h := wordRead_memStep s p
  split
  · rename_i e
    rw [e] at h
    exact h.trans (placeWrite_memStep _ p _ hp)
  · rename_i e
    rw [e] at h
    exact h

end Sys2Proof.Machine
end

