-- ==== Sys2Proof/Laws/Run.lean ====
section
/-! SUPPORT. What running one instruction does, where its core dispatches it. -/

namespace Sys2Proof.Machine

/-- Where the core dispatches the instruction, running it is what its operation answers. -/
theorem runInstr_dispatches {s : State} {a : CoreOp} {f : Form} (h : Dispatches s a f) (body : State → CoreSt → Body) :
    s.runInstr a f body = s.applyBody a.core f.words (body s (s.core a.core)) := by
  have hp : (a.pe && !(s.core a.core).preg a.pred) = false := by
    cases hpe : a.pe
    · rfl
    · simp [h.predicated hpe]
  unfold State.runInstr
  simp only [h.running, h.thawed, h.placed, h.legal, hp, h.sound]
  cases hb : body s (s.core a.core) with
  | jump t target =>
    by_cases ht : targetOk (s.core a.core).text target.toNat = true <;> simp [State.applyBody, upsetCode, Body.fault, ht]
  | _ => simp [State.applyBody, upsetCode, Body.fault]

/-- An operation that writes results and moves to the next word. -/
theorem applyBody_next {s t : State} {c : CoreId} {n : Nat} (hr : (t.core c).phase = .running)
    (hk : (t.core c).kernel = (s.core c).kernel)
    (ht : targetOk (t.core c).text ((t.core c).pc.toNat + n) = true) :
    s.applyBody c n (.next t) = t.updCore c (fun x => { x with pc := BitVec.ofNat 32 (x.pc.toNat + n) }) := by
  simp [State.applyBody, hr, hk, State.advance, ht, State.updCore]

theorem orFlags_cores (s : State) (c : CoreId) (f : FpFlags) : (s.orFlags c f).cores = s.cores := by
  unfold State.orFlags
  split
  · rfl
  · split <;> rfl

theorem orFlags_core (s : State) (c d : CoreId) (f : FpFlags) : (s.orFlags c f).core d = s.core d := by
  simp [State.core, orFlags_cores]

theorem orFlags_framed (s : State) (c : CoreId) (f : FpFlags) (g : CoreSt → CoreSt) :
    s.framed ((s.orFlags c f).updCore c g) = (s.orFlags c f).updCore c g := by
  unfold State.orFlags
  split
  · rfl
  · split <;> rfl

/-- Flags are raised alike before and after a change of the core that keeps its kernel. -/
theorem orFlags_updCore (s : State) (c : CoreId) (f : FpFlags) (g : CoreSt → CoreSt)
    (hk : (g (s.core c)).kernel = (s.core c).kernel) :
    (s.updCore c g).orFlags c f = (s.orFlags c f).updCore c g := by
  have e : (s.orFlags c f).updCore c g = (s.orFlags c f).setCore c (g (s.core c)) := by
    simp [State.updCore, orFlags_core]
  rw [e]
  unfold State.orFlags
  by_cases hf : f = 0
  · simp [hf, State.updCore]
  · simp only [hf, if_false, State.core_updCore_same, hk]
    split <;> simp [State.updCore, State.updManifest, State.setCore]

theorem updCore_updCore (s : State) (c : CoreId) (f g : CoreSt → CoreSt) :
    (s.updCore c f).updCore c g = s.updCore c (fun x => g (f x)) := by
  unfold State.updCore
  rw [State.core_setCore_same]
  unfold State.setCore
  simp

/-- An instruction whose operation changes its core by `g` and raises flags completes. -/
theorem completes_of_body {i : Instr} {a : CoreOp} {f : Form} {pre : CoreSt → Prop} {g : CoreSt → CoreSt}
    {fl : CoreSt → FpFlags} {body : State → CoreSt → Body} (hi : ∀ s, exec i s = runCore a f body s)
    (hb : ∀ s : State, Dispatches s a f → pre (s.core a.core) →
      body s (s.core a.core) = .next ((s.updCore a.core g).orFlags a.core (fl (s.core a.core))))
    (hg : ∀ c : CoreSt, (g c).phase = c.phase ∧ (g c).kernel = c.kernel ∧ (g c).text = c.text ∧ (g c).pc = c.pc) :
    Completes i a f pre g fl := by
  intro s hd hf hp
  have hs := hd.operates
  rw [hi, runCore, whenOn_operates hs, runInstr_dispatches hd, hb s hd hp,
    orFlags_updCore s a.core _ g (hg _).2.1]
  have hc : ((s.orFlags a.core (fl (s.core a.core))).updCore a.core g).core a.core = g (s.core a.core) := by
    simp [orFlags_core]
  rw [applyBody_next]
  · rw [updCore_updCore, orFlags_framed]
    simp only [afterInstr, (hg _).2.2.2]
  · rw [hc, (hg _).1]; exact hd.running
  · rw [hc, (hg _).2.1]
  · rw [hc, (hg _).2.2.1, (hg _).2.2.2]; exact hf

/-- An instruction that runs as a change of its own core completes. -/
theorem completes_of_pure {i : Instr} {a : CoreOp} {f : Form} {g : CoreSt → CoreSt}
    (hi : ∀ s, exec i s = runPure a f g s)
    (hg : ∀ c : CoreSt, (g c).phase = c.phase ∧ (g c).kernel = c.kernel ∧ (g c).text = c.text ∧ (g c).pc = c.pc) :
    CompletesPure i a f g := by
  refine completes_of_body (body := pureBody a.core g) (fun s => hi s) ?_ hg
  intro s _ _
  simp [pureBody, State.orFlags]

/-- Every instruction of a logical core runs an operation under its form, in one of the two ways. -/
theorem instr_runs {i : Instr} {a : CoreOp} {f : Form} (h : instrForm i = some (a, f)) :
    ∃ body : State → CoreSt → Body,
      (∀ s, exec i s = runCore a f body s) ∨ (∀ s, exec i s = runChecked a f body s) := by
  cases i <;> cases h <;>
    first
    | exact ⟨_, .inl (fun _ => rfl)⟩
    | exact ⟨_, .inr (fun _ => rfl)⟩

end Sys2Proof.Machine
end

