-- ==== Sys2Proof/Laws/Quiet.lean ====
section
/-! SUPPORT. How the rows of each kind of command run where they apply, and which operations leave the record of a misuse alone: what
a proof that a command completes cites. -/

namespace Sys2Proof.Machine

theorem whenOn_eq {f : State → State} {s : State} (h : Operates s) : whenOn f s = .next (s.framed (f s)) := whenOn_operates h f

theorem hostWrite_eq {o : Nat} {f : State → State} {s : State} (h : Operates s) (r : s.hostReaches o = true) :
    hostWrite o f s = .next (s.framed (f s)) := hostWrite_reached h o f r

theorem whenChecked_eq {f : State → State} {s : State} (h : Operates s) (r : (f s).misused = none) :
    whenChecked f s = .next (s.framed (f s)) := whenChecked_operates h f r

/-- Nothing but registers, the fault records and what goes to the host has changed. -/
def BooksOnly (s t : State) : Prop :=
  t = { s with
    regs := t.regs, faults := t.faults, faultSeq := t.faultSeq, lastFaults := t.lastFaults, faultMirrored := t.faultMirrored
    faultConsumed := t.faultConsumed, host := t.host, hostHeld := t.hostHeld, irqLast := t.irqLast, irqDeferred := t.irqDeferred
    out := t.out }

theorem BooksOnly.refl (s : State) : BooksOnly s s := rfl

theorem BooksOnly.trans {s t u : State} (h : BooksOnly s t) (k : BooksOnly t u) : BooksOnly s u := by
  unfold BooksOnly at *
  rw [h] at k
  exact k

theorem raiseVector_books (s : State) (v : Nat) : BooksOnly s (s.raiseVector v) := by
  unfold State.raiseVector
  simp only
  split
  · split
    · split <;> rfl
    · rfl
  · rfl

theorem publish_books (s : State) (a : Nat) (bs : List Byte) (vs : List Nat) : BooksOnly s (s.publish a bs vs) := by
  unfold State.publish
  split
  · have h : ∀ (l : List Nat) (u : State), BooksOnly u (l.foldl State.raiseVector u) := by
      intro l
      induction l with
      | nil => intro u; rfl
      | cons v l ih => intro u; exact (raiseVector_books u v).trans (ih _)
    have h1 : BooksOnly s (s.hostPut a bs) := rfl
    exact h1.trans (h vs _)
  · rfl

theorem readConsumed_books (s : State) : BooksOnly s s.readConsumed := by
  unfold State.readConsumed
  split
  · rfl
  · split <;> rfl

theorem setReg_books (s : State) (off : Nat) (v : Word) : BooksOnly s (s.setReg off v) := rfl

theorem mirrorOne_books (s : State) (e : FaultEntry) : BooksOnly s (s.mirrorOne e) := by
  unfold State.mirrorOne
  split
  · rfl
  · rename_i base size _
    refine (readConsumed_books s).trans ?_
    generalize s.readConsumed = u
    refine BooksOnly.trans ?_ (setReg_books _ _ _)
    refine BooksOnly.trans ?_ (publish_books _ _ _ _)
    refine (publish_books u (base + 0x40 + 64 * (u.faultMirrored % size)) e.encode []).trans ?_
    generalize u.publish (base + 0x40 + 64 * (u.faultMirrored % size)) e.encode [] = w
    rfl

theorem addFault_books (s : State) (e : FaultEntry) : BooksOnly s (s.addFault e) := by
  unfold State.addFault
  simp only
  have h1 : BooksOnly s (if s.faults.length ≥ 1024 then s.readConsumed else s) := by
    split
    · exact readConsumed_books s
    · rfl
  refine h1.trans ?_
  generalize (if s.faults.length ≥ 1024 then s.readConsumed else s) = u
  have hc : BooksOnly u (u.countReg (R_FLT_OVF_COUNT + 4 * (e.source % 16))) := setReg_books _ _ _
  split
  · refine BooksOnly.trans ?_ (setReg_books _ _ _)
    refine BooksOnly.trans ?_ (setReg_books _ _ _)
    refine hc.trans ?_
    split
    · exact setReg_books _ _ _
    · rfl
  · refine BooksOnly.trans ?_ (mirrorOne_books _ _)
    refine BooksOnly.trans ?_ (setReg_books _ _ _)
    rfl

section keep
variable (s : State)

@[simp] theorem setRegField_keeps_misused (a b c d : Nat) : (s.setRegField a b c d).misused = s.misused := rfl
@[simp] theorem countReg_keeps_misused (a : Nat) : (s.countReg a).misused = s.misused := rfl
@[simp] theorem updBerth_keeps_misused (b : BerthId) (f) : (s.updBerth b f).misused = s.misused := rfl
@[simp] theorem updQueue_keeps_misused (b : BerthId) (q) (f) : (s.updQueue b q f).misused = s.misused := rfl
@[simp] theorem updPart_keeps_misused (b : PartId) (f) : (s.updPart b f).misused = s.misused := rfl
@[simp] theorem updCore_keeps_misused (b : CoreId) (f) : (s.updCore b f).misused = s.misused := rfl
@[simp] theorem mapCores_keeps_misused (f) : (s.mapCores f).misused = s.misused := by simp only [State.mapCores]
@[simp] theorem updMove_keeps_misused (b) (f) : (s.updMove b f).misused = s.misused := rfl
@[simp] theorem setArb_keeps_misused (b) (f) : (s.setArb b f).misused = s.misused := rfl
@[simp] theorem makeReady_keeps_misused (b) : (s.makeReady b).misused = s.misused := rfl
@[simp] theorem account_keeps_misused (m e) : (s.accountEnergy m e).misused = s.misused := by
  simp only [State.accountEnergy, State.addEnergy, State.setReg_misused]

@[simp] theorem readCring_keeps_misused (b q) : (s.readCringConsumed b q).misused = s.misused := by unfold State.readCringConsumed; split <;> rfl

theorem books_misused {s t : State} (h : BooksOnly s t) : t.misused = s.misused := by rw [h]

@[simp] theorem publish_misused (a : Nat) (bs : List Byte) (vs : List Nat) : (s.publish a bs vs).misused = s.misused :=
  books_misused (publish_books s a bs vs)

@[simp] theorem addFault_misused (e : FaultEntry) : (s.addFault e).misused = s.misused := books_misused (addFault_books s e)

theorem ite_keeps_misused {P : Prop} [Decidable P] {a b : State} {m} (h1 : a.misused = m) (h2 : b.misused = m) : (if P then a else b).misused = m := by
  split <;> assumption
end keep

theorem whenChecked_of {f : State → State} {s : State} (h : Operates s) {t : State} (e : f s = t) (r : t.misused = none) :
    whenChecked f s = .next (s.framed t) := by subst e; exact whenChecked_eq h r

theorem foldl_misused {α : Type} (f : State → α → State) (h : ∀ s a, (f s a).misused = s.misused) (l : List α) (s : State) :
    (l.foldl f s).misused = s.misused := by
  induction l generalizing s with
  | nil => rfl
  | cons a l ih => rw [List.foldl_cons, ih, h]

theorem startRow_eq {n : Nat} {f : State → State} {s : State} (h : Operates s) (h1 : s.startStep = n) (h2 : s.devState ≠ devFailed) :
    startRow n f s = .next (s.framed (f s)) := by
  rw [startRow, whenOn_eq h, if_pos ⟨h1, h2⟩]

theorem offerTail_state (s : State) (b : BerthId) (q : QueueId) (t : Word) : ((s.offerTail b q t).berth b).state = (s.berth b).state := by
  unfold State.offerTail
  simp only
  split
  · rfl
  · split
    · simp [State.updQueue, BerthSt.setQueue, State.updBerth, State.setBerth, State.berth]
    · rw [addFault_books]; rfl

theorem bindTicket_misused {s t : State} {w c : Nat} {k : Lane} (h : s.bindTicket w c k = some t) : t.misused = s.misused := by
  unfold State.bindTicket at h
  split at h
  · cases h
  · split at h
    · cases h; rfl
    · cases h

theorem bindAll_keeps (ctx : Nat) (l : List (Lane × Nat)) : ∀ (s : State) (g : List Lane),
    (State.bindAll ctx s l g).1.misused = s.misused ∧ (State.bindAll ctx s l g).1.manifests = s.manifests ∧
    (State.bindAll ctx s l g).1.nextManifest = s.nextManifest := by
  induction l with
  | nil => intro s g; exact ⟨rfl, rfl, rfl⟩
  | cons x l ih =>
    intro s g
    obtain ⟨t, w⟩ := x
    unfold State.bindAll
    split
    · rename_i s1 h
      have h1 : s1.misused = s.misused ∧ s1.manifests = s.manifests ∧ s1.nextManifest = s.nextManifest := by
        unfold State.bindTicket at h
        split at h
        · cases h
        · split at h
          · cases h; exact ⟨rfl, rfl, rfl⟩
          · cases h
      have h2 := ih s1 (g ++ [t])
      exact ⟨h2.1.trans h1.1, h2.2.1.trans h1.2.1, h2.2.2.trans h1.2.2⟩
    · exact ⟨rfl, rfl, rfl⟩

theorem bindManifest_keeps {s u : State} {m m1 : Manifest} (h : s.bindManifest m = (u, some m1)) :
    u.misused = s.misused ∧ u.manifests = s.manifests ∧ u.nextManifest = s.nextManifest ∧ m1.id = m.id ∧ m1.phase = m.phase ∧
    m1.waitEvent = m.waitEvent := by
  unfold State.bindManifest at h
  simp only at h
  split at h
  · rename_i s1 got hb
    cases h
    have := fun l => bindAll_keeps m.context.toNat l s []
    have h5 := this ([(m.code, ldgCode)] ++ m.bindings.map (fun t => (t, s.bindingType t)) ++
      (if m.running then [(m.run, ldgRun)] else []) ++ (if m.waitEvent = 0 then [] else [(m.waitEvent, ldgEvent)]) ++
      (if m.signalEvent = 0 then [] else [(m.signalEvent, ldgEvent)]))
    rw [hb] at h5
    have this := h5
    exact ⟨this.1, this.2.1, this.2.2, rfl, rfl, rfl⟩
  · cases h

theorem ringPut_misused (s : State) (r : RunRec) (o : Nat) (bs : List Byte) : (s.ringPut r o bs).misused = s.misused := by
  unfold State.ringPut; split <;> simp

theorem runOutcome_misused (s : State) (m : Manifest) (r : RunRec) (st : Bool) (sv : List Byte) :
    (s.runOutcome m r st sv).misused = s.misused := by
  unfold State.runOutcome State.finish State.makeReady State.updManifest
  split
  · rfl
  · split
    · rfl
    · split
      · rfl
      · split <;> rfl

theorem deliverRun_misused (s : State) (m : Manifest) (r : RunRec) (c : Nat) (st : Bool) (bs : List Byte) :
    (s.deliverRun m r c st bs).misused = s.misused := by
  unfold State.deliverRun
  simp only
  split
  · rw [runOutcome_misused]; rfl
  · split
    · rfl
    · split
      · rfl
      · rw [runOutcome_misused]
        show (State.ringPut _ _ _ _).misused = _
        rw [ringPut_misused, foldl_misused _ (fun s a => ringPut_misused _ _ _ _)]

theorem tollRefill_misused (s : State) (p : PartId) : (s.tollRefill p).misused = s.misused := rfl

theorem holdFloor_misused (s : State) : s.holdFloor.misused = s.misused := by
  unfold State.holdFloor State.showShort
  simp only [setRegField_keeps_misused]
  have h : ∀ (u : State), u.refillAll.misused = u.misused := fun u => foldl_misused _ (fun s a => tollRefill_misused s a) _ _
  refine ite_keeps_misused ?_ ?_
  · rw [setRegField_keeps_misused]
    exact ite_keeps_misused rfl (by rw [setRegField_keeps_misused, h])
  · exact ite_keeps_misused rfl (by rw [setRegField_keeps_misused, h])

theorem admitRun_misused (s : State) (m : Manifest) (o : CodeObj) (v : VDev) : (s.admitRun m o none v).misused = s.misused := by
  unfold State.admitRun
  simp only
  rw [holdFloor_misused]
  rfl

theorem beginKernel_misused (s : State) (c : CoreId) : (s.beginKernel c).misused = s.misused := by
  unfold State.beginKernel; split <;> rfl

theorem placeKernel_misused (s : State) (p : PartId) (x : Ready) (t : List Word) : (s.placeKernel p x t).misused = s.misused := by
  unfold State.placeKernel State.startAll
  simp only
  rw [foldl_misused _ (fun s c => by unfold State.startNext; split; exact beginKernel_misused s c; rfl)]
  simp

theorem complete_misused (s : State) (m : Manifest) (dt : Nat) (h : m.signalEvent = 0) :
    (s.complete m stOk dt).misused = s.misused := by
  have he : ∀ u : State, u.eventEntry m.signalEvent = none := by
    intro u
    rw [h]
    unfold State.eventEntry State.ticketEntry
    cases u.ledgerLog2 <;> simp [bits]
  have hsig : ∀ u : State, (u.signal m stOk).misused = u.misused := by
    intro u; unfold State.signal State.signalNow; rw [he]; split <;> rfl
  unfold State.complete
  simp only [if_true]
  rw [hsig]
  simp only [State.updManifest_misused, publish_misused, updQueue_keeps_misused, account_keeps_misused, State.tick_misused]

theorem signalWaits_zero (s : State) (m : Manifest) (st : Nat) (h : m.signalEvent = 0) : s.signalWaits m st = false := by
  have he : s.eventEntry m.signalEvent = none := by
    rw [h]
    unfold State.eventEntry State.ticketEntry
    cases s.ledgerLog2 <;> simp [bits]
  simp [State.signalWaits, he]

theorem books_berths {s t : State} (h : BooksOnly s t) : t.berths = s.berths := by rw [h]

theorem books_manifests {s t : State} (h : BooksOnly s t) : t.manifests = s.manifests := by rw [h]

theorem updQueue_queue (s : State) (b : BerthId) (q : QueueId) (f) : ((s.updQueue b q f).berth b).queue q = f ((s.berth b).queue q) := by
  simp [State.updQueue, State.updBerth, State.setBerth, State.berth, BerthSt.queue, BerthSt.setQueue]

theorem complete_waiting (s : State) (m : Manifest) (dt : Nat) (h : m.signalEvent = 0) :
    (((s.complete m stOk dt).berth m.berth).queue m.queue).waiting = ((s.berth m.berth).queue m.queue).waiting := by
  have he : ∀ u : State, u.eventEntry m.signalEvent = none := by
    intro u
    rw [h]
    unfold State.eventEntry State.ticketEntry
    cases u.ledgerLog2 <;> simp [bits]
  have hsig : ∀ u : State, (u.signal m stOk).berths = u.berths := by
    intro u; unfold State.signal State.signalNow; rw [he]; split <;> rfl
  have hb : ∀ u v : State, v.berths = u.berths → v.berth m.berth = u.berth m.berth := by intro u v h; simp [State.berth, h]
  unfold State.complete
  simp only [if_true]
  rw [hb _ _ (hsig _)]
  rw [hb _ _ (State.updManifest_berths _ _ _)]
  rw [hb _ _ (books_berths (publish_books _ _ _ _))]
  rw [updQueue_queue]
  rw [hb _ _ (books_berths (publish_books _ _ _ _))]
  have : ∀ e, (s.tick.accountEnergy m e).berths = s.berths := by
    intro e; simp only [State.accountEnergy, State.addEnergy, State.setReg_berths]; rfl
  rw [hb _ _ (this _)]

theorem v1_id (m : Manifest) (e c : List Byte) : (manifestV1 m e c).1.id = m.id ∧ (manifestV1 m e c).1.phase = m.phase := ⟨rfl, rfl⟩

theorem v2_id (m : Manifest) (e c : List Byte) : (manifestV2 m e c).1.id = m.id ∧ (manifestV2 m e c).1.phase = m.phase := ⟨rfl, rfl⟩

/-- A frame leaves the part's own memory of misuse and its cores alone. -/
structure Quiet (s t : State) : Prop where
  misused : t.misused = s.misused
  cores : t.cores = s.cores

theorem Quiet.refl (s : State) : Quiet s s := ⟨rfl, rfl⟩

theorem Quiet.trans {s t u : State} (h : Quiet s t) (k : Quiet t u) : Quiet s u :=
  ⟨k.misused.trans h.misused, k.cores.trans h.cores⟩

theorem Quiet.of {s t : State} (h : MemStep s t) : Quiet s t := ⟨h.misused, h.cores⟩

theorem transmit_quiet (s : State) (l f) : Quiet s (s.transmit l f) := by
  unfold State.transmit
  split
  · split <;> exact ⟨rfl, rfl⟩
  · exact ⟨rfl, rfl⟩

theorem sendUnseq_quiet (s : State) (l ty p) : Quiet s (s.sendUnseq l ty p) := by
  unfold State.sendUnseq
  split
  · split
    · exact ⟨rfl, rfl⟩
    · exact Quiet.trans (t := s.updPeer l Peer.countTx) ⟨rfl, rfl⟩ (transmit_quiet _ _ _)
  · exact ⟨rfl, rfl⟩

theorem sendSeq_quiet (s : State) (l ty fl p mv) : Quiet s (s.sendSeq l ty fl p mv) := by
  unfold State.sendSeq
  split
  · split
    · exact ⟨rfl, rfl⟩
    · simp only
      split
      · refine Quiet.trans ?_ (transmit_quiet _ _ _)
        exact ⟨rfl, rfl⟩
      · exact ⟨rfl, rfl⟩
  · exact ⟨rfl, rfl⟩

theorem receive_quiet (s : State) (a ok) : Quiet s (s.receive a ok).1 := by
  unfold State.receive
  split
  · exact ⟨rfl, rfl⟩
  · split <;> exact ⟨rfl, rfl⟩

theorem authentic_quiet {s u : State} {rx ty} (h : s.authentic rx ty = (u, true)) : Quiet s u := by
  revert h
  unfold State.authentic
  simp only
  repeat' split
  all_goals intro h
  all_goals first | (exact absurd (Prod.mk.inj h).2 (by decide)) | (cases h; exact ⟨rfl, rfl⟩)

theorem accept_quiet {s u : State} {rx ty} (h : s.accept rx ty = (u, true)) : Quiet s u := by
  revert h
  unfold State.accept
  have hr := receive_quiet s rx.toArrival (s.takes rx.toArrival)
  split
  · intro h; cases h
  · rename_i s1 e
    intro h
    rw [e] at hr
    exact hr.trans (authentic_quiet h)

theorem takeSeq_quiet (s : State) (rx) : Quiet s (s.takeSeq rx).1 := by
  unfold State.takeSeq
  simp only
  have h1 : Quiet s (if s.restarted rx then s.restartRx rx.src else s) := by split <;> exact ⟨rfl, rfl⟩
  refine h1.trans ?_
  generalize (if s.restarted rx then s.restartRx rx.src else s) = t
  refine Quiet.trans (t := t.updPeer rx.src (fun p => p.arrive rx.seq t.beat)) ⟨rfl, rfl⟩ ?_
  generalize t.updPeer rx.src (fun p => p.arrive rx.seq t.beat) = z
  split
  · split
    · unfold State.sendSack
      split
      · exact ⟨rfl, rfl⟩
      · simp only
        exact Quiet.trans (sendUnseq_quiet z _ _ _) ⟨rfl, rfl⟩
    · exact ⟨rfl, rfl⟩
  · exact ⟨rfl, rfl⟩

theorem taken_quiet {s u s1 : State} {rx ty b} (h : s.accept rx ty = (u, true)) (k : u.takeSeq rx = (s1, b)) : Quiet s s1 := by
  have := takeSeq_quiet u rx
  rw [k] at this
  exact (accept_quiet h).trans this

theorem acceptSeq_quiet {s s1 : State} {rx ty} (h : s.acceptSeq rx ty = (s1, true)) : Quiet s s1 := by
  revert h
  unfold State.acceptSeq
  split
  · intro h; cases h
  · rename_i u e
    intro h
    exact taken_quiet e h

theorem placeWrite_keeps_misused (s : State) (p : Place) (bs) : (s.placeWrite p bs).1.misused = s.misused := by
  cases p with
  | bench c a => rfl
  | dev a d => exact (writeBytes_memStep s a d bs).misused
  | host a => exact (hostPut_memStep s a bs).misused
  | remote l a d => rfl

theorem placeWrite_moves (s : State) (p : Place) (bs) : (s.placeWrite p bs).1.moves = s.moves := by
  cases p with
  | bench c a => rfl
  | dev a d => exact (writeBytes_memStep s a d bs).moves
  | host a => exact (hostPut_memStep s a bs).moves
  | remote l a d => rfl

theorem repairFrom_step (s : State) (m : Movement) (l a d) : MemStep s (s.repairFrom m l a d) := by
  unfold State.repairFrom
  split
  · exact (writeLine_memStep _ _ _ _).trans (addFault_memStep _ _)
  · exact MemStep.refl s

theorem sendRdata_quiet (s : State) (l e d) : Quiet s (s.sendRdata l e d) := by
  unfold State.sendRdata
  generalize indexed (chunksOf (64 * writeLines) (d.length / 64 + 1) d) = cs
  induction cs generalizing s with
  | nil => exact ⟨rfl, rfl⟩
  | cons c cs ih => exact (sendSeq_quiet s _ _ _ _ _).trans (ih _)

theorem updMove_move {f : Movement → Movement} {id : Nat} (hf : ∀ x, (f x).id = x.id) {s : State} {m : Movement} (h : s.move? id = some m) :
    (s.updMove m.id f).move? m.id = some (f m) := by
  have hm : m.id = id := by
    have := List.find?_some h
    simpa using this
  rw [hm]
  unfold State.move? State.updMove at *
  simp only
  generalize s.moves = l at *
  induction l with
  | nil => cases h
  | cons x l ih =>
    rw [List.map_cons]
    rw [List.find?_cons] at h ⊢
    by_cases hx : x.id = id
    · rw [if_pos hx, hf]
      simp only [hx, beq_self_eq_true] at h ⊢
      cases h; rfl
    · rw [if_neg hx]
      have hx' : (x.id == id) = false := beq_eq_false_iff_ne.2 hx
      simp only [hx'] at h ⊢
      exact ih h

theorem leBytes_length : ∀ n x, (leBytes n x).length = n
  | 0, _ => rfl
  | n + 1, x => by rw [leBytes, List.length_cons, leBytes_length n]

theorem leNat_leBytes : ∀ n x, leNat (leBytes n x) = x % 256 ^ n
  | 0, x => by rw [leBytes, leNat]; omega
  | n + 1, x => by
    have h : (256 : Nat) ^ (n + 1) = 256 * 256 ^ n := by rw [Nat.pow_succ, Nat.mul_comm]
    rw [leBytes, leNat, leNat_leBytes n, BitVec.toNat_ofNat, h, Nat.mod_mul]

theorem word_of_leBytes (w : Word) : BitVec.ofNat 64 (leNat (leBytes 8 w.toNat)) = w := by
  rw [leNat_leBytes]
  apply BitVec.eq_of_toNat_eq
  have := w.isLt
  simp only [BitVec.toNat_ofNat]
  omega

theorem settleUpdate_done {s : State} {id : Nat} {m : Movement} (h : s.move? id = some m) (g : m.group ≠ 16) : s.settleUpdate id = s := by
  simp only [State.settleUpdate, h]
  rw [if_neg (fun x => g x.1)]

theorem drainAll_nothing {s : State} (h : NothingQueued s) : s.drainAll = s := by
  unfold State.drainAll
  have : ∀ c, s.drainCore c = s := by
    intro c
    unfold State.drainCore
    rw [if_pos (by rw [h c]; rfl)]
  generalize allCores = l
  induction l with
  | nil => rfl
  | cons c l ih => rw [List.foldl_cons, this c, ih]

theorem dataFrame_eq {rx : Rx} {ty : Nat} {valid : Bool} {waits : State → Bool} {f : State → State} {s u s1 : State} (hs : Operates s)
    (h1 : valid = true) (h2 : s.key.tenant ≠ .removing) (h3 : s.accept rx ty = (u, true)) (h4 : waits u = false)
    (h5 : u.takeSeq rx = (s1, true)) {t : State} (h6 : f s1 = t) (h7 : t.misused = none) :
    dataFrame rx ty valid waits f s = .next (s.framed t) := by
  unfold dataFrame
  apply whenChecked_of hs _ h7
  rw [if_neg (by rw [h1]; decide), if_neg h2]
  simp only [h3, h4, h5, h6]
  simp

theorem rosterFrame_eq {s u : State} {rx : Rx} {ty : Nat} {f : State → State} (h : Operates s) (ha : s.acceptSeq rx ty = (u, true)) :
    rosterFrame rx ty f s = .next (s.framed (f u)) := by
  rw [rosterFrame, whenOn_eq h, ha]

theorem handoffFrame_eq {s u : State} {rx : Rx} {ty : Nat} {r : HandoffRecord} {f : State → State} (h : Operates s)
    (ha : s.acceptSeq rx ty = (u, true)) (hf : u.hoOutcome? r.hid r.holder = none) :
    hoFrame rx ty r f s = .next (s.framed (f u)) := by
  rw [hoFrame, rosterFrame, whenOn_eq h, ha]
  simp [hf]

theorem voidManifest_keeps_misused (s : State) (id c) : (s.voidManifest id c).misused = s.misused := by
  unfold State.voidManifest
  split
  · rfl
  · split
    · rfl
    · simp only; split <;> rfl

theorem useAllowance_keeps_misused (s : State) (id) : (s.useAllowance id).misused = s.misused := by
  unfold State.useAllowance
  split
  · rfl
  · split
    · exact voidManifest_keeps_misused _ _ _
    · rfl

theorem lowerRate_keeps_misused (s : State) : s.lowerRate.misused = s.misused := by
  unfold State.lowerRate
  apply foldl_misused
  intro s m
  simp only
  exact ite_keeps_misused (by rw [voidManifest_keeps_misused, State.updManifest_misused, useAllowance_keeps_misused]) (by rw [State.updManifest_misused, useAllowance_keeps_misused])

theorem release_keeps_misused (l : List HostHeld) : ∀ s : State, (∀ h ∈ l, h.publishes = true) →
    (l.foldl (fun s (w : HostHeld) => match w with
    | .write a bs vectors => s.publish a bs vectors
    | .signal m status => s.signalNow m status
    | .count t => s.returnTicket t) s).misused = s.misused := by
  induction l with
  | nil => intro s _; rfl
  | cons x l ih =>
    intro s h
    rw [List.foldl_cons, ih _ (fun y hy => h y (List.mem_cons_of_mem _ hy))]
    have := h x (List.mem_cons_self ..)
    cases x with
    | write a bs v => exact publish_misused _ _ _ _
    | _ => simp [HostHeld.publishes] at this

theorem linkUp_keeps_misused (s : State) (f : Bool) (ms : List Nat) (h : ∀ h ∈ s.hostHeld, h.publishes = true) : (s.linkUp f ms).misused = s.misused := by
  unfold State.linkUp
  simp only
  have hr : ∀ u : State, u.hostHeld = s.hostHeld → u.releaseHostWrites.misused = u.misused := by
    intro u hu
    unfold State.releaseHostWrites
    exact release_keeps_misused _ _ (by rw [hu]; exact h)
  refine ite_keeps_misused ?_ ?_
  · rw [lowerRate_keeps_misused]; exact hr _ rfl
  · exact hr _ rfl

theorem keyCommand_eq {op : Nat} {v : Lane} {run : State → State} {s : State} (hs : Operates s) (h1 : s.hostReaches R_KEY_CMD = true)
    (h2 : v.getLsbD 31 = true) (h3 : bits v.toNat 27 24 = op)
    (h4 : ((s.setRegField R_KEY_CMD 27 24 op).setRegField R_KEY_CMD 15 0 (bits v.toNat 15 0)).keyBusy = false)
    (h5 : s.ferryDown = false) : keyCommand op v none run s =
      .next (s.framed (run ((s.setRegField R_KEY_CMD 27 24 op).setRegField R_KEY_CMD 15 0 (bits v.toNat 15 0)))) := by
  simp only [keyCommand, hostWrite_eq hs h1]
  rw [if_neg (by simp [h3]), if_neg (by simp [h2]), if_neg (by rw [h4]; decide), if_neg (by
    rw [show ((s.setRegField R_KEY_CMD 27 24 op).setRegField R_KEY_CMD 15 0 (bits v.toNat 15 0)).ferryDown = s.ferryDown from rfl, h5]
    decide)]

theorem needRoot_eq {run : State → State} {s : State} (h : s.key.rootFailed = false ∨ s.key.debug = true) : s.needRoot run = run s := by
  unfold State.needRoot
  rw [if_neg (by rcases h with h | h <;> simp [h])]

theorem needTenant_eq {run : State → State} {s : State} (h : s.key.tenant = .installed) : s.needTenant run = run s := by
  unfold State.needTenant
  rw [if_neg (by simp [h])]

theorem mailCommand_eq {op : Nat} {run : State → Nat → State} {s : State} (hs : Operates s) (h1 : s.hostReaches R_FER_REQ = true)
    (h2 : s.hostNat s.mailBlock 2 = op) (h3 : s.regBit R_FER_ACCEPT 31 = false) (h4 : s.devState ≠ devFailed)
    (h5 : s.ferryDown = false) (h6 : s.blockOk s.mailBlock = true) :
    mailCommand op none run s = .next (s.framed (run (s.ferAccept accAccepted 0) s.mailBlock)) := by
  simp only [mailCommand, hostWrite_eq hs h1, State.mailGo]
  rw [if_neg (by simp [h2]), if_neg (by rw [h3]; decide), if_neg (fun h => h4 h.1), if_neg (fun h => by rw [h5] at h; cases h.1),
    if_neg (by rw [h6]; decide)]

theorem runCore_eq {s : State} {a : CoreOp} {f : Form} (h : Dispatches s a f) (hw : f.words = 1) (body : State → CoreSt → Body) :
    runCore a f body s = .next (s.framed (s.applyBody a.core 1 (body s (s.core a.core)))) := by
  have h1 : s.runInstr a f body = s.applyBody a.core f.words (body s (s.core a.core)) := by
    have hp : (a.pe && !(s.core a.core).preg a.pred) = false := by
      cases hpe : a.pe
      · rfl
      · simp [h.predicated hpe]
    unfold State.runInstr
    simp only [h.running, h.thawed, h.placed, h.legal, hp, h.sound]
    cases hb : body s (s.core a.core) with
    | jump t target =>
      by_cases ht : targetOk (s.core a.core).text target.toNat = true <;> simp [State.applyBody, upsetCode, Body.fault, ht]
    | _ => simp [State.applyBody, upsetCode, Body.fault]
  rw [hw] at h1
  rw [runCore, whenOn_eq h.operates, h1]

end Sys2Proof.Machine
end

