-- ==== Sys2Proof/Tests/Slice0.lean ====
section
/-! SUPPORT. The model's own tests: terms that WellFormed refuses, the specification's worked examples, and for every
statement with hypotheses concrete states and operands that meet them. -/


namespace Sys2Proof.Tests

open Machine

set_option Elab.async false

/-! ## Small states -/

/-- Powered, with the host link up and the device READY; every core, partition and berth as reset leaves it. -/
def tUp : State :=
  { (State.setRegField State.reset R_DEV_STATE 3 0 devReady).setRegField R_FER_STATUS 31 28 ferRunning with
    powered := true, hostUp := true, linkBw := 1024 }

/-- An instruction of core 0 with some operand fields. -/
def tOp (dst src1 src2 : Fin 32) (imm : BitVec 33) : CoreOp := ⟨0, false, 0, dst, src1, src2, imm, .none⟩

/-- A code object with one kernel of eight words for the twelve cores of a rank. -/
def tCode : CodeObj := ⟨2, 0, 0, 0, 0, [⟨0, 8, 0xFFF, none⟩]⟩

/-- A manifest that runs on rank 0 at partition 0. -/
def tJob : Manifest :=
  { Manifest.blank 0 0 0 1 with
    version := 2, rankCount := 1, obj := some tCode, phase := .running, ranks := [⟨0, 0, false, false, 0, true, 1⟩] }

/-- The kernel of core 0: eight ADD words. -/
def tSlot : KernelSlot := ⟨0, 0, 0, false, List.replicate 8 0⟩

/-- A core that runs word 0 of that kernel, with registers s1, s2 and s3 set. -/
def tCore (x y d : Word) : CoreSt :=
  { CoreSt.reset with
    phase := .running, text := tSlot.text, kernel := some tSlot
    s := (((Vector.replicate 32 (0 : Word)).set 1 x).set 2 y).set 3 d }

/-- The device with core 0 as given and the manifest of its kernel. -/
def tWith (c : CoreSt) : State := { tUp.setCore 0 c with manifests := [tJob] }

/-- The device with core 0 running. -/
def tRun (x y d : Word) : State := tWith (tCore x y d)

/-- Whether a core dispatches an instruction, as a value. -/
def dispatchOk (s : State) (a : CoreOp) (f : Form) : Bool :=
  s.powered && !s.supplyBroken && decide ((s.core a.core).phase = .running) && !s.coreFrozen a.core &&
  (s.part (corePart a.core)).onPos (coreNum a.core) && !s.illegal a.core f &&
  (!a.pe || (s.core a.core).preg a.pred) && decide (a.upset = .none)

theorem dispatches {s : State} {a : CoreOp} {f : Form} (h : dispatchOk s a f = true) : Dispatches s a f := by
  simp only [dispatchOk, Bool.and_eq_true, Bool.not_eq_true', decide_eq_true_eq, Bool.or_eq_true] at h
  obtain ⟨⟨⟨⟨⟨⟨⟨h1, h2⟩, h3⟩, h4⟩, h5⟩, h6⟩, h7⟩, h8⟩ := h
  exact ⟨⟨h1, h2⟩, h3, h4, h5, h6, fun hp => h7.resolve_left (by simp [hp]), h8⟩

/-! ## What meets the hypotheses of the statements about instructions -/

theorem witness_scalar_arithmetic :
    Dispatches (tRun 5 3 0) (tOp 3 1 2 0) (plainForm (noImm (tOp 3 1 2 0))) ∧ FallsThrough (tRun 5 3 0) (tOp 3 1 2 0) 1 ∧
    Dispatches (tRun 1 0 0) (tOp 3 1 0 0) (plainForm (noSrc2 (tOp 3 1 0 0) && noImm (tOp 3 1 0 0))) ∧
    (1 : Word).getLsbD (63 - 63) = true ∧ (∀ j, 63 - 63 < j → (1 : Word).getLsbD j = false) ∧
    (0x8000000000000000 : Word).getLsbD 63 = true ∧ (∀ j, j < 63 → (0x8000000000000000 : Word).getLsbD j = false) ∧
    Dispatches (tRun 5 3 0) (tOp 3 1 0 63) (plainForm (noSrc2 (tOp 3 1 0 63) && (!(decide (6 ≤ 6) && decide (6 ≤ 8)) ||
      decide ((tOp 3 1 0 63).imm.toNat < 64)))) ∧
    Operates (tRun 5 3 0) ∧ ((tRun 5 3 0).core 0).phase = .running ∧ (tRun 5 3 0).coreFrozen 0 = false ∧
    ((tRun 5 3 0).part (corePart 0)).onPos (coreNum 0) = true := by
  refine ⟨dispatches (by decide), rfl, dispatches (by decide), rfl, ?_, rfl, ?_,
    dispatches (by decide), ⟨rfl, rfl⟩, rfl, rfl, rfl⟩
  · intro j hj
    simp [BitVec.getLsbD_one, show j ≠ 0 by omega]
  · decide

theorem witness_moves_and_predicates :
    Dispatches (tRun 5 3 0) (tOp 3 0 0 0x1FFFFFFFF) (plainForm (noSrc1 (tOp 3 0 0 0x1FFFFFFFF) && noSrc2 (tOp 3 0 0 0x1FFFFFFFF))) ∧
    Dispatches (tRun 5 3 0) (tOp 3 1 0 0xFFFFFFFF)
      (plainForm (noSrc2 (tOp 3 1 0 0xFFFFFFFF) && decide ((tOp 3 1 0 0xFFFFFFFF).imm.toNat < 2 ^ 32))) ∧
    Dispatches (tRun 5 3 0) (tOp 3 1 2 7) (plainForm (decide ((tOp 3 1 2 7).imm.toNat < 8))) ∧
    Dispatches (tRun 5 3 0) (tOp 0 0 0 0)
      (plainForm (noDst (tOp 0 0 0 0) && noSrc1 (tOp 0 0 0 0) && noSrc2 (tOp 0 0 0 0) && noImm (tOp 0 0 0 0))) ∧
    Dispatches (tRun 5 3 0) (tOp 3 0 0 0x080) (plainForm (noSrc1 (tOp 3 0 0 0x080) && noSrc2 (tOp 3 0 0 0x080) &&
      immBelow (tOp 3 0 0 0x080) 12 && specialOk (tOp 3 0 0 0x080).imm.toNat)) ∧
    (∃ v, specialValue (tRun 5 3 0) 0 0x080 = some v) ∧ ((tRun 5 3 0).core 0).kernel = some tSlot ∧
    Dispatches (tRun 5 3 0) (tOp 7 1 2 0) (plainForm (noImm (tOp 7 1 2 0) && isLow3 (tOp 7 1 2 0).dst)) ∧
    Dispatches (tRun 5 3 0) (tOp 7 1 0 9) (plainForm (noSrc2 (tOp 7 1 0 9) && isLow3 (tOp 7 1 0 9).dst)) ∧
    Dispatches (tRun 5 3 0) (tOp 7 1 2 0) (plainForm (noImm (tOp 7 1 2 0) && isLow3 (tOp 7 1 2 0).dst &&
      isLow3 (tOp 7 1 2 0).src1 && isLow3 (tOp 7 1 2 0).src2)) := by
  refine ⟨?_, ?_, ?_, ?_, ?_, ⟨_, rfl⟩, rfl, ?_, ?_, ?_⟩ <;> exact dispatches (by decide)

theorem witness_hard_wired : (31 : Fin 32) ≠ 0 ∧ (1 : Fin 32) ≠ 31 ∧ (7 : Fin 8) ≠ 0 ∧ (1 : Fin 8) ≠ 7 := by decide

/-- The last bytes of the bench, the first address beyond it, and an address that is not aligned. -/
theorem witness_bench_accesses :
    Dispatches (tRun 0x7FFF8 0 0) (tOp 3 1 0 0) (benchForm (noSrc2 (tOp 3 1 0 0))) ∧
    (opX (tOp 3 1 0 0) (tCore 0x7FFF8 0 0) + (tOp 3 1 0 0).imm.signExtend 64).toNat + 8 ≤ 0x80000 ∧
    (opX (tOp 3 1 0 0) (tCore 0x7FFF8 0 0) + (tOp 3 1 0 0).imm.signExtend 64).toNat % 8 = 0 ∧
    Dispatches (tRun 0x7FFF8 5 0) (tOp 0 1 2 0) (benchForm (noDst (tOp 0 1 2 0))) ∧
    mapWf none (tCore 0x7FFF8 5 0).bench = true ∧
    0x80000 < (opX (tOp 3 1 0 0) (tCore 0x80000 0 0) + (tOp 3 1 0 0).imm.signExtend 64).toNat + 1 ∧
    (opX (tOp 3 1 0 0) (tCore 0x7FFF9 0 0) + (tOp 3 1 0 0).imm.signExtend 64).toNat + 4 ≤ 0x80000 ∧
    (opX (tOp 3 1 0 0) (tCore 0x7FFF9 0 0) + (tOp 3 1 0 0).imm.signExtend 64).toNat % 4 ≠ 0 := by
  refine ⟨dispatches (by decide), ?_, ?_, dispatches (by decide), rfl, ?_, ?_, ?_⟩ <;> decide

/-- Targets in the text and beyond it; a counter of 1 and one of 2. -/
theorem witness_branches :
    Dispatches (tRun 5 3 0) (tOp 0 0 0 7) (plainForm (noDst (tOp 0 0 0 7) && noSrc1 (tOp 0 0 0 7) && noSrc2 (tOp 0 0 0 7))) ∧
    targetOk tSlot.text 7 = true ∧ targetOk tSlot.text 8 = false ∧
    Dispatches (tRun 5 3 0) (tOp 3 0 0 7) (plainForm (noSrc1 (tOp 3 0 0 7) && noSrc2 (tOp 3 0 0 7))) ∧
    Dispatches (tRun 5 3 0) (tOp 0 1 0 2) (plainForm (noDst (tOp 0 1 0 2) && noSrc2 (tOp 0 1 0 2))) ∧
    Dispatches (tRun 0 0 1) (tOp 3 0 0 7) (plainForm (noSrc1 (tOp 3 0 0 7) && noSrc2 (tOp 3 0 0 7) && decide ((tOp 3 0 0 7).dst ≠ 0))) ∧
    (tCore 0 0 1).sreg 3 = 1 ∧ (tCore 0 0 2).sreg 3 ≠ 1 ∧ FallsThrough (tRun 0 0 1) (tOp 3 0 0 7) 1 := by
  refine ⟨?_, by decide, by decide, ?_, ?_, ?_, rfl, by decide, rfl⟩ <;> exact dispatches (by decide)

/-- A quiet core and one with a movement in flight; debug enabled and not. -/
theorem witness_kernel_end_and_break :
    Dispatches (tRun 0 0 0) (tOp 0 0 0 0)
      (plainForm (noDst (tOp 0 0 0 0) && noSrc1 (tOp 0 0 0 0) && noSrc2 (tOp 0 0 0 0) && noImm (tOp 0 0 0 0))) ∧
    (tRun 0 0 0).coreQuiet 0 = true ∧ (tRun 0 0 0).key.debug = false ∧
    Dispatches { tRun 0 0 0 with key := { KeySt.reset with debug := true } } (tOp 0 0 0 0)
      (plainForm (noDst (tOp 0 0 0 0) && noSrc1 (tOp 0 0 0 0) && noSrc2 (tOp 0 0 0 0) && noImm (tOp 0 0 0 0))) ∧
    { tRun 0 0 0 with moves := [(newMove (tRun 0 0 0) 0 tSlot tJob (moveFields (tOp 0 0 0 0) 1) none 64 none (Endpoint.codesOnly []))] }.coreQuiet 0 = false := by
  exact ⟨dispatches (by decide), by decide, rfl, dispatches (by decide), by decide⟩

/-- A descriptor of one row of `cols` elements of a format, at bench address 0. -/
def tDesc (fmt cols : Nat) : DescWord := BitVec.ofNat 128 (2 ^ 24 + cols * 2 ^ 32 + fmt * 2 ^ 44 + 2 ^ 115)

/-- Core 0 with descriptors d0, d1 and d2. -/
def tTile (d0 d1 d2 : DescWord) : CoreSt :=
  { tCore 0 0 0 with d := (((Vector.replicate 8 (0 : DescWord)).set 0 d0).set 1 d1).set 2 d2 }

theorem witness_tiles_and_zero :
    Dispatches (tRun 5 3 0) (tOp 7 1 2 0x001) ⟨1, fmtIsMx (tdsetFmt (tOp 7 1 2 0x801)), fun _ => false, tdsetLegal (tOp 7 1 2 0x801)⟩ ∧
    Dispatches (tRun 5 3 0) (tOp 7 1 0 0x1FFF) ⟨1, true, fun _ => false, isLow3 (tOp 7 1 0 0x1FFF).dst && noSrc2 (tOp 7 1 0 0x1FFF) &&
      immBelow (tOp 7 1 0 0x1FFF) 13⟩ ∧
    Dispatches (tRun 5 3 0) (tOp 7 1 2 0) (plainForm (isLow3 (tOp 7 1 2 0).dst && noImm (tOp 7 1 2 0))) ∧
    Dispatches (tRun 5 3 0) (tOp 1 0 0 0)
      (plainForm (isAcc (tOp 1 0 0 0).dst && noSrc1 (tOp 1 0 0 0) && noSrc2 (tOp 1 0 0 0) && noImm (tOp 1 0 0 0))) := by
  refine ⟨?_, ?_, ?_, ?_⟩ <;> exact dispatches (by decide)

/-- A product of 32 steps, a drain, and products of 64 steps whose toll is not asked for, not granted, and granted. -/
theorem witness_matrix_products :
    Dispatches (tWith (tTile (tDesc 0 32) (tDesc 0 32) 0)) (tOp 0 0 1 1)
      (benchForm (isAcc (tOp 0 0 1 1).dst && isLow3 (tOp 0 0 1 1).src1 && isLow3 (tOp 0 0 1 1).src2 && immBelow (tOp 0 0 1 1) 1)) ∧
    mmaFault (tDesc 0 32) (tDesc 0 32) = none ∧ mmaSteps 0 0 32 = some 32 ∧ 32 < heavySteps ∧
    Dispatches (tWith (tTile 0 0 (tDesc 2 16))) (tOp 2 1 0 1)
      (storeForm (isLow3 (tOp 2 1 0 1).dst && isAcc (tOp 2 1 0 1).src1 && noSrc2 (tOp 2 1 0 1) && immBelow (tOp 2 1 0 1) 1)
        (fun c => drainReads (c.dreg (low3 (tOp 2 1 0 1).dst)))) ∧
    drainFault (tDesc 2 16) = none ∧
    Dispatches (tRun 0 0 0) (tOp 3 1 0 15) (plainForm (isAcc (tOp 3 1 0 15).src1 && noSrc2 (tOp 3 1 0 15) && immBelow (tOp 3 1 0 15) 4)) ∧
    mmaFault (tDesc 0 64) (tDesc 0 64) = none ∧ mmaSteps 0 0 64 = some heavySteps ∧
    Dispatches (tWith { tTile (tDesc 0 64) (tDesc 0 64) 0 with tollHeld := some 0 }) (tOp 0 0 1 1)
      (benchForm (isAcc (tOp 0 0 1 1).dst && isLow3 (tOp 0 0 1 1).src1 && isLow3 (tOp 0 0 1 1).src2 && immBelow (tOp 0 0 1 1) 1)) ∧
    Dispatches (tWith { tTile (tDesc 0 64) (tDesc 0 64) 0 with tollHeld := some 1 }) (tOp 0 0 1 1)
      (benchForm (isAcc (tOp 0 0 1 1).dst && isLow3 (tOp 0 0 1 1).src1 && isLow3 (tOp 0 0 1 1).src2 && immBelow (tOp 0 0 1 1) 1)) ∧
    mapGet 0 ((tWith (tTile 0 0 0)).part 0).tollPerformed 0 + 64 ≤ mapGet 0 ((tWith (tTile 0 0 0)).part 0).tollGranted 0 + 1024 ∧
    FallsThrough (tWith (tTile 0 0 0)) (tOp 0 0 1 1) 1 := by
  refine ⟨dispatches (by decide), by decide, by decide, by decide, dispatches (by decide), by decide, dispatches (by decide),
    by decide, by decide, dispatches (by decide), dispatches (by decide), by decide, rfl⟩

/-- With a mask register and without. -/
theorem witness_vectors :
    Dispatches (tRun 0 0 0) (tOp 3 1 2 0) (plainForm (vecLegal (tOp 3 1 2 0) true true)) ∧
    Dispatches (tRun 0 0 0) (tOp 3 1 2 0x003) (plainForm (vecLegal (tOp 3 1 2 0x003) true true)) ∧
    Dispatches (tRun 0 0 0) (tOp 3 1 0 0) (plainForm (vecLegal (tOp 3 1 0 0) false false)) ∧
    Dispatches (tRun 0 0 0) (tOp 3 0 0 0) (plainForm (vecLegal (tOp 3 0 0 0) false false && noSrc1 (tOp 3 0 0 0))) ∧
    Dispatches (tRun 0 0 0) (tOp 3 1 0 0x7F800) (plainForm (laneLegal (tOp 3 1 0 0x7F800))) ∧
    Dispatches (tRun 0 0 0) (tOp 3 1 0 0x200000) ⟨1, true, fun _ => false, noSrc2 (tOp 3 1 0 0x200000) && opImm (tOp 3 1 0 0x200000) 18 0 == 0 &&
      immBelow (tOp 3 1 0 0x200000) 23 && fmtIsMx (opImm (tOp 3 1 0 0x200000) 22 19)⟩ ∧
    Dispatches (tRun 0 0 0) (tOp 3 1 0 0) (plainForm (segLegal (tOp 3 1 0 0) && noSrc2 (tOp 3 1 0 0))) ∧
    Dispatches (tRun 0 0 0) (tOp 3 1 2 0) (plainForm (segLegal (tOp 3 1 2 0))) ∧
    FallsThrough (tRun 0 0 0) (tOp 3 1 2 0) 1 := by
  refine ⟨?_, ?_, ?_, ?_, ?_, ?_, ?_, ?_, rfl⟩ <;> exact dispatches (by decide)

/-- The last 1,024 bytes of the bench. -/
theorem witness_vector_loads_and_stores :
    Dispatches (tRun 0x7FC00 0 0) (tOp 3 1 0 0) (benchForm (vldstLegal (tOp 3 1 0 0) && noSrc2 (tOp 3 1 0 0))) ∧
    Dispatches (tRun 0x7FC00 0 0) (tOp 0 1 2 0) (storeForm (vldstLegal (tOp 0 1 2 0) && noDst (tOp 0 1 2 0)) (vstReads (tOp 0 1 2 0))) ∧
    vecAddr (tOp 3 1 0 0) (tCore 0x7FC00 0 0) + 1024 ≤ 0x80000 ∧ vecAddr (tOp 3 1 0 0) (tCore 0x7FC00 0 0) % 64 = 0 ∧
    mapWf none (tCore 0x7FC00 0 0).bench = true :=
  ⟨dispatches (by decide), dispatches (by decide), by decide, by decide, rfl⟩

/-- One candidate at the end of the bench, lists of one and of 256. -/
theorem witness_sampling_and_candidates :
    Dispatches (tRun 0 0 0) (tOp 3 1 2 0) (plainForm ((opMe (tOp 3 1 2 0) || opVm (tOp 3 1 2 0) == 0) && opSrc3 (tOp 3 1 2 0) == 0 &&
      immBelow (tOp 3 1 2 0) 19)) ∧
    Dispatches (tRun 0 0 0) (tOp 3 1 2 0) (plainForm (opImm (tOp 3 1 2 0) 10 0 == 0 && immBelow (tOp 3 1 2 0) 19)) ∧
    Dispatches (tRun 0x7FFFC 1 0) (tOp 4 1 2 0x20) (benchForm (evenReg (tOp 4 1 2 0x20).dst && kLegal (opImm (tOp 4 1 2 0x20) 13 5) &&
      immBelow (tOp 4 1 2 0x20) 14)) ∧
    (opX (tOp 4 1 2 0x20) (tCore 0x7FFFC 1 0)).toNat + 4 * (opY (tOp 4 1 2 0x20) (tCore 0x7FFFC 1 0)).toNat ≤ 0x80000 ∧
    Dispatches (tRun 0 0 0) (tOp 4 6 8 256) (plainForm (evenReg (tOp 4 6 8 256).dst && evenReg (tOp 4 6 8 256).src1 &&
      evenReg (tOp 4 6 8 256).src2 && kLegal (opImm (tOp 4 6 8 256) 8 0) && immBelow (tOp 4 6 8 256) 9)) ∧
    Dispatches (tRun 0 0 0) (tOp 4 6 2 0x2000) (plainForm (evenReg (tOp 4 6 2 0x2000).src1 && kLegal (opImm (tOp 4 6 2 0x2000) 13 5) &&
      immBelow (tOp 4 6 2 0x2000) 14)) := by
  refine ⟨dispatches (by decide), dispatches (by decide), dispatches (by decide), by decide, dispatches (by decide), dispatches (by decide)⟩

/-- A row of 64 bytes from 0x40 to the end of the bench, by copy and by fill. -/
theorem witness_movements :
    (tRun 0x40 64 0x7FFC0).running 0 = some (tSlot, tJob) ∧ (tRun 0x40 64 0x7FFC0).inFlight 0 < 16 ∧
    (tRun 0x40 64 0x7FFC0).moverFrozen 0 = false ∧ NumbersFresh (tRun 0x40 64 0x7FFC0) ∧
    (moveFields (tOp 3 1 2 0) 1).rows = 1 ∧ (moveFields (tOp 3 1 2 0) 1).dcls = 0 ∧ (moveFields (tOp 3 1 2 0) 1).scls = 0 ∧
    (moveFields (tOp 3 1 2 0) 1).last = false ∧ opY (tOp 3 1 2 0) (tCore 0x40 64 0x7FFC0) = 64 ∧
    ((tCore 0x40 64 0x7FFC0).sreg 3).toNat + 64 = 0x80000 ∧ FallsThrough (tRun 0x40 64 0x7FFC0) (tOp 3 1 2 0) 2 ∧
    Dispatches (tRun 0x40 64 0x7FFC0) (tOp 3 1 2 0) (moveForm (tOp 3 1 2 0) 1 false) ∧
    Dispatches (tRun 0x40 64 0x7FFC0) (tOp 3 1 2 0) (moveForm (tOp 3 1 2 0) 1 true) := by
  refine ⟨rfl, by decide, by decide, ⟨?_, ?_⟩, by decide, by decide, by decide, by decide, by decide, by decide, rfl,
    dispatches (by decide), dispatches (by decide)⟩ <;> · intro x hx; cases hx

/-- A movement of core 0 with nothing left to do. -/
def tMove : Movement :=
  { newMove (tRun 0 0 0) 0 tSlot tJob (moveFields (tOp 0 0 0 0) 1) none 64 none (Endpoint.codesOnly []) with
    rowsLeft := [], tollsLeft := [], phase := .remote }

theorem witness_movements_retire :
    Operates { tRun 0 0 0 with moves := [tMove], nextMove := 1 } ∧
    State.move? { tRun 0 0 0 with moves := [tMove], nextMove := 1 } 0 = some tMove ∧
    State.moveDone { tRun 0 0 0 with moves := [tMove], nextMove := 1 } tMove = true ∧
    QuietDevice { tRun 0 0 0 with moves := [tMove], nextMove := 1 } :=
  ⟨⟨rfl, rfl⟩, rfl, by decide, by decide, rfl, rfl⟩

/-- The collective of core 0 that is alone on its rank's team, joined and agreed. -/
def tColl : Coll :=
  { (Coll.fresh tSlot 0 true 0 fAllgath 0 64).join ⟨0, 0, List.replicate 64 1, [⟨.bench 0 64, 64⟩]⟩ fAllgath 0 64 0 0 0 with
    sources := some [List.replicate 64 1], tolls := [] }

theorem witness_collectives :
    (tRun 0 768 0x400).running 0 = some (tSlot, tJob) ∧
    Dispatches (tRun 0 768 0x400) (tOp 3 1 2 0) (collForm (tOp 3 1 2 0) fAllred) ∧
    Dispatches (tRun 0 768 0x400) (tOp 3 1 2 0) (collForm (tOp 3 1 2 0) fAllgath) ∧
    Dispatches (tRun 0 768 0x400) (tOp 3 1 2 0) (collForm (tOp 3 1 2 0) fRedscat) ∧
    Dispatches (tRun 0 768 0x400) (tOp 0 0 0 0) (collForm (tOp 0 0 0 0) fCbar) ∧
    collScls (tOp 3 1 2 0) = 0 ∧ collDcls (tOp 3 1 2 0) = 0 ∧ 768 % (64 * participants tJob tSlot (collTeam (tOp 3 1 2 0))) = 0 ∧
    0x400 + participants tJob tSlot (collTeam (tOp 3 1 2 0)) * 768 ≤ 0x80000 := by
  refine ⟨rfl, dispatches (by decide), dispatches (by decide), dispatches (by decide), dispatches (by decide),
    by decide, by decide, by decide, by decide⟩

theorem witness_collectives_retire :
    Operates { tRun 0 0 0 with colls := [tColl] } ∧
    tColl.joins tSlot 0 true 0 = true ∧ tColl.mismatched = false ∧ tColl.retired.contains 0 = false ∧
    (mapGet [] tColl.tolls (0 : CoreId).val).isEmpty = true ∧ tColl.crosses tJob 1 = false ∧
    tColl.parts.find? (fun (p : CollPart) => p.core == 0) = some ⟨0, 0, List.replicate 64 1, [⟨.bench 0 64, 64⟩]⟩ ∧
    (collResult tColl.func tColl.redop tColl.length [List.replicate 64 1] 0).length = 64 ∧
    QuietDevice { tRun 0 0 0 with colls := [tColl] } ∧ mapWf none (tCore 0 0 0).bench = true :=
  ⟨⟨rfl, rfl⟩, by decide, by decide, by decide, by decide, by decide, rfl, by decide, ⟨by decide, rfl, rfl⟩, rfl⟩

/-- A ledger of 16 entries at host address 0 whose entry 1 is an event at host address 0x100 that holds 5. -/
def tLedger (abandoned : Nat) : List (Nat × Byte) :=
  mapWrite 0 (mapWrite 0 [] 16 (leBytes 8 0x103 ++ leBytes 8 (0x1040000 + abandoned * 2 ^ 20))) 0x100 (leBytes 8 5)

/-- A kernel whose manifest names that event. -/
def tEvents (y : Word) (abandoned : Nat) (phase : CorePhase) : State :=
  { (tWith { tCore 1 y 0 with phase := phase }).setRegField R_LDG_BASE 4 0 4 with
    host := tLedger abandoned, manifests := [{ tJob with bindings := [1] }] }

/-- The event that holds 5, against the thresholds 5 and 6; and the same event abandoned. -/
theorem witness_events_and_waits :
    (tEvents 5 0 .running).running 0 = some (tSlot, { tJob with bindings := [1] }) ∧ (tEvents 5 0 .running).hostUp = true ∧
    (∃ e, (tEvents 5 0 .running).eventEntry 1 = some e ∧ e.abandoned = false ∧ (tEvents 5 0 .running).trouble e.place 8 true = none ∧
      (tEvents 5 0 .running).trouble e.place 8 false = none ∧
      (∃ u, (tEvents 5 0 .running).wordRead e.place = (u, .inl 5)) ∧ ∃ u, (tEvents 5 0 .running).wordAdd e.place 5 = (u, none)) ∧
    (∃ e, (tEvents 5 1 .running).eventEntry 1 = some e ∧ e.abandoned = true) ∧
    Manifest.namesTicket { tJob with bindings := [1] } 1 = true ∧ (tEvents 5 0 .running).released 0 5 = true ∧
    Manifest.hedged { tJob with bindings := [1] } tSlot.rank = false ∧
    Dispatches (tEvents 5 0 .running) (tOp 0 1 2 5) (evtForm (tOp 0 1 2 5) (noDst (tOp 0 1 2 5))) ∧
    Dispatches (tEvents 5 0 .running) (tOp 3 1 0 0) (evtForm (tOp 3 1 0 0) (noSrc2 (tOp 3 1 0 0) && opScope (tOp 3 1 0 0) == 0)) ∧
    Dispatches (tEvents 5 1 .running) (tOp 3 1 2 5) (evtForm (tOp 3 1 2 5) true) ∧
    (5 : Word) ≤ 5 ∧ ¬ (6 : Word) ≤ 5 ∧ FallsThrough (tEvents 5 0 .running) (tOp 3 1 2 5) 1 ∧
    ((tEvents 5 0 (.waiting (.event 1 5 3 5))).core 0).phase = .waiting (.event 1 5 3 5) ∧
    ((tEvents 5 0 (.waiting (.flag (.bench 0 8) 5 3 5 0))).core 0).phase = .waiting (.flag (.bench 0 8) 5 3 5 0) ∧
    (tEvents 5 0 (.waiting (.event 1 5 3 5))).running 0 = some (tSlot, { tJob with bindings := [1] }) := by
  refine ⟨rfl, rfl, ⟨_, rfl, by decide, by decide, by decide, ⟨_, rfl⟩, ⟨_, rfl⟩⟩, ⟨_, rfl, by decide⟩, by decide, by decide, by decide,
    dispatches (by decide), dispatches (by decide), dispatches (by decide), by decide, by decide, rfl, rfl, rfl, rfl⟩

/-- A flag in the last eight bytes of the bench, at and below its threshold. -/
theorem witness_flags_and_held_writes :
    (tRun 0x7FFF8 0 0).running 0 = some (tSlot, tJob) ∧ (tRun 0x7FFF8 0 0).moverFrozen 0 = false ∧ opFlagClass (tOp 0 1 2 0) = 0 ∧
    (opX (tOp 0 1 2 0) (tCore 0x7FFF8 0 0)).toNat + 8 = 0x80000 ∧
    Dispatches (tRun 0x7FFF8 0 0) (tOp 0 1 2 0) (flagForm (tOp 0 1 2 0) (noDst (tOp 0 1 2 0) && immBelow (tOp 0 1 2 0) 12)) ∧
    (tRun 0x7FFF8 0 0).released 0 (opScope (tOp 0 1 2 0)) = true ∧ opImm (tOp 0 1 2 0) 7 7 = 0 ∧ NumbersFresh (tRun 0x7FFF8 0 0) ∧
    Dispatches (tRun 0x7FFF8 0 0) (tOp 3 1 2 0) (flagForm (tOp 3 1 2 0) (immBelow (tOp 3 1 2 0) 7)) ∧
    opY (tOp 3 1 2 0) (tCore 0x7FFF8 5 0) ≤ BitVec.ofNat 64 (leNat (((tCore 0x7FFF8 5 0).putBytes 0x7FFF8 (leBytes 8 5)).bytes 0x7FFF8 8)) ∧
    ¬ opY (tOp 3 1 2 0) (tCore 0x7FFF8 6 0) ≤ BitVec.ofNat 64 (leNat (((tCore 0x7FFF8 6 0).putBytes 0x7FFF8 (leBytes 8 5)).bytes 0x7FFF8 8)) ∧
    State.heldReady tUp ⟨0, none, ⟨0, 0, 0, 0, 0⟩, 0, 0, .host 0x100, [1], .data, 0, 0⟩ = true ∧ tUp.move? 0 = none ∧
    (tRun 0x7FFF8 0 0).misused = none ∧ (tCore 0x7FFF8 0 0).sync = [] := by
  refine ⟨rfl, by decide, by decide, by decide, dispatches (by decide), by decide, by decide, ⟨?_, ?_⟩, dispatches (by decide),
    by decide, by decide, by decide, rfl, rfl, rfl⟩ <;> · intro x hx; cases hx

/-- Scope 5, groups 0 and 15, with and without a movement of group 0 in flight. -/
theorem witness_fences_and_system :
    Dispatches (tRun 0 0 0) (tOp 0 0 0 5) (fenceForm (tOp 0 0 0 5) (immBelow (tOp 0 0 0 5) 3 && scopeOk (tOp 0 0 0 5))) ∧
    (tRun 0 0 0).released 0 5 = true ∧
    State.released { tRun 0 0 0 with moves := [{ tMove with rowsLeft := [(.host 0, .host 0)] }] } 0 5 = false ∧
    Dispatches (tRun 0 0 0) (tOp 0 0 0 0x8001) (fenceForm (tOp 0 0 0 0x8001) (immBelow (tOp 0 0 0 0x8001) 16 && !noImm (tOp 0 0 0 0x8001))) ∧
    (tRun 0 0 0).groupsDone 0 0x8001 = true ∧ State.groupsDone { tRun 0 0 0 with moves := [tMove] } 0 0x8001 = false ∧
    Dispatches (tRun 0 0 0) (tOp 3 0 0 0) (plainForm (noSrc1 (tOp 3 0 0 0) && noSrc2 (tOp 3 0 0 0) && noImm (tOp 3 0 0 0))) ∧
    Dispatches (tRun 0 0 0) (tOp 0 0 0 0xFFFF) (plainForm (noDst (tOp 0 0 0 0xFFFF) && noSrc1 (tOp 0 0 0 0xFFFF) &&
      noSrc2 (tOp 0 0 0 0xFFFF) && immBelow (tOp 0 0 0 0xFFFF) 16)) ∧ (tRun 0 0 0).tracing = false ∧
    Dispatches (tRun 0 0 0) (tOp 3 0 0 8) (plainForm (noSrc1 (tOp 3 0 0 8) && noSrc2 (tOp 3 0 0 8) && immBelow (tOp 3 0 0 8) 8)) ∧
    FallsThrough (tRun 0 0 0) (tOp 3 0 0 0) 1 := by
  refine ⟨dispatches (by decide), by decide, by decide, dispatches (by decide), by decide, by decide, dispatches (by decide),
    dispatches (by decide), rfl, dispatches (by decide), rfl⟩

/-- Core 0 with a tree record of two nodes at bench address 0: POS 0, ACCEPTED 0, PARENT 0xFF and 0, PATH 0. -/
def tTree (x y : Word) : CoreSt :=
  (((tCore x y 0).putBytes 0 (List.replicate 9 0)).putBytes 0x40 [0xFF, 0]).putBytes 0x280 [0]

/-- The device with the first tree block of a sequence Provisional in the resident table. -/
def tBlocks (c : CoreSt) : State :=
  (tWith c).residentPut { blockName 0 0 with block := treeBlock0 }
    (BitVec.ofNat 64 (BlockEntry.words { BlockEntry.free with state := stProvisional } { blockName 0 0 with block := treeBlock0 }).1.toNat, 0)

/-- The least and the greatest key; a class without a record; 64 tree nodes; an entry that a lookup finds. -/
theorem witness_blocks_and_their_states :
    (tBlocks (tCore 0 1 0)).running 0 = some (tSlot, tJob) ∧ keyOk 0 = true ∧ keyLine 0 = 0 ∧
    keyOk (treeBlock0 * 2 ^ 10 + 3 * 2 ^ 10) = true ∧
    (tBlocks (tCore 0 1 0)).seqLost 0 (keySeq 0) = false ∧ ((tBlocks (tCore 0 1 0)).part 0).state ≠ .resetting ∧
    (tBlocks (tCore 0 1 0)).spanWaits 0 0 [(0, 0)] = false ∧ (tBlocks (tCore 0 1 0)).spanWaits 0 0 [(treeBlock0, treeBlock0 + 3)] = false ∧ FallsThrough (tBlocks (tCore 0 1 0)) (tOp 3 1 2 0) 1 ∧
    Dispatches (tBlocks (tCore 0 1 0)) (tOp 3 1 0 15) (sbForm (noSrc2 (tOp 3 1 0 15) && immBelow (tOp 3 1 0 15) 4)) ∧
    (tBlocks (tCore 0 1 0)).allocWaits [blockName 0 0] 0 15 = false ∧
    (sbRange (fun s n => s.sbnewOne n 15) 1 (tBlocks (tCore 0 1 0)) (blockName 0 0) sbOk 0).2.1 = sbClass ∧
    Dispatches (tBlocks (tCore 0 1 0)) (tOp 3 1 2 0) (sbForm (noImm (tOp 3 1 2 0))) ∧ sbRangeOk 0 65536 = true ∧
    (sbRange (fun s n => s.sbcmtOne n) 1 (tBlocks (tCore 0 1 0)) (blockName 0 0) sbOk 0).2.1 = sbState ∧
    (sbRange (fun s n => s.sbfreeOne n) 1 (tBlocks (tCore 0 1 0)) (blockName 0 0) sbOk 0).2.1 = sbOk ∧
    Dispatches (tBlocks (tCore 0 64 0)) (tOp 3 1 2 0) (sbForm (immBelow (tOp 3 1 2 0) 4)) ∧
    (tBlocks (tCore 0 64 0)).allocWaits ((List.range ((64 + 15) / 16)).map (fun i => { blockName 0 0 with block := treeBlock0 + i })) 0 0 = false ∧
    Dispatches (tBlocks (tCore 0 0 0)) (tOp 3 1 0 0) (sbForm (noSrc2 (tOp 3 1 0 0) && noImm (tOp 3 1 0 0))) ∧
    (∃ u, (tBlocks (tCore 0 0 0)).lookup { blockName 0 0 with block := treeBlock0 } =
      (u, .entry { BlockEntry.free with state := stProvisional })) ∧
    (∃ u, (tBlocks (tCore 0 0 0)).lookup (blockName 0 0) = (u, .entry .free)) ∧
    ((tBlocks (tCore 0 0 0)).classRec 0 15).usable = false := by
  refine ⟨by decide, by decide, by decide, by decide, by decide, by decide, by decide, by decide, rfl, dispatches (by decide), by decide, by decide,
    dispatches (by decide), by decide, by decide, by decide, dispatches (by decide), by decide, dispatches (by decide), ⟨_, rfl⟩,
    ⟨_, rfl⟩, by decide⟩

theorem witness_draft_trees :
    treeFault (tTree 0 1) 0 2 = none ∧ FallsThrough (tWith (tTree 0 1)) (tOp 3 1 2 2) 1 ∧
    Dispatches (tWith (tTree 0 1)) (tOp 3 1 2 2) (specForm (tOp 3 1 2 2) (immBelow (tOp 3 1 2 2) 7)) ∧
    (opY (tOp 3 1 2 2) (tTree 0 1)).toNat < 2 ∧
    Dispatches (tWith (tTree 0 1)) (tOp 3 1 0 2) (specForm (tOp 3 1 0 2) (noSrc2 (tOp 3 1 0 2) && immBelow (tOp 3 1 0 2) 7)) := by
  refine ⟨by decide, rfl, dispatches (by decide), by decide, dispatches (by decide)⟩

/-- A commit whose class has no record: the answer is CLASS. -/
theorem witness_draft_tree_commit :
    Dispatches (tBlocks (tTree 0 0)) (tOp 3 1 2 2) (specForm (tOp 3 1 2 2) (immBelow (tOp 3 1 2 2) 11)) ∧
    treeFault (tTree 0 0) 0 (opNodes (tOp 3 1 2 2)) = none ∧ keyOk 0 = true ∧ keyLine 0 = 0 ∧ keyBlock 0 = 0 ∧
    (tTree 0 0).treePos 0 + (tTree 0 0).treeAccepted 0 < 16 * treeBlock0 ∧
    (List.range ((tTree 0 0).treeAccepted 0 + 1)).map (fun i => if i < 64 then (tTree 0 0).treePath 0 i else 0xFF) = [0] ∧
    (∃ u, scmtRun (tOp 3 1 2 2) (tBlocks (tTree 0 0)) tSlot tJob 0 0 [0] 0 = .next u ∧ u.misused = none ∧
      (u.core 0).phase = .running ∧ (u.core 0).kernel = some tSlot ∧ FallsThrough u (tOp 3 1 2 2) 1) := by
  refine ⟨dispatches (by decide), by decide, by decide, by decide, by decide, by decide, by decide, ⟨_, rfl, by decide, by decide, by decide, ?_⟩⟩
  unfold FallsThrough
  decide

/-- A partition without its first three positions, whose fourth carries cores 0 and 2; core 2 can run. -/
def tFold : State :=
  { (tUp.updPart 0 (fun x => { x with bad := 7 })).setCore 2 (tCore 0 0 0) with manifests := [tJob] }

/-- Freed storage that nothing holds with a bin of 63, and the folding above. -/
theorem witness_storage_and_folding :
    State.move? { tUp with freed := [⟨0, 0, 0, 0x1000, [7]⟩] } 7 = none ∧
    (mapGet [] ({ tUp with bins := [(binKey 0 0, List.replicate 63 (0 : Word))] } : State).bins (binKey 0 0)).length < 64 ∧
    Operates tFold ∧ carriedBy (tFold.part 0).working 3 = [0, 2] ∧
    [0, 2].find? (fun n => n != 0 && tFold.canRun (coreIdOf 0 ⟨n % 12, Nat.mod_lt _ (by decide)⟩)) = some 2 ∧
    (tFold.core 0).givesUp = true ∧ tFold.benchQuiet 0 = true ∧ (tFold.core 2).phase = .running ∧
    (tFold.core 2).kernel.isSome = true := by
  refine ⟨rfl, by decide, ⟨rfl, rfl⟩, by decide, by decide, by decide, by decide, by decide, by decide⟩

/-- An illegal instruction, one whose predicate holds 0, an undefined word, and a core that is idle. -/
theorem witness_illegal_predicated_stopped :
    instrForm (.add (tOp 3 1 2 1)) = some (tOp 3 1 2 1, plainForm (noImm (tOp 3 1 2 1))) ∧
    (tRun 0 0 0).illegal 0 (plainForm (noImm (tOp 3 1 2 1))) = true ∧ ((tRun 0 0 0).raise 0 exIllegal).misused = none ∧
    (tRun 0 0 0).illegal 0 (plainForm (noImm { tOp 3 1 2 0 with pe := true, pred := 7 })) = false ∧
    ((tRun 0 0 0).core 0).preg 7 = false ∧ FallsThrough (tRun 0 0 0) { tOp 3 1 2 0 with pe := true, pred := 7 } 1 ∧
    wordDefined 0x0A = false ∧ (tUp.core 191).phase ≠ .running := by
  refine ⟨rfl, by decide, by decide +kernel, by decide, by decide, rfl, by decide, by decide⟩

theorem witness_exceptions :
    ((tRun 0 0 0).core 0).kernel = some tSlot ∧ (tRun 0 0 0).manifest? 0 = some tJob ∧ tJob.phase.over = false := by decide

/-- The invariants hold of the reset state and of a powered one, and steps of both answer a next state. -/
theorem witness_invariants :
    SupplyInv State.reset ∧ SupplyInv tUp ∧ Memory.wf tUp = true ∧ (∃ t, step tUp = .next t) ∧
    (∃ t, exec .supplyFault tUp = .next t) ∧ tUp.pending = [] :=
  ⟨fun _ => rfl, fun h => absurd h (by decide), by decide, ⟨_, rfl⟩, ⟨_, rfl⟩, rfl⟩

/-! ## What meets the hypotheses of the statements about the start, the host's registers and the queues

The clauses of CommandsComplete are met by the states and operands of these witnesses, and of those after them, command by command. -/

/-- A start at a step on a path, with an image in slot A. -/
def tStart (step path : Nat) : State :=
  { tUp.setRegField R_FER_STATUS 27 24 step with
    flash := mapWrite 0 [] (slotBase 0 + 0x10) (leBytes 4 commitWord), start := { StartSt.reset with path := path } }

theorem witness_power :
    State.reset.powered = false ∧ State.reset.supplyBroken = false ∧ tUp.powered = true := ⟨rfl, rfl, rfl⟩

theorem witness_start_assay :
    Operates (tStart 2 0) ∧ (tStart 2 0).devState ≠ devFailed ∧ (tStart 2 0).startStep = 2 ∧ (tStart 2 0).start.rerun = false ∧
    (tStart 2 0).ecilamoOk true = true ∧ (tStart 2 0).operatorOk true = true := by
  refine ⟨⟨rfl, rfl⟩, by decide, by decide, rfl, by decide, by decide⟩

/-- The slot and the path that step 2 finds there. -/
theorem witness_start_slot :
    ((tStart 2 0).applyOperator true).pathOf 2 = pathNormal ∧
    ((tStart 2 0).applyOperator true).slotFull ((tStart 2 0).applyOperator true).start.normalSlot = true ∧
    ((((tStart 2 0).applyOperator true).setSlot 0).beginStep 2 pathNormal).slotFull 0 = true := by decide +kernel

theorem witness_start_steps :
    (tStart 3 0).startStep = 3 ∧ (tStart 3 0).start.path = pathNormal ∧ (tStart 4 0).startStep = 4 ∧ (tStart 5 0).startStep = 5 ∧
    (tStart 6 0).startStep = 6 ∧ (∀ p, ((tStart 6 0).part p).state ≠ .stranded) ∧ (tStart 7 2).startStep = 7 ∧
    (tStart 7 2).start.path = pathSkipped ∧ (tStart 7 1).start.path ≠ pathSkipped ∧ (tStart 8 0).startStep = 8 ∧
    (tStart 8 0).ferryDown = false ∧ (tStart 8 0).start.path ≠ pathSkipped := by
  refine ⟨by decide, rfl, by decide, by decide, by decide, by decide, by decide, rfl, by decide, by decide, rfl, by decide⟩

/-- A 32-bit and a 64-bit register, the upper half of the latter, an offset of no register, and a field within a write. -/
theorem witness_register_writes :
    (tUp.hostStores []).hostReaches 0x50010 = true ∧
    ((regAccess 0x50010 4).map (fun x => (x.1, ownRow x.2.1.base, arbOff x.1))) = some (0x50010, false, false) ∧
    ((regAccess 0x50018 8).map (fun x => (x.1, ownRow x.2.1.base, x.2.2))) = some (0x50018, false, (63, 0)) ∧
    ((regAccess 0x5001C 4).map (fun x => (x.1, x.2.2))) = some (0x50018, (63, 32)) ∧ regAccess 0x50008 4 = none ∧
    State.reset.hostReaches 0x50010 = false ∧ max 16 0 ≤ min 47 63 := by decide +kernel

theorem witness_counters_and_management_port :
    counterOf (.memCeRead 15 true) = some (R_MEM_CE_DR + 60) ∧ tUp.answers R_KEY_VIOLATIONS = true ∧
    (tUp.setRegField R_DEV_STATE 3 0 devStarting).answers R_KEY_VIOLATIONS = false ∧ tUp.answers R_ARB_DEAD = true ∧
    (tUp.setRegField R_ARB_SEL 8 0 0x180).regField R_ARB_SEL 8 0 ≤ 0x180 ∧ 2000000 ≤ ({ tUp with beat := 2000000 } : State).beat := by
  refine ⟨rfl, by decide, by decide, by decide, by decide, by decide⟩

/-- A queue with a ring of 16 entries at host address 0x1000. -/
def tQueue (head tail : Nat) : QueueSt := ⟨true, 0x1000, 4, 2, 0, head, tail, 0x2000, 4, 0, 0, [], []⟩

/-- Berth 47 in a state, with that queue as queue 15. -/
def tBerth (st : BerthState) (head tail : Nat) : State :=
  tUp.updBerth 47 (fun _ => { BerthSt.empty with
    state := st, context := 9, queues := (Vector.replicate 16 QueueSt.empty).set 15 (tQueue head tail) })

/-- Host memory with a context record at 0 whose queues are not valid. -/
def tContext : State := { tUp with host := mapWrite 0 [] 0 (leBytes 8 0x01010009) }

theorem witness_berths_and_doorbells :
    tUp.hostReaches R_BRT_REQ = true ∧ (0x802F0009 : Lane).getLsbD 31 = true ∧ bits (0x802F0009 : Lane).toNat 21 16 = 47 ∧
    bits (0x802F0009 : Lane).toNat 29 28 = 0 ∧ bits (0x902F0009 : Lane).toNat 29 28 = 1 ∧
    (tUp.setReg R_BRT_REQ 0x002F0009).regBit R_BRT_REQ_STATUS 31 = false ∧
    (tUp.berth 47).state = .empty ∧ (∀ i, (tUp.berth i).state = .empty ∨ (tUp.berth i).context.toNat ≠ 9) ∧ tUp.sharing = modeUnshared ∧
    (∃ x, tContext.contextRec (tContext.regField R_BRT_REQ_ADDR 51 6 * 64) 9 = some x) ∧
    ((tBerth .resident 0 1).berth 47).state = .resident ∧ ((tBerth .loading 0 0).berth 47).state = .loading ∧
    (∀ q, (((tBerth .loading 0 0).berth 47).queue q).held = []) ∧ (((tBerth .loading 0 0).berth 47).queue 15).valid = true ∧
    ((tBerth .unloading 0 0).berth 47).state = .unloading ∧ (tBerth .unloading 0 0).berthBusy 47 = false ∧
    (tBerth .unloading 0 0).instCmds = [] ∧ (tBerth .unloading 0 0).key.removal ≠ 1 ∧ tUp.hostReaches R_BRT_QREVOKE = true := by
  refine ⟨by decide, by decide, by decide, by decide, by decide, by decide, by decide, by decide, by decide, ⟨_, rfl⟩, by decide, by decide,
    by decide, by decide, by decide, by decide, rfl, by decide, by decide⟩

/-- A tail one ring beyond HEAD, and one beyond that; a sender that owns the berth, and one that does not. -/
theorem witness_doorbells :
    tUp.devUp = true ∧ tUp.sharing ≠ modeMediated ∧ (∀ i, DbSender.noPasid ≠ .function i) ∧
    (tBerth .resident 0 1).ownsBerth 47 (.pasid 0) = true ∧
    ((tBerth .resident 0 1).setRegField R_DEV_MODE 1 0 modeSlice).ownsBerth 47 (.pasid 5) = false ∧
    (tBerth .resident 0 1).qRevoked 47 15 = false ∧ (tBerth .resident 0 1).qFrozen 47 15 = false ∧
    ((tQueue 0 1).tail ≤ 16 ∧ 16 - (tQueue 0 1).head ≤ 2 ^ (tQueue 0 1).ringLog2) ∧
    ¬ ((tQueue 0 1).tail ≤ 17 ∧ 17 - (tQueue 0 1).head ≤ 2 ^ (tQueue 0 1).ringLog2) ∧ ¬ (tQueue 0 1).tail ≤ 0 := by
  refine ⟨by decide, by decide, by decide, by decide, by decide, by decide, by decide, by decide, by decide, by decide⟩

/-! ## What meets the hypotheses of the statements about manifests -/

/-- A version 2 entry with a code ticket for one rank and one kernel run, and flags. -/
def tEntry (code flags : Nat) : List Byte :=
  leBytes 1 2 ++ leBytes 1 flags ++ leBytes 2 0 ++ leBytes 4 code ++ leBytes 46 0 ++ leBytes 2 1 ++ leBytes 2 1 ++ leBytes 6 0

/-- Berth 47 with that entry in its ring, over a ledger at 0 whose entry 2 is a code object at 0x30000 held by the host. -/
def tFetch (code flags : Nat) : State :=
  { (tBerth .resident 0 1).setRegField R_LDG_BASE 4 0 4 with
    host := mapWrite 0 (mapWrite 0 [] 32 (leBytes 8 0x30000 ++ leBytes 8 0x1020009)) 0x1000 (tEntry code flags) }

/-- What a fetch of berth 47's queue 15 finds at its head. -/
def tFetched (s : State) : Manifest × Bool :=
  manifestV2 (Manifest.blank s.nextManifest 47 15 (s.berth 47).context) (s.ringEntries ((s.berth 47).queue 15) 0 1) []

theorem witness_fetch :
    (tFetch 2 0).mayFetch 47 15 = true ∧ entryConts 2 ((tFetch 2 0).ringEntries ((tBerth .resident 0 1).berth 47 |>.queue 15) 0 1) = 0 ∧
    (tFetched (tFetch 2 0)).2 = true ∧ ((tFetch 2 0).bindManifest (tFetched (tFetch 2 0)).1).2.isSome = true ∧
    (tFetched (tFetch 2 0x80)).2 = false ∧ (tFetched (tFetch 3 0)).2 = true ∧
    ((tFetch 3 0).bindManifest (tFetched (tFetch 3 0)).1).2 = none := by decide +kernel

/-- A manifest that waits for the event that holds 5, or for none. -/
def tWaits (event : Lane) (v : Word) : Manifest := { tJob with waitEvent := event, waitValue := v, phase := .waitEvent }

theorem witness_event_waits :
    { tEvents 5 0 .running with manifests := [tWaits 1 5] }.manifest? 0 = some (tWaits 1 5) ∧ (tWaits 0 5).waitEvent = 0 ∧
    (tWaits 1 5).waitValue ≤ 5 ∧ ¬ (tWaits 1 6).waitValue ≤ 5 := by decide

/-- A context 9 with a fence of it, and a run of its translations cached. -/
def tFences : State :=
  { (tBerth .resident 0 0).setReg R_XLT_FENCE_CTX 0x80000009 with
    fences := [⟨9, 1, 1⟩], cache := [⟨none, 9, 0, 16, 1, 0, 0⟩] }

theorem witness_ledger_and_fences :
    tFences.hostReaches R_XLT_FENCE_GO = true ∧ tFences.hostReaches R_LDG_ABANDON = true ∧ ((tEvents 5 0 .running).eventEntry 1).isSome = true ∧
    (tFetch 2 0).eventEntry 2 = none ∧ ((tFences.reg R_XLT_FENCE_CTX).setWidth 16 : BitVec 16) ≠ 0 ∧ tFences.fences.length < 16 ∧
    16 ≤ { tFences with fences := List.replicate 16 ⟨9, 1, 1⟩ }.fences.length ∧ tFences.fenceWork ⟨9, 1, 1⟩ = false ∧
    { tFences with manifests := [{ tJob with context := 9, runRec := some ⟨1, [], 0, 0, 6, [], [], 0⟩ }] }.fenceWork ⟨9, 1, 1⟩ = true ∧
    (tFences.berth 47).context = 9 ∧ (tFences.berth 46).state = .empty := by decide +kernel

/-- Virtual device 1 in slot 0 with rank 0 on partition 0. -/
def tVdev : VDev := ⟨1, some 0, 1, [⟨0, some (0, 0), false, .active⟩], [0], false, none, 0, []⟩

/-- Host memory: tables that map the first 4 GiB of context 9 onto themselves, a ledger whose entry 2 is a code object at
0x30000, and that object: one kernel of eight words, and version 2. -/
def tHost : List (Nat × Byte) :=
  mapWrite 0 (mapWrite 0 (mapWrite 0 (mapWrite 0 [] 32 (leBytes 8 0x30000 ++ leBytes 8 0x1020009)) 0x10000
    (leBytes 8 0x301 ++ leBytes 8 0x20000)) 0x20000 (leBytes 8 0x37F)) 0x30000
    (leBytes 4 codeMagic ++ leBytes 2 2 ++ leBytes 2 0 ++ leBytes 4 1024 ++ leBytes 2 1 ++ leBytes 2 0 ++ leBytes 4 64 ++ leBytes 4 128 ++
     leBytes 4 256 ++ leBytes 4 64 ++ leBytes 32 0 ++ leBytes 4 0 ++ leBytes 2 8 ++ leBytes 2 0xFFF)

/-- The object there, as admission reads it. -/
def tObj : CodeObj := ⟨2, 0, 256, 0, 0x30000, [⟨0, 8, 0xFFF, some ⟨0, 0, 0, 0, 0, 0, 0, 0, 0, 0⟩⟩]⟩

/-- A manifest of context 9 for that object in a phase, on a device that is its slot's virtual device. -/
def tManifest (ranks : Nat) (phase : MPhase) : Manifest :=
  { tJob with context := 9, berth := 47, queue := 15, code := 2, rankCount := ranks, phase := phase, ranks := [], vdev := 1, obj := none }

def tAdmit (m : Manifest) : State :=
  { ((((tBerth .resident 0 0).setRegField R_LDG_BASE 4 0 4).setReg R_XLT_CTRL 0).updPart 0 (fun x => { x with state := .active })).updBerth 47 (fun x => { x with ptRoot := 0x10003 }) with
    host := tHost, vdevs := [tVdev], manifests := [m], cores := Vector.replicate 192 { CoreSt.reset with phase := .waiting .kernelEnd } }

/-- One rank is there; of two, one is missing. -/
theorem witness_admission :
    (tAdmit (tManifest 1 .admissible)).slotVdev 0 = some tVdev ∧
    ((tAdmit (tManifest 1 .admissible)).readCode (tManifest 1 .admissible)).2 = .obj tObj ∧
    (((tAdmit (tManifest 1 .admissible)).readCode (tManifest 1 .admissible)).1.admissionTurn (tManifest 1 .admissible)).cause
      (tManifest 1 .admissible) (.obj tObj) none (some tVdev) = 0 ∧
    (((tAdmit (tManifest 2 .admissible)).readCode (tManifest 2 .admissible)).1.admissionTurn (tManifest 2 .admissible)).cause
      (tManifest 2 .admissible) (.obj tObj) none (some tVdev) = rsRank ∧
    State.waitsForHost (tManifest 1 .admissible) tVdev = false ∧ (tManifest 1 .admissible).trailersDone = true ∧
    (tAdmit (tManifest 1 .admissible)).admissible.all (fun x => decide (0 ≤ x.readyAt)) = true := by decide +kernel

/-- An admitted manifest whose rank 0 may run its kernel. -/
def tIssue : Manifest := { tManifest 1 .admitted with obj := some tObj, ranks := [⟨0, 0, false, false, 0, false, 0⟩] }

theorem witness_kernel_issue :
    (tAdmit tIssue).issues 0 = true ∧
    (tAdmit tIssue).pickKernel 0 = some ⟨tIssue, ⟨0, 0, false, false, 0, false, 0⟩, ⟨0, 8, 0xFFF, some ⟨0, 0, 0, 0, 0, 0, 0, 0, 0, 0⟩⟩, tObj⟩ ∧
    ((tAdmit tIssue).readVirt (some 0) tIssue (0x30000 + 256 + 8 * 0) (8 * 8) true).2 = .ok (List.replicate 64 0) ∧
    ((tAdmit tIssue).core 11).phase = .waiting .kernelEnd ∧ Nat.testBit 0xFFF (coreNum 11) = true := by decide +kernel

/-- A running manifest whose run has ended: its step record of one token lies in cluster store 0, its ring in host memory. -/
def tRunRec : RunRec := ⟨4, [7], 0, 0, 6, [⟨.host 0x40000, 272⟩], [⟨.host 0x50000, 0x440⟩], 0⟩
def tEnded (phase : MPhase) : Manifest :=
  { tManifest 1 phase with running := true, obj := some tObj, runRec := some tRunRec, ranks := [⟨0, 0, false, false, 1, false, 0⟩] }
def tRuns (m : Manifest) (produced : Nat) : State :=
  { tAdmit m with host := mapWrite 0 (mapWrite 0 tHost 0x40000 (leBytes 4 1)) 0x50000 (leBytes 8 produced) }

theorem witness_runs :
    (tRuns (tEnded .running) 0).manifest? 0 = some (tEnded .running) ∧ (tRuns (tEnded .running) 0).stepTrouble tRunRec false = none ∧
    ((tRuns (tEnded .running) 0).readStep tRunRec).2 = .ok (leBytes 4 1 ++ List.replicate 268 0) ∧ (tEnded .running).leadersDone = true ∧
    (tEnded .running).trailersDone = true ∧ natAt (leBytes 4 1 ++ List.replicate 268 0) 0 4 = 1 ∧
    (tEnded (.runEnd 1 false [])).phase = .runEnd 1 false [] ∧ (tEnded .running).nodeliver = false ∧
    2 ^ 6 - 1 < (tRuns (tEnded .running) 64).ringCount tRunRec 0 - (tRuns (tEnded .running) 64).ringCount tRunRec 8 := by decide +kernel

theorem witness_manifests_end :
    (tAdmit (tManifest 1 (.ending stOk 0))).signalWaits (tManifest 1 (.ending stOk 0)) stOk = false ∧
    ((tAdmit (tManifest 1 .recorded)).berth 47 |>.queue 15).cringFull = false ∧
    ((tAdmit (tManifest 1 .recorded)).berth 47 |>.queue 15).waiting = [] ∧
    (((tAdmit (tManifest 1 (.ending stOk 0))).updQueue 47 15 (fun x => { x with waiting := [0] })).berth 47 |>.queue 15).waiting ≠ [] ∧
    (tManifest 1 .recorded).trailersDone = true ∧ (tManifest 1 .abandoned).heldLines = [] ∧ (tManifest 1 .abandoned).runRec = none := by
  decide +kernel

/-- A partition whose shadows are one slot of berth 47, with the timetable off, or on since beat 64. -/
def tTable (on : Bool) (pending : Option Timetable) : State :=
  { (({ tUp with beat := 100 }.setShad (R_TTB_COUNT + ttBase 15) 1).setShad (R_TTB_SLOT + ttBase 15) 0x2F000000).updPart 15
      (fun x => { x with timetable := ⟨on, 64, [⟨none, 1⟩]⟩, ttPending := pending, ttPendingAt := 100 }) with beat := 100 }

theorem witness_timetables :
    tUp.hostReaches (R_TTB_COMMIT + ttBase 15) = true ∧ (tTable true none).ttShadow 15 = some ⟨false, 0, [⟨some 47, 1⟩]⟩ ∧
    ((tUp.setShad (R_TTB_COUNT + ttBase 15) 0).ttShadow 15 = none) ∧ ((tTable true none).part 15).ttPending = none ∧
    ((tTable true (some ⟨false, 0, [⟨some 47, 1⟩]⟩)).part 15).ttPendingAt ≤ 100 ∧
    (tTable true none).retest 15 ⟨false, 0, [⟨some 47, 1⟩]⟩ = true ∧ ((tTable true none).part 15).timetable.anchor ≤ (tTable true none).beat ∧
    ((tTable false none).part 15).timetable.enable = false := by decide +kernel

/-- A core-bench instance of partition 15 with a request present and one of no requester, a counter at LIMIT, 64 turns, and
a grant. -/
theorem witness_turns :
    (arbOwner 0xF0).all (fun p => (tUp.part p).state != .stranded) = true ∧
    (([16, 17].filter (fun r => decide (r < tUp.arbN 0xF0))).eraseDups = [16]) ∧ 16 < tUp.arbN 0xF0 ∧
    ((tUp.setArb 0xF0 { ArbSt.reset with granted := some 3 }).arb 0xF0).granted = some 3 ∧
    ({ ArbSt.reset with active := ⟨2, [(0, true, 16)], []⟩ }).slotOwner = some 16 ∧ tUp.regField R_ARB_SEL 8 0 ≤ 0x180 ∧
    arbCommitOk 0 17 ArbSet.reset = true ∧ arbCommitOk 0 17 ⟨0, [], []⟩ = false := by decide +kernel

/-! ## What meets the hypotheses of the statements about faults, reset and the links -/

/-- Partition 15 resetting at a step, with position 14 pending. -/
def tReset (step : Nat) : State :=
  ({ (tUp.setRegField (State.resetStatus 15) 3 0 step) with beat := 20000000 }).updPart 15
    (fun x => { x with state := .resetting, pendingRetire := 0x4000 })

theorem witness_scrub :
    tUp.devUp = true ∧ (tUp.part 15).state ≠ .resetting ∧ (tUp.part 15).state ≠ .stranded ∧
    (tUp.setRegField R_MEM_SCRUB_CS 15 0 1).regField R_MEM_SCRUB_CS 15 0 ≠ 0 ∧
    ((tUp.updPart 15 (fun x => { x with scrubCs := { x.scrubCs with queued := [0] } })).part 15).scrubCs.queued = [0] ∧
    (tUp.part 15).scrubCs.queued = [] ∧ (tUp.part 15).scrubCs.next + 1 < scrubLines false ∧
    (∀ x, addrKind (15 * storeBytes) = .data x → mapGet .unwritten tUp.lineKeys (15 * storeBytes) ≠ .unwritten) ∧
    rsDecode [(0, 1), (1, 1), (2, 1)] = .uncorrectable ∧ rsDecode [(0, 1), (71, 3)] = .corrected [] ∧
    ({ tUp with ueList := tUp.ueList.set 15 (some (0, false)) }.ueList)[15] = some (0, false) ∧
    tUp.hostReaches R_MEM_UE_CLEAR = true := by
  refine ⟨by decide, by decide, by decide, by decide, by decide, by decide, by decide, ?_, by decide +kernel, by decide +kernel,
    by decide, by decide⟩
  intro x h
  cases h

theorem witness_fault_records :
    tUp.hostReaches R_FLT_RING = true ∧ (∃ b, ((tBerth .resident 0 1).berth b).state ≠ .empty) ∧ (∀ b, (tUp.berth b).state = .empty) ∧
    tUp.hostReaches R_FLT_OVF_CLEAR = true ∧ (∀ k, k < 16 → tUp.reg (R_FLT_OVF_COUNT + 4 * k) = 0) ∧
    (tUp.setReg (R_FLT_OVF_COUNT + 4 * 15) 1).reg (R_FLT_OVF_COUNT + 4 * 15) ≠ 0 ∧ tUp.ferryDown = false ∧
    ((tUp.updPart 15 (fun x => { x with unlisted := 0x4000 })).part 15).unlisted ≠ 0 := by
  refine ⟨by decide, ⟨47, by decide⟩, by decide, by decide, by decide, by decide, rfl, by decide⟩

theorem witness_partition_reset :
    tUp.hostReaches R_FLT_RESET = true ∧ (∀ c : PartId, (0x80008000 : Lane).getLsbD c.val = true ↔ c = 15) ∧
    ((tReset 2).part 15).state = .resetting ∧ (tUp.part 15).state ≠ .resetting ∧ (tReset 2).resetStep 15 = 2 ∧
    (tReset 2).usedFallback 15 = false ∧ (tReset 2).halfState 15 ≠ .resetting ∧ (tReset 2).halfState 15 ≠ .stranded ∧
    ((tReset 2).reg (R_FLT_RESET_BEAT + 8 * 15)).toNat + 100000 ≤ (tReset 2).beat ∧
    (((tReset 2).setRegField (State.resetStatus 15) 6 6 1).usedFallback 15 = true) ∧
    (tReset 3).resetStep 15 = 3 ∧ (tReset 4).resetStep 15 = 4 ∧ ((tReset 2).part 15).dramReady = false ∧
    (tReset 6).resetStep 15 = 6 ∧ channelPart 31 = 15 ∧ ((tReset 6).reg (R_FLT_RESET_BEAT + 8 * 15)).toNat + 10000000 ≤ (tReset 6).beat := by
  decide +kernel

/-- Landing 5, port 0 enabled in mode 0, its interface up, peer 9 behind it under association 0, and the fabric secret. -/
def tLink : State :=
  { ((((tUp.setRegField R_ROS_STATUS 15 0 5).setRegField R_ROS_STATUS 31 31 1).setRegField (portCtrl 0) 0 0 1).setRegField (portStatus 0) 15 8 1) with
    routes := [(9, some ⟨0, 0, 1⟩)], peers := [{ Peer.fresh 9 0x0200 0 0 with assoc := some Assoc.fresh, live := true }]
    key := { tUp.key with fabric := some [] } }

/-- The same port while it trains. -/
def tTrains : State := (tLink.setRegField (portStatus 0) 15 8 0).setRegField (portStatus 0) 0 0 1

theorem witness_ports :
    tUp.hostReaches (portCtrl 3) = true ∧ bitAt (tUp.reg (portCtrl 3)).toNat 0 ≠ (1 : Lane).getLsbD 0 ∧
    portIgnored (tUp.reg (portCtrl 3)).toNat 1 = false ∧ bitAt (tLink.reg (portCtrl 0)).toNat 0 ≠ (0 : Lane).getLsbD 0 ∧
    portIgnored (tLink.reg (portCtrl 0)).toNat 0 = false ∧ tTrains.portTraining 0 = true ∧
    (tTrains.setRegField (portStatus 0) 31 31 1).laserOk 0 = true ∧ 0 < tTrains.portIfs 0 ∧ tTrains.ifFailed 0 0 = false ∧
    tTrains.ifUp 0 0 = false ∧ tTrains.ifUp 0 (7 / tTrains.lanesPer 0) = false ∧ (1599 : BitVec 16).toInt < 1600 ∧
    ((tLink.setRegField (portStatus 0) 31 31 1).showLaser 0 1599).laserOk 0 = true ∧ 1650 ≤ (1650 : BitVec 16).toInt ∧
    (tLink.showLaser 0 1650).portEnabled 0 = true ∧ (tLink.showLaser 0 1650).laserOk 0 = false := by decide +kernel

/-- A frame to device 9, one to a device of no route, and addresses of the interface and of no interface. -/
theorem witness_forwarding :
    tLink.ifUp 0 0 = true ∧ (9 : Landing) ≠ tLink.landing ∧ (9 : Landing) ≠ broadcast ∧ tLink.egress? 9 = some (0, 0) ∧
    tLink.egress? 10 = none ∧ tLink.ip6 0 0 ≠ tLink.ip6 0 0 + 1 ∧ tLink.regBit R_LNK_TIME 7 = false ∧
    mapGet none tLink.routes 9 = some ⟨0, 0, 1⟩ := by decide +kernel

/-- A frame on interface 0 of port 0 to its address, in the encapsulation of the port, with three codewords corrected. -/
def tArr : Arrival := ⟨⟨0, 0⟩, ⟨3, 0, .raw 0x88B5⟩⟩

/-- A frame of peer 9 under its association. -/
def tRx (ok : Bool) (pn : Word) (an : Fin 4) : Rx := ⟨tArr, 9, 0, false, false, an, pn, ok⟩

/-- The link with a peer as given. -/
def tPeer (f : Peer → Peer) : State := tLink.updPeer 9 f

/-- A frame of sequence number 3 sent, and sent for the eighth time. -/
def tSent (retries : Nat) : Peer → Peer := fun p =>
  { p with txUnacked := [⟨3, ⟨0x10, 16, 0, 9, 5, 3, []⟩, true, 0, retries, none⟩], rxUnacked := 1 }

theorem witness_accepting :
    ((tLink.peer? 9).bind (·.assoc)) = some Assoc.fresh ∧ tLink.discState ≠ discDuplicate ∧ Assoc.fresh.win.fresh 1 = true ∧
    (Assoc.fresh.win.take 1).fresh 1 = false ∧ ((tPeer (fun p => { p with frozen := true })).peer? 9).any (·.frozen) = true ∧
    tTrains.ifUp 0 0 = false ∧ (tLink.accept (tRx true 1 0) tySack).2 = true ∧ (tLink.accept (tRx false 1 0) tySack).2 = false := by
  decide +kernel

theorem witness_transport :
    ((tPeer (tSent 8)).peer? 9).any (fun p => decide (0 < p.rxUnacked) && (p.txUnacked.find? (fun t => t.sent && t.seq == 3)).any
      (fun f => decide (8 ≤ f.retries) && decide (f.sentAt + (2 * (tPeer (tSent 8)).delayTo 9 + 5000) ≤ { tPeer (tSent 8) with beat := 5000 }.beat)) &&
      p.canTx) = true ∧
    ((tPeer (tSent 7)).peer? 9).any (fun p => (p.txUnacked.find? (fun t => t.sent && t.seq == 3)).any
      (fun f => decide (f.retries < 8))) = true := by decide +kernel

/-- An advance pending with peers. -/
def tAdvance (ls : List Landing) (auto : Bool) : State := { tLink with saPending := some ⟨false, auto, 0, 0, ls⟩ }

theorem witness_key_advances :
    tLink.hostReaches R_LNK_SA_ADVANCE = true ∧ (0xC0000009 : Lane).getLsbD 31 = true ∧ (0xC0000009 : Lane).getLsbD 30 = true ∧
    (0x80000009 : Lane).getLsbD 30 = false ∧ tLink.saPending = none ∧ (tAdvance [9] false).saPending = some ⟨false, false, 0, 0, [9]⟩ ∧
    ((tLink.peer? 9).bind (·.assoc)).isSome = true ∧
    ((tPeer (fun p => { p with usedCounters := [(0, 0xC0000000)] })).peer? 9).any (fun p => decide (0xC0000000 ≤ p.pnUsed)) = true ∧
    ([9, 8] : List Landing).filter (· != 8) ≠ [] ∧ ([9, 8] : List Landing).contains 8 = true ∧ ([9] : List Landing).filter (· != 9) = [] := by
  decide +kernel

/-- A device that counts off or claims its number, with port 0 up. -/
def tDisc (st : Nat) (d : DiscoverySt) : State :=
  { ((tLink.setRegField R_ROS_STATUS 15 0 0).setRegField R_ROS_DISC 18 16 st).setReg R_LNK_MAC_BASE 0x300 with discovery := d, beat := 100000000 }

theorem witness_discovery :
    (tDisc discCounting ⟨0, 0, 0, some 0, [], []⟩).landing = 0 ∧ (tDisc discCounting ⟨0, 0, 0, some 0, [], []⟩).discState = discCounting ∧
    usable 1 = true ∧ usable 0xFFFE = true ∧
    ((tDisc discClaiming ⟨7, 3, 0, none, [], []⟩).seenBefore tyClaim 7 0x200).2 = false ∧
    ((tDisc discClaiming ⟨7, 3, 0, none, [], []⟩).seenBefore tyDefend 7 0x200).2 = false ∧
    ((tDisc discClaiming ⟨7, 3, 0, none, [], []⟩).seenBefore tyClaim 7 0x200).1.discState = discClaiming ∧ (0x200 : BitVec 48).toNat < 0x300 ∧
    (tLink.seenBefore tyClaim 5 0x200).2 = false ∧ (tLink.seenBefore tyDefend 5 0x200).2 = false ∧
    (tLink.seenBefore tyClaim 5 0x200).1.landing = 5 ∧
    (tDisc discClaiming ⟨7, 2, 99800000, none, [], []⟩).discovery.lastClaim + 200000 ≤ 100000000 ∧
    (tDisc discClaiming ⟨7, 3, 98000000, none, [], []⟩).discovery.lastClaim + 2000000 ≤ 100000000 ∧
    tLink.hostReaches R_ROS_CMD = true ∧ tLink.parts.toList.any (fun p => p.slot.isSome) = false ∧
    (tLink.updPart 0 (fun x => { x with slot := some 0 })).parts.toList.any (fun p => p.slot.isSome) = true := by decide +kernel

/-- Device 10 of a virtual device whose keeper is device 9. -/
def tUpper : VDev := ⟨1, some 0, 1, [⟨0, some (9, 0), false, .active⟩, ⟨1, some (10, 0), false, .active⟩], [9, 10], false, none, 0, []⟩

/-- Virtual device 1 of the devices 5 and 9, whose keeper is device 5. -/
def tShared : VDev := ⟨1, some 0, 1, [⟨0, some (5, 0), false, .active⟩, ⟨1, some (9, 0), false, .active⟩], [5, 9], false, none, 0, []⟩
def tKeeper : State := { tLink.updPart 0 (fun x => { x with state := .active, slot := some 0 }) with vdevs := [tShared] }

theorem witness_hello :
    ((tLink.meet 9 0x200 0 0).accept (tRx true 1 0) tyHello).2 = true ∧ (tRx true 1 0).src ≠ tLink.landing ∧
    tLink.key.fabric.isSome = true ∧ tLink.helloTargets = [9] ∧ (tLink.peer? 9).isSome = true ∧
    (tKeeper.vdevs.find? (fun v => v.slot == some 0)) = some tShared ∧ tKeeper.isKeeper tShared = true := by decide +kernel

/-! ## What meets the hypotheses of the statements about the fabric, the host, power, keys and the mailbox -/

/-- A frame's extension at an address of this device's partition 0. -/
def tExt (op : BitVec 6) (len : Lane) : DataExt := ⟨0x1000, 0, op, 7, 0, 0, 0, len⟩

/-- A movement that reads 64 bytes of device 9 into its bench and has 64 bytes written there outstanding. -/
def tReads : Movement :=
  ⟨7, 0, 0, 0, 9, 0, ⟨0, 0, 0, 0, 0⟩, false, .remote, none, none, [], [], [(9, 0x1000, 64, .bench 0 0)], [(9, 64)], [], [], [], none, none, none, 0, 0, 0⟩
def tData : State := { tKeeper with moves := [tReads], manifests := [{ tJob with vdev := 1, tag := 3 }], nextMove := 8 }

theorem witness_data_frames :
    tData.key.tenant ≠ .removing ∧ (tRx true 1 0).lastOff = false ∧ dataLenOk 64 = true ∧
    tData.notTaken (tRx true 1 0) (tExt 0 64) 64 true = false ∧ (tData.acceptSeq (tRx true 1 0) tyWrite).2 = true ∧
    ((tData.acceptSeq (tRx true 1 0) tyWrite).1).frameTrouble (tExt 0 64) 64 true = none ∧
    (((tData.acceptSeq (tRx true 1 0) tyWrite).1).placeWrite (.dev 0x1000 0) (List.replicate 64 1)).2 = none ∧
    (((tData.acceptSeq (tRx true 1 0) tyAtomic).1).wordAdd (.dev 0x1000 0) 5).2 = none ∧
    (((tData.acceptSeq (tRx true 1 0) tyRead).1).placeRead (.dev 0x1000 0) 64).2 = .inl (List.replicate 64 0) ∧
    ((tData.acceptSeq (tRx true 1 0) tyRdata).1).move? 7 = some tReads ∧
    tReads.readsOut.find? (fun r => r.1 == 9 && decide (r.2.1 ≤ 0x1000) && decide (0x1000 + 64 ≤ r.2.1 + r.2.2.1)) =
      some (9, 0x1000, 64, .bench 0 0) ∧
    ((tData.acceptSeq (tRx true 1 0) tyRdata).1).trouble (.bench 0 0) 64 true = none ∧
    (((tData.acceptSeq (tRx true 1 0) tyRdata).1).deliver tReads (.bench 0 0) (List.replicate 64 1) 0).2 = none ∧ (64 : Lane) ≠ 0 ∧
    (((tData.acceptSeq (tRx true 1 0) tyPartner).1).manifests.find? (fun m => m.vdev == 1 && m.tag == 3 && !m.phase.over)).isSome = true := by
  decide +kernel

/-- A record of an operation on rank 1 at device 9, the change of it under way at the keeper, and one that fits no rule. -/
def tRecord (op : Nat) (epoch : Lane) (result : Byte) : CompRecord := ⟨BitVec.ofNat 8 op, 0, 9, 0, 1, 1, 0, epoch, result, 0⟩
def tChange (op : Nat) (votes : List Landing) (consulting failed : Bool) : CompChange := ⟨tRecord op 2 0, 5, 0, true, votes, consulting, failed⟩
def tComp (op : Nat) (votes : List Landing) (consulting failed : Bool) : State := { tKeeper with comps := [tChange op votes consulting failed] }

/-- A request of an operation that waits since beat 0, at beat 1. -/
def tWaiting (op : Nat) : CompChange := ⟨tRecord op 2 0, 5, 0, false, [], false, false⟩
def tAsked (op : Nat) : State := { tKeeper with comps := [tWaiting op], beat := 1 }

/-- The change of an operation that is under way. -/
def underWay (s : State) (op : Nat) : Option CompChange :=
  s.comps.find? (fun c => c.record.vdev == 1 && c.takenUp && c.record.op == BitVec.ofNat 8 op)

theorem witness_composition :
    [opJoin, opActivate, opRehost, opLeave, opDissolve].all (fun op => decide (underWay (tComp op [] false false) op = some (tChange op [] false false))) = true ∧
    tKeeper.deferred3 = false ∧ (tKeeper.setRegField R_FER_STATUS 21 21 1).deferred3 = true ∧
    (tChange opJoin [] false true).failed = true ∧ (tChange opJoin [9] true false).consulting = true ∧
    (tChange opJoin [9] false false).votesOut ≠ [] ∧
    [opJoin, opActivate, opRehost, opLeave, opDissolve].all (fun op => decide (underWay (tAsked op) op = none) &&
      decide ((tAsked op).nextRequest 1 = some (tWaiting op)) && decide ((tWaiting op).record.op = BitVec.ofNat 8 op)) = true ∧
    tKeeper.nextRequest 1 = none ∧ (tKeeper.acceptSeq (tRx true 1 0) tyPropose).1.vdev? 2 = none ∧
    (tKeeper.acceptSeq (tRx true 1 0) tyPropose).1.joinRefusal true { tRecord opJoin 2 0 with landing := 5, vdev := 2 } = some coNotFree ∧
    (tKeeper.acceptSeq (tRx true 1 0) tyRequest).1.isKeeper tShared = true ∧
    ({ tKeeper.setRegField R_ROS_STATUS 15 0 10 with vdevs := [tUpper] } : State).isKeeper tUpper = false ∧ (tKeeper.acceptSeq (tRx true 1 0) tyRequest).2 = true ∧
    ((tKeeper.acceptSeq (tRx true 1 0) tyRequest).1).vdev? 1 = some tShared ∧ epochNewer tShared.epoch 2 = false ∧
    (((tKeeper.acceptSeq (tRx true 1 0) tyPropose).1).compRefusal (some tShared) (tRecord opLeave 2 0)) = none ∧
    (((tKeeper.acceptSeq (tRx true 1 0) tyPropose).1).compRefusal (some tShared) (tRecord 6 2 0)) = some coLimit ∧
    [false, true].all (fun consulting => (((tComp opLeave [9] consulting false).acceptSeq (tRx true 1 0) tyVote).1.comps.find? (fun c =>
      c.takenUp && c.record.vdev == 1 && c.record.epoch == 2 && (c.votesOut.contains 9 || (0 : Byte) != 0))).isSome) = true ∧
    epochNewer 2 tShared.epoch = true ∧ tShared.lastCommit = none ∧ tShared.syncOut.contains 9 = false := by decide +kernel

theorem witness_dead_peers :
    (tLink.peer? 9).any (·.live) = true ∧ (tLink.peer? 9).any (fun (p : Peer) => decide (tLink.beat < p.lastHeard + tLink.deadBeats + tLink.delayTo 9)) = true ∧
    ({ tLink with beat := 1000000000 }.peer? 9).any (fun (p : Peer) => decide (p.lastHeard + { tLink with beat := 1000000000 }.deadBeats + { tLink with beat := 1000000000 }.delayTo 9 ≤ 1000000000)) = true ∧
    ({ tUp with lost := tUp.lost.set 63 (some (15, 0xFFFFF)) }.lost)[63] = some (15, 0xFFFFF) ∧ bits (0x3F : Lane).toNat 5 0 = 63 ∧
    (0x3F : Lane).getLsbD 7 = false := by decide +kernel

/-- A handoff of one page: device 9 its holder and device 5 the taker, or the other way about. -/
def tHandoff (holder taker : Landing) (landing : Landing) : HandoffRecord :=
  ⟨4, holder, taker, 0, 1, 0, 0, 1, 1, [(⟨holder, 0x1000⟩, ⟨landing, 0x1000⟩)], 64, []⟩
def tTaken (st : HoState) : State := { tKeeper with handoffsTaken := [⟨tHandoff 9 5 5, st, 0, false, false, 0, 0⟩] }
def tHeld (st : HoState) : State := { tKeeper with handoffsHeld := [⟨tHandoff 5 9 9, st, 0, false, false, 0, 0⟩] }

theorem witness_handoffs :
    ((tKeeper.acceptSeq (tRx true 1 0) tyOffer).2) = true ∧ ((tKeeper.acceptSeq (tRx true 1 0) tyOffer).1).hoOutcome? 4 9 = none ∧
    ((tKeeper.acceptSeq (tRx true 1 0) tyOffer).1).epochOld (tHandoff 9 5 5) = false ∧
    (tHandoff 9 5 5).pairs.all (fun p => tKeeper.destOk p.2) = true ∧ (tHandoff 9 5 6).pairs.all (fun p => tKeeper.destOk p.2) = false ∧
    (9 : Landing) ≠ tKeeper.landing ∧ ((tTaken .copying).takenBy? 4 9).any (fun h => h.state == .copying && !h.record.pairs.isEmpty) = true ∧
    ((tTaken .copying).copyPairs (tHandoff 9 5 5)).2 = none ∧
    (((tHeld .offered).acceptSeq (tRx true 1 0) tyTake).1.heldBy? 4).any (fun h => h.state == .offered && h.record.taker == 9) = true ∧
    (((tTaken .taking).acceptSeq (tRx true 1 0) tyAck).1.takenBy? 4 9).any (fun h => h.state == .taking && h.record.holder == 9) = true ∧
    (((tHeld .handed).acceptSeq (tRx true 1 0) tyDone).1.heldBy? 4).any (fun h => h.state == .handed && h.record.taker == 9) = true ∧
    ((tHeld .offered).heldBy? 4).any (fun h => !h.copied && decide (h.timer ≤ 0)) = true ∧
    ((tHeld .disputed).heldBy? 4).any (fun h => h.state == .disputed) = true := by decide +kernel

/-- A dispute kept at the keeper, decided or not. -/
def tDispute (decided : Option Bool) (applied : List Landing) : HoDispute := ⟨tHandoff 9 5 5, false, 0, decided, applied, []⟩

theorem witness_disputes :
    ((tKeeper.acceptSeq (tRx true 1 0) tyReport).1).hoKeeper (tHandoff 9 5 5) = some ((tKeeper.acceptSeq (tRx true 1 0) tyReport).1).landing ∧
    (tRx true 1 0).src = (tHandoff 9 5 5).holder ∧ ((tKeeper.acceptSeq (tRx true 1 0) tyDecide).1).dispute? 4 9 = none ∧
    (tHandoff 9 5 5).taker = ((tKeeper.acceptSeq (tRx true 1 0) tyDecide).1).landing ∧
    ({ tKeeper with hoDisputes := [tDispute none []] }.dispute? 4 9) = some (tDispute none []) ∧
    ([(9 : Landing), 5].filter tKeeper.isLive).all [(5 : Landing), 9].contains = true ∧
    ([(9 : Landing), 5].filter tKeeper.isLive).all ([] : List Landing).contains = false := by decide +kernel

/-- The host link down, with all four modules, three, and none working. -/
def tDown (bw : Nat) : State := { tUp with hostUp := false, linkBw := bw, beat := 100000000, hostDownAt := 0 }

theorem witness_host_link :
    (tDown 0).hostUp = false ∧ (tDown 0).linkMayTrain = true ∧ trainModules 15 ≠ [] ∧ trainModules 14 = [1, 2] ∧ (tDown 0).hostHeld = [] ∧
    (tDown 0).linkBw = 0 ∧ tUp.hostUp = true ∧ tUp.moves = [] ∧ (tDown 1024).linkBw ≠ 0 ∧ (tDown 1024).hostDownAt + 100000000 ≤ 100000000 ∧
    tUp.hostReaches R_HST_LINK_CTRL = true ∧ { tUp with irqDeferred := [63] }.irqDeferred.contains 63 = true ∧
    mapGet none tUp.irqLast 63 = none ∧ ((tDown 0).linkUp true (trainModules 14)).misused = none := by decide +kernel

/-- A squash or a drain of instance 5 under way, in mediated mode. -/
def tInst (squash : Bool) : InstCmd := ⟨5, squash, false, [], [], []⟩
def tMode (cs : List InstCmd) : State :=
  { ((tUp.setRegField R_DEV_MODE 1 0 modeMediated).setRegField (instReg 5) 63 63 1) with instCmds := cs }

theorem witness_instances :
    tUp.hostReaches R_DEV_MODE = true ∧ tUp.sharing = 0 ∧ tUp.modeIdle = true ∧ (tBerth .resident 0 0).modeIdle = false ∧
    tUp.hostReaches (instReg 63) = true ∧ tUp.hostReaches R_HST_INST_CMD = true ∧ (tMode []).instValid 5 = true ∧
    (tMode []).instValid 6 = false ∧ (tMode [tInst false]).instCmds = [tInst false] ∧ (tInst false).inst ≠ 6 ∧
    (tMode []).sharing = modeMediated ∧ { tMode [] with vfCount := 64 }.vfCount ≠ 0 ∧ (tMode []).vfCount = 0 ∧
    (tMode [tInst false]).instCmds.find? (fun c => c.inst == 5) = some (tInst false) ∧ (tMode [tInst false]).cmdReady (tInst false) = true ∧
    { tMode [tInst false] with fences := [⟨9, 0, 1⟩] }.cmdReady { tInst false with contexts := [9] } = false := by decide +kernel

/-- Device 9 as rack manager and loans allowed. -/
def tRack : State :=
  (((tKeeper.setRegField R_PWR_RACK 31 16 9).setRegField R_PWR_CTRL 0 0 1).setRegField R_PWR_SHIFT 15 0 1).setRegField R_PWR_GRANT 15 0 999

def tTen : State := { tRack.setRegField R_ROS_STATUS 15 0 10 with vdevs := [tUpper] }

theorem witness_grants :
    (tRack.acceptSeq (tRx true 1 0) tyGrant).2 = true ∧ rackLanding (tRack.acceptSeq (tRx true 1 0) tyGrant).1 = 9 ∧ rackLanding tRack ≠ 0 ∧
    (1000 : BitVec 16).toNat ≤ 1000 ∧ tRack.power.lastGrant + 1000 * tRack.regField R_PWR_RACK 15 0 ≤ { tRack with beat := 10000000000 }.beat ∧
    tRack.shiftEn = true ∧ tRack.vdevs = [tShared] ∧ tShared.slot = some 0 ∧
    tShared.members.any (fun m => !m.store && (match m.host with
      | some h => h.1 == tRack.landing
      | none => false)) = true ∧
    tRack.keeper tShared = some tRack.landing ∧ tTen.keeper tUpper = some 9 ∧ (9 : Landing) ≠ tTen.landing ∧
    ((tRack.acceptSeq (tRx true 1 0) tyGrant).1).vdev? 1 = some tShared ∧ ((tRack.acceptSeq (tRx true 1 0) tyGrant).1).isKeeper tShared = true ∧
    borrowedW (tRack.acceptSeq (tRx true 1 0) tyGrant).1 + 1 ≤ (tRack.acceptSeq (tRx true 1 0) tyGrant).1.regField R_PWR_SHIFT 15 0 ∧
    grantW tRack + borrowedW tRack + 1 - lentW tRack ≤ 1000 := by decide +kernel

theorem witness_rails :
    (0 : Nat) ≠ railStep { tUp.setRegField (dieReg 1) 20 16 3 with power := { tUp.power with settling := [(1, true)] } } 1 ∧
    mapGet false [(1, true)] 1 = true ∧ tUp.hostReaches R_PWR_COMMIT = true ∧ pwrCommitOk tUp = true ∧
    pwrCommitOk (tUp.setShad R_PWR_PART 25) = false ∧
    ((tUp.updPart 15 (fun x => { x with droopUntil := some 0 })).part 15).droopUntil = some 0 ∧ 105 < (111 : BitVec 8).toNat ∧
    (99 : BitVec 8).toNat < 100 ∧ mapGet false tUp.power.thermalDie 1 = false ∧ tUp.power.thermTrip = false := by decide +kernel

/-- The key store with arguments, a tenant, and the root closed. -/
def tKeys (tenant : TenantState) (a0 a1 a2 param : Word) (host : List (Nat × Byte)) : State :=
  { ((((tUp.setReg R_KEY_ARG0 a0).setReg (R_KEY_ARG0 + 8) a1).setReg (R_KEY_ARG0 + 16) a2).setReg R_KEY_CMD param) with
    host := host, key := { tUp.key with tenant := tenant, closed := some [], bundles := [⟨199, [], [], 16, 65536⟩] } }

/-- A tenant record at 0 of epoch 1, and a sealed blob at 0 of one byte. -/
def tTenant : List (Nat × Byte) := mapWrite 0 [] 0 (leBytes 4 0x544E4554 ++ leBytes 2 1 ++ leBytes 2 0 ++ leBytes 4 1)
def tBlob : List (Nat × Byte) := mapWrite 0 [] 0 (leBytes 4 0 ++ leBytes 4 1)

theorem witness_key_commands :
    tUp.hostReaches R_KEY_CMD = true ∧ tUp.keyBusy = false ∧ tUp.key.rootFailed = false ∧
    (tKeys .none 0 0 0 0 tTenant).tenantRecOk 0 = true ∧ ((tKeys .installed 0 0 1 199 []).bundle? 199).any (fun b => b.chunks == 1) = true ∧
    (tKeys .installed 0 0 1 199 []).bundleDest 0 65536 = true ∧ keyParam (tKeys .installed 0 0 0 255 []) % 256 ≠ 0 ∧
    bits (keyArg (tKeys .none 0 0 4096 0 []) 2) 12 0 = 4096 ∧ (tKeys .none 0 0 37 0 tBlob).hostNat 4 4 + 36 = 37 ∧
    (tKeys .none 0 0 37 0 tBlob).hostNat 0 4 = (tKeys .none 0 0 37 0 tBlob).key.sealGen ∧
    (tKeys .installed 0 0 0 255 []).openHandle = some 0 := by decide +kernel

theorem witness_debug_and_removal :
    tUp.hostReaches R_KEY_DEBUG = true ∧ (0x80000000 : Lane).getLsbD 29 = false ∧ tUp.key.tenant = .none ∧
    tUp.hostReaches R_KEY_THAW = true ∧ bits (0x80002F0F : Lane).toNat 13 8 = 47 ∧ bits (0x9000000B : Lane).toNat 30 28 = 1 ∧
    bits (0xA0000F0B : Lane).toNat 30 28 = 2 ∧ bits (0xB0000009 : Lane).toNat 30 28 = 3 ∧
    ((tPeer (fun p => { p with frozen := true })).peer? 9).any (·.frozen) = true ∧ (∀ p, (tUp.part p).state ≠ .resetting) := by
  decide +kernel

/-- A request block at 0x100 with an OP and one argument byte. -/
def tMail (op arg flags : Nat) : State :=
  { tUp.setReg R_FER_REQ_ADDR 0x100 with host := mapWrite 0 [] 0x100 (leBytes 2 op ++ leBytes 2 flags ++ leBytes 12 0 ++ leBytes 1 arg) }

theorem witness_mailbox :
    tUp.hostReaches R_FER_REQ = true ∧ (tMail 11 0 1).mailBlock = 0x100 ∧ (tMail 11 0 1).hostNat 0x100 2 = 11 ∧
    tUp.regBit R_FER_ACCEPT 31 = false ∧ tUp.devState ≠ devFailed ∧ tUp.regBit R_FER_STATUS 20 = false ∧ (mailRun 11).isSome = true ∧
    (tMail 11 0 1).blockOk 0x100 = true ∧ (tMail 11 0 2).blockOk 0x100 = false ∧
    (tMail 2 15 0).argsClear 0x100 [(0x10, 1), (0x11, 1)] = true ∧ (tMail 2 15 0).arg 0x100 0x10 1 = 15 ∧
    (tMail 4 7 0).argsClear 0x100 [(0x10, 1), (0x20, 32)] = true ∧ (tMail 4 7 0).arg 0x100 0x10 1 = 7 ∧ tUp.key.closed = none ∧
    (tMail 1 15 0).argsClear 0x100 [(0x10, 1), (0x18, 8), (0x20, 8)] = true ∧ hostAddrOk 0 64 = true ∧ hostAddrOk (2 ^ 52 - 64) 64 = true ∧
    (tMail 9 64 0).argsClear 0x100 [(0x10, 8)] = true := by decide +kernel

theorem witness_ferryman :
    tUp.hostReaches R_FER_RESTART = true ∧ tUp.devUp = true ∧ tUp.ferState = ferRunning ∧ tUp.ferryDown = false ∧
    (tUp.setRegField R_FER_STATUS 31 28 ferRestarting).ferState = ferRestarting ∧ (tUp.part 15).state ≠ .stranded := by decide +kernel

/-! ## A bundle whose device record names this device by its BIND key, which nothing can evaluate -/

theorem mapRead_eq {α : Type} (d : α) (m : SMap α) : ∀ (n a : Nat), mapRead d m a n = (List.range n).map (fun i => mapGet d m (a + i))
  | 0, _ => rfl
  | n + 1, a => by
    rw [mapRead, mapRead_eq d m n (a + 1), List.range_succ_eq_map]
    simp [Function.comp_def, Nat.add_comm, Nat.add_left_comm]

/-- The header and the serial number of the one device record. -/
def tBundle : List (Nat × Byte) :=
  mapWrite 0 [] 0 (leBytes 4 0x4C444E42 ++ leBytes 2 1 ++ leBytes 2 1 ++ leBytes 16 0 ++ leBytes 1 16)

/-- An opened tenant with that bundle at 0, with the digest in its device record. -/
def tOpens : State := tKeys .installed 0 0 0 255 (mapWrite 0 tBundle 72 (tKeys .installed 0 0 0 255 []).bindDigest)

theorem tOpens_get (j : Nat) : mapGet 0 tOpens.host j =
    if h : 72 ≤ j ∧ j - 72 < (tKeys .installed 0 0 0 255 []).bindDigest.length then
      (tKeys .installed 0 0 0 255 []).bindDigest[j - 72]'h.2 else mapGet 0 tBundle j :=
  mapGet_mapWrite j _ tBundle 72 (by decide)

theorem bindDigest_length (s : State) : s.bindDigest.length = 32 := by simp [State.bindDigest, Machine.hash, fitBytes]

/-- Outside the digest the bundle reads as written. -/
theorem tOpens_read (a n : Nat) (h : a + n ≤ 72 ∨ 104 ≤ a) : tOpens.hostRead a n = mapRead 0 tBundle a n := by
  simp only [State.hostRead, mapRead_eq]
  refine List.map_congr_left fun i hi => ?_
  rw [List.mem_range] at hi
  rw [tOpens_get, dif_neg]
  rw [bindDigest_length]
  omega

theorem tOpens_digest : tOpens.hostRead 72 32 = tOpens.bindDigest := by
  have e : tOpens.bindDigest = (tKeys .installed 0 0 0 255 []).bindDigest := rfl
  rw [e]
  simp only [State.hostRead, mapRead_eq]
  refine List.ext_getElem (by simp [bindDigest_length]) fun i h1 h2 => ?_
  rw [bindDigest_length] at h2
  rw [List.getElem_map, List.getElem_range, tOpens_get, dif_pos ⟨by omega, by rw [bindDigest_length]; omega⟩]
  congr 1
  omega

theorem witness_open_bundle :
    tOpens.bundleHeadOk 0 = true ∧ tOpens.deviceRec 0 = some 64 ∧ tOpens.hostZero (64 + 0x678) 8 = true ∧ tOpens.openHandle = some 0 := by
  have r (a n : Nat) (h : a + n ≤ 72 ∨ 104 ≤ a) : tOpens.hostNat a n = leNat (mapRead 0 tBundle a n) := by
    rw [State.hostNat, tOpens_read a n h]
  refine ⟨?_, ?_, ?_, by decide +kernel⟩
  · simp only [State.bundleHeadOk, State.hostZero]
    rw [r _ _ (by omega), r _ _ (by omega), r _ _ (by omega), r _ _ (by omega), tOpens_read _ _ (by omega), tOpens_read _ _ (by omega)]
    decide +kernel
  · have c : tOpens.hostNat 6 2 = 1 := by rw [r _ _ (by omega)]; decide +kernel
    have d : tOpens.hostNat 64 8 = 0 := by rw [r _ _ (by omega)]; decide +kernel
    have z : (tOpens.reg R_DEV_SERIAL).toNat = 0 := by decide +kernel
    simp only [State.deviceRec, c]
    simp [d, z, tOpens_digest]
  · rw [State.hostZero, tOpens_read _ _ (by omega)]
    decide +kernel

/-! ## The unit queue, folding, and commits that wait -/

/-- Core 0 with movements of its own in flight, none of them with anything left to do, or one with a row. -/
def tBusy (n : Nat) (rows : List (Place × Place)) : State :=
  { tRun 0x40 64 0x7FFC0 with moves := List.replicate n { tMove with rowsLeft := rows } }

/-- Core 0 with releases of scope 5 in its unit's queue. -/
def tQueued (n : Nat) : State := tWith { tCore 5 3 0 with sync := List.replicate n ⟨.rel, tOp 0 0 0 5, 0, (tCore 5 3 0).s⟩ }

/-- Sixteen movements in flight; a queue of one entry and a full one, for every form that takes an entry or stays. -/
theorem witness_unit_queue :
    16 ≤ (tBusy 16 []).inFlight 0 ∧ (tBusy 16 []).moverFrozen 0 = false ∧ (tBusy 16 []).misused = none ∧
    ((tBusy 16 []).core 0).sync = [] ∧ FallsThrough (tBusy 16 []) (tOp 3 1 2 0) 2 ∧
    Dispatches (tBusy 16 []) (tOp 3 1 2 0) (moveForm (tOp 3 1 2 0) 1 false) ∧
    Dispatches (tBusy 16 []) (tOp 3 1 2 0) (moveForm (tOp 3 1 2 0) 1 true) ∧
    (∀ n, n = 1 ∨ n = 32 → ((tQueued n).core 0).sync ≠ [] ∧ (tQueued n).misused = none ∧
      ((tQueued n).core 0).sync.length = n ∧ FallsThrough (tQueued n) (tOp 3 1 2 0) 1 ∧ FallsThrough (tQueued n) (tOp 3 1 2 0) 2 ∧
      Dispatches (tQueued n) (tOp 3 1 2 0) (moveForm (tOp 3 1 2 0) 1 false) ∧
      Dispatches (tQueued n) (tOp 3 1 2 0) (moveForm (tOp 3 1 2 0) 1 true) ∧
      Dispatches (tQueued n) (tOp 3 1 2 0) (collForm (tOp 3 1 2 0) fAllred) ∧
      Dispatches (tQueued n) (tOp 3 1 2 0) (collForm (tOp 3 1 2 0) fAllgath) ∧
      Dispatches (tQueued n) (tOp 3 1 2 0) (collForm (tOp 3 1 2 0) fRedscat) ∧
      Dispatches (tQueued n) (tOp 0 0 0 0) (collForm (tOp 0 0 0 0) fCbar) ∧
      Dispatches (tQueued n) (tOp 0 1 2 5) (evtForm (tOp 0 1 2 5) (noDst (tOp 0 1 2 5))) ∧
      Dispatches (tQueued n) (tOp 0 0 0 5) (fenceForm (tOp 0 0 0 5) (immBelow (tOp 0 0 0 5) 3 && scopeOk (tOp 0 0 0 5))) ∧
      Dispatches (tQueued n) (tOp 0 1 2 0) (flagForm (tOp 0 1 2 0) (noDst (tOp 0 1 2 0) && immBelow (tOp 0 1 2 0) 12)) ∧
      Dispatches (tQueued n) (tOp 3 1 2 5) (evtForm (tOp 3 1 2 5) true) ∧
      Dispatches (tQueued n) (tOp 3 1 0 0) (evtForm (tOp 3 1 0 0) (noSrc2 (tOp 3 1 0 0) && opScope (tOp 3 1 0 0) == 0)) ∧
      Dispatches (tQueued n) (tOp 0 0 0 0x8001) (fenceForm (tOp 0 0 0 0x8001) (immBelow (tOp 0 0 0 0x8001) 16 && !noImm (tOp 0 0 0 0x8001))) ∧
      Dispatches (tQueued n) (tOp 3 1 2 0) (flagForm (tOp 3 1 2 0) (immBelow (tOp 3 1 2 0) 7))) := by
  refine ⟨by decide, by decide, rfl, rfl, rfl, dispatches (by decide), dispatches (by decide), ?_⟩
  rintro n (rfl | rfl) <;>
    refine ⟨by decide, rfl, by decide, rfl, rfl, ?_, ?_, ?_, ?_, ?_, ?_, ?_, ?_, ?_, ?_, ?_, ?_, ?_⟩ <;> exact dispatches (by decide)

/-- A release at the front of the queue that may go; releases, additions to an event and updates of a flag that may not. -/
theorem witness_queued_releases :
    Operates (tQueued 1) ∧ ((tQueued 1).core 0).phase = .running ∧ (tQueued 1).coreFrozen 0 = false ∧
    ((tQueued 1).part (corePart 0)).onPos (coreNum 0) = true ∧
    ((tQueued 1).core 0).sync = [⟨.rel, tOp 0 0 0 5, 0, (tCore 5 3 0).s⟩] ∧ (tQueued 1).released 0 5 = true ∧
    (tBusy 1 [(.host 0, .host 0)]).released 0 5 = false ∧
    Dispatches (tBusy 1 [(.host 0, .host 0)]) (tOp 0 1 2 5) (flagForm (tOp 0 1 2 5) (noDst (tOp 0 1 2 5) && immBelow (tOp 0 1 2 5) 12)) ∧
    Dispatches (tBusy 1 [(.host 0, .host 0)]) (tOp 0 0 0 5) (fenceForm (tOp 0 0 0 5) (immBelow (tOp 0 0 0 5) 3 && scopeOk (tOp 0 0 0 5))) ∧
    State.released { tEvents 5 0 .running with moves := [{ tMove with rowsLeft := [(.host 0, .host 0)] }] } 0 5 = false ∧
    NothingQueued (tRun 0 0 0) ∧ targetOk (tEvents 5 0 (.waiting (.event 1 5 3 5)) |>.core 0).text 1 = true := by
  refine ⟨⟨rfl, rfl⟩, rfl, by decide, by decide, rfl, by decide, by decide, dispatches (by decide), dispatches (by decide), by decide,
    by unfold NothingQueued; decide +kernel, by decide⟩

/-- A core whose commit takes one row of 64 bytes to a block that device 9 stores, and waits for its acknowledgement. -/
def tCommits : State :=
  let rec0 : List Byte := leBytes 1 0 ++ leBytes 1 1
  let entry (landing addr : Nat) : BlockEntry := ⟨0, stProvisional, 0, 0, false, landing, addr⟩
  let put (s : State) (n : BlockName) (e : BlockEntry) : State := s.residentPut n (e.words n)
  put (put { tLink.setCore 0 (tTree 0 0) with manifests := [tJob], mem := mapWrite 0 [] (slotRegion 0) rec0 }
    { blockName 0 0 with block := treeBlock0 } (entry 0 0x100000)) (blockName 0 0) (entry 9 0x1000)

theorem witness_waiting_commit :
    (match scmtRun (tOp 3 1 2 2) tCommits tSlot tJob 0 0 [0] 0 with
     | .wait u w => u.misused == none && (u.core 0).phase == .running && (u.core 0).kernel == some tSlot && (match w with
       | .scmt _ _ _ _ _ _ _ => true
       | _ => false)
     | _ => false) = true ∧ tCommits.running 0 = some (tSlot, tJob) ∧
    Dispatches tCommits (tOp 3 1 2 2) (specForm (tOp 3 1 2 2) (immBelow (tOp 3 1 2 2) 11)) ∧
    tCommits.spanWaits 0 0 [(treeBlock0, treeBlock0 + 3), (0, 0)] = false ∧ tCommits.moverFrozen 0 = false ∧ tCommits.misused = none ∧
    tCommits.seqLost 0 0 = false := by
  refine ⟨by decide +kernel, by decide +kernel, dispatches (by decide +kernel), by decide +kernel, by decide +kernel, by decide +kernel,
    by decide +kernel⟩

/-- A position whose outgoing core waits in a kernel, and a fold slot with an uncorrectable line and without. -/
def tFolds : State := tFold.setCore 0 { tCore 0 0 0 with phase := .waiting (.groups 1) }

theorem witness_folding_errors :
    Operates tFolds ∧ carriedBy (tFolds.part 0).working 3 = [0, 2] ∧
    [0, 2].find? (fun n => n != 0 && tFolds.canRun (coreIdOf 0 ⟨n % 12, Nat.mod_lt _ (by decide)⟩)) = some 2 ∧
    (tFolds.core 0).kernel.isSome = true ∧ (tFolds.core 0).givesUp = true ∧ tFolds.benchQuiet 0 = true ∧
    tFolds.readFoldSlot 0 2 (some 0) = (tFolds, true) ∧
    (({ tFolds with lineErrors := [(tFolds.foldSlotOf 0 2, [(0, 1), (1, 1), (2, 1)])] } : State).readFoldSlot 0 2 (some 0)).2 = false := by
  refine ⟨⟨rfl, rfl⟩, by decide +kernel, by decide +kernel, by decide +kernel, by decide +kernel, by decide +kernel, rfl, by decide +kernel⟩

/-- A virtual device whose rank 0 has no host; a promised manifest in a later run whose deadline has passed. -/
def tVdevGone : VDev := { tVdev with members := [⟨0, none, false, .active⟩] }
def tLate : Manifest := { tManifest 1 .admissible with promised := true, iter := 1 }
def tLost : State := { tAdmit (tManifest 1 .admissible) with vdevs := [tVdevGone] }

theorem witness_admission_waits :
    ((tLost.readCode (tManifest 1 .admissible)).1.admissionTurn (tManifest 1 .admissible)).cause (tManifest 1 .admissible) (.obj tObj) none
      (some tVdevGone) = 0 ∧ State.waitsForHost (tManifest 1 .admissible) tVdevGone = true ∧
    (tAdmit (tManifest 1 .admissible)).nextAdmitted (tManifest 1 .admissible) = true ∧
    (((tAdmit tLate).readCode tLate).1.admissionTurn tLate).cause tLate (.obj tObj) none (some tVdev) = rsNoTime ∧ 0 < tLate.iter ∧
    tUp.regBit R_MEM_CTRL 0 = true ∧ (tUp.setRegField R_MEM_CTRL 0 0 0).regBit R_MEM_CTRL 0 = false ∧
    { tManifest 1 .abandoned with heldLines := [0x1000] }.heldLines ≠ [] := by decide +kernel

/-! ## Beats, registers, ports and frames -/

/-- A servo at rest with the greatest drift to either side; registers in canonical form; a command that is no message. -/
theorem witness_beats_and_registers :
    tUp.powered = true ∧ tUp.pending = [] ∧ tUp.ptp.rate = 0 ∧
    (∀ d : Int, d = -999999 ∨ d = 999999 → -1000000 < ({ tUp.ptp with drift := d } : PtpSt).drift ∧
      ({ tUp.ptp with drift := d } : PtpSt).drift < 1000000) ∧
    ({ tUp with ptp := { tUp.ptp with rate := 200 } } : State).ptp.rate ≠ 0 ∧
    Registers.wf tUp = true ∧ isPtpMessage .smbIdent = false ∧ (∃ t, exec .smbIdent tUp = .next t) ∧ mapWf none tUp.ptp.sentAt = true := by
  refine ⟨rfl, rfl, rfl, ?_, by decide, by decide +kernel, rfl, ⟨_, rfl⟩, rfl⟩
  rintro d (rfl | rfl) <;> decide

/-- A laser that was below its limit already, at the limit, and with the light gone; arrivals that an interface takes and not. -/
theorem witness_arrivals :
    tUp.laserOk 0 = false ∧ tUp.laserPower 0 < 1600 ∧ (tUp.showLaser 0 1600).laserOk 0 = false ∧ 1600 ≤ (tUp.showLaser 0 1600).laserPower 0 ∧
    Registers.wf tLink = true ∧ tLink.takes tArr = true ∧ tLink.takes { tArr with carrier := .udp (tLink.ip6 0 0) 0xC15C } = true ∧
    tLink.takes { tArr with carrier := .other } = false ∧ isPtp tArr = false ∧ isPtp { tArr with carrier := .raw 0x88F7 } = true ∧
    isPtp { tArr with carrier := .udp 0 320 } = true ∧ (tLink.countCorrected tArr).sendsAll = true ∧
    ((tDisc discCounting ⟨0, 0, 0, some 0, [], []⟩).countCorrected tArr).sendsAll = false ∧
    isDiscovery ⟨0x10, 16, 0, broadcast, 9, 3, []⟩ = false ∧ broadcast ≠ tLink.landing ∧
    ((⟨9, 3, 0⟩ : SeenBroadcast).src == 9 && decide (tLink.beat < (⟨9, 3, 0⟩ : SeenBroadcast).beat + 2000000)) = true ∧
    tLink.discovery.broadcasts = [] := by decide +kernel

/-- A device that has sent a request at beat 1 by interface 0, has measured its delay, and takes its time from there. -/
def tTimed : State :=
  { tLink.setReg R_LNK_TIME 0x80 with ptp := { tLink.ptp with sentAt := [(0, some 256)], delays := [(0, some 49920)] } }

def tPtp : Arrival := { tArr with carrier := .raw 0x88F7 }

theorem witness_time :
    tTimed.ifUp 0 0 = true ∧ (0 : Byte).toNat = (tTimed.countCorrected tPtp).ptpDomain ∧ (1 : Byte).toNat ≠ (tTimed.countCorrected tPtp).ptpDomain ∧
    mapGet none (tTimed.countCorrected tPtp).ptp.sentAt 0 = some 256 ∧ mapGet none (tTimed.countCorrected tPtp).ptp.delays 0 = some 49920 ∧
    (tTimed.countCorrected tPtp).regBit R_LNK_TIME 7 = true ∧ (tTimed.countCorrected tPtp).regField R_LNK_TIME 4 0 = 0 ∧
    mapGet none (tLink.countCorrected tPtp).ptp.delays 0 = none ∧ Registers.wf tTimed = true ∧ (tTimed.port 0).gen = 0 ∧
    mapWf none tTimed.ptp.sentAt = true ∧ mapGet none tTimed.routes 9 = some ⟨0, 0, 1⟩ ∧ mapGet none tTimed.ptp.delays (8 * 0 + 0) = some 49920 := by
  decide +kernel

/-- A discovery frame that was seen 2 ms ago or less; a frame to retransmit with a route and with none. -/
theorem witness_repeats :
    (((tDisc discClaiming ⟨7, 3, 0, none, [⟨tyClaim, 7, 0x200, 100000000⟩], []⟩).countCorrected tArr).seenBefore tyClaim 7 0x200).2 = true ∧
    (tPeer (tSent 8)).egress? 9 = some (0, 0) ∧ ({ tPeer (tSent 8) with routes := [] } : State).egress? 9 = none ∧
    (tDisc discClaiming ⟨7, 3, 0, none, [], []⟩).ifUp 0 0 = true ∧ (tDisc discClaiming ⟨7, 3, 0, none, [], []⟩).takes { tArr with mac := BitVec.allOnes 48 } = true := by
  decide +kernel

/-! ## Data frames, the fabric and the Ferryman -/

/-- A last-off frame with an earlier frame of its stream outstanding; a partition that holds all it has room for; an answer that was asked for. -/
def tLast : Rx := { tRx true 1 0 with lastOff := true }

theorem witness_held_frames :
    [tyWrite, tyAtomic].all (fun ty => (tData.accept tLast ty).2 && !(tData.accept tLast ty).1.notTaken tLast { tExt 0 0 with prior := 1 } 64 true &&
      ((tData.accept tLast ty).1.takeSeq tLast).2) = true ∧ tLast.lastOff = true ∧
    (((tData.accept tLast tyWrite).1.takeSeq tLast).1.peer? 9).any (fun x => !x.performedBelow 7 0 1 && !x.refusedBelow 7 0 1) = true ∧
    ((tData.accept tLast tyWrite).1.takeSeq tLast).1.frameTrouble { tExt 0 0 with prior := 1 } 64 true = none ∧
    (({ tData with held := List.replicate 256 ⟨0, some 9, ⟨0, 0, 0, 0, 0⟩, 7, 1, .dev 0x1000 0, [1], .data, 0, 0⟩ } : State).accept tLast tyWrite).1.notTaken
      tLast { tExt 0 0 with prior := 1 } 64 true = true ∧
    (tData.accept (tRx true 1 0) tyRdata).1.rdataWaits (tRx true 1 0) { tExt 0 0 with move := 7 } 64 = false ∧
    tReads.readFor 9 0x1000 64 = some (9, 0x1000, 64, .bench 0 0) ∧ tReads.group ≠ 16 ∧ tReads.last = false ∧
    (Place.plus (.bench 0 0) 0).isRemote = false ∧
    (tData.manifests.all (fun m => !m.ignoreFault)) = true ∧ NothingQueued tData := by
  refine ⟨by decide +kernel, rfl, by decide +kernel, by decide +kernel, by decide +kernel, by decide +kernel, by decide +kernel,
    by decide, rfl, rfl, by decide +kernel, by unfold NothingQueued; decide +kernel⟩

/-- Handoffs that the taker disputes or takes; the requests of the mailbox that answer later or write the flash. -/
def tBox (host : List Byte) : State :=
  { tKeeper.setReg R_FER_REQ_ADDR 0x100 with host := mapWrite 0 (mapWrite 0 [] 0x100 host) 0x400 (leBytes 8 (9 * 2 ^ 48 + 0x1000)) }

def tOffers : State :=
  let n := blockName 0 0
  State.residentPut (tBox (leBytes 2 6 ++ leBytes 22 0 ++ leBytes 2 0 ++ leBytes 2 1 ++ leBytes 4 9 ++ leBytes 8 0x400)) n
    (BlockEntry.words ⟨0, stCommitted, 0, 0, false, 0, 0x100000⟩ n)

def tComposes : State := tBox (leBytes 2 5 ++ leBytes 14 0 ++ leBytes 2 opActivate ++ leBytes 6 5 ++ leBytes 4 1)

/-- A configuration record that is all zeros but its first words, at host address 0x1000. -/
def tConfig : State := { tMail 8 0 0 with host := mapWrite 0 (mapWrite 0 [] 0x100 (leBytes 2 8 ++ leBytes 14 0 ++ leBytes 8 0x1000)) 0x1000 (leBytes 4 configMagic ++ leBytes 2 1) }

theorem witness_mailbox_commands :
    ((tMail 1 15 0).ferAccept accAccepted 0).slotInState 15 = false ∧
    (tOffers.ferAccept accAccepted 0).handoffArgsOk 0x100 = true ∧ (tOffers.ferAccept accAccepted 0).handoffsHeld.length < 16 ∧
    (tOffers.ferAccept accAccepted 0).slotVdev 0 = some tShared ∧
    ((tOffers.ferAccept accAccepted 0).handoffSources 0 ⟨1, 5, 9, 0, 1, 0, 0, 1, 1, [], 0, [⟨0, 0⟩]⟩).2 = some ([⟨5, 0x100000⟩], 1024) ∧
    (tComposes.ferAccept accAccepted 0).arg 0x100 0x15 1 = 0 ∧ (tComposes.ferAccept accAccepted 0).arg 0x100 0x18 4 = 1 ∧
    (tComposes.ferAccept accAccepted 0).arg 0x100 0x20 16 = 0 ∧
    (tComposes.ferAccept accAccepted 0).argsClear 0x100 [(0x10, 0x20), (0x30, 4)] = true ∧
    (tComposes.ferAccept accAccepted 0).landing ≠ 0 ∧
    (tComposes.ferAccept accAccepted 0).vdev? ((tComposes.ferAccept accAccepted 0).composeRec 0x100).vdev = some tShared ∧
    (tComposes.ferAccept accAccepted 0).keeper tShared = some 5 ∧
    (tMail 7 0 0).argsClear 0x100 [(0x10, 8), (0x18, 4), (0x1C, 1)] = true ∧ hostAddrOk ((tMail 7 0 0).arg 0x100 0x10 8) 4096 = true ∧
    (tMail 7 0 0).hasRecord = false ∧ (tMail 3 0 0).argsClear 0x100 [(0x10, 2)] = true ∧
    tConfig.argsClear 0x100 [(0x10, 8)] = true ∧ tConfig.hostNat 0x1008 8 = (tConfig.reg R_DEV_SERIAL).toNat ∧ tConfig.hasRecord = false ∧
    tConfig.recordFormatOk 0x1000 = true := by decide +kernel

/-- The other party of a handoff: a taker whose timer ends, and one in dispute. -/
theorem witness_takers :
    ((tTaken .taking).takenBy? 4 9).any (fun h => h.state == .taking && decide (h.timer ≤ 0)) = true ∧
    ((tTaken .disputed).takenBy? 4 9).any (fun h => h.state == .disputed) = true ∧ (tTaken .taking).ferryDown = false := by decide +kernel

/-- A line of the Ferryman area beyond correction, and none. -/
theorem witness_ferryman_lines :
    tUp.ferryUe = none ∧
    ({ tUp with lineErrors := [(dramBase + 15 * dramStride + dataMib 15 * 0x100000, [(0, 1), (1, 1), (2, 1)])] } : State).ferryUe ≠ none := by
  decide +kernel

/-- A loan that can be made; a die above 105 °C already; an admitted manifest that waits for its host. -/
theorem witness_loans_and_heat :
    ((tRack.setRegField R_PWR_GRANT 15 0 999).acceptSeq (tRx true 1 0) tyGrant).1.canLend = true ∧
    mapGet false ({ tUp.power with thermalDie := [(1, true)] } : PowerSt).thermalDie 1 = true ∧ 105 < (110 : BitVec 8).toNat ∧
    (110 : BitVec 8).toNat ≤ 110 := by decide +kernel

/-! ## Terms the checks of WellFormed refuse -/

/-- A host address of 53 bits, and a write of no bytes. -/
theorem test_register_write_checks :
    Instr.wellFormed (.registerWrite 0 0 0 []) = false ∧ Instr.wellFormed (.registerWrite 0 4 0 [(2 ^ 52, 0)]) = false ∧
    Instr.wellFormed (.registerWrite 0 4 0 [(2 ^ 52 - 1, 0)]) = true := by decide

theorem test_doorbell_checks : Instr.wellFormed (.doorbell 0 0 .tail 0 .noPasid [(2 ^ 52, 0)]) = false := by decide

/-- A participant, a requester, a slot and a rank named twice. -/
theorem test_distinct_checks :
    Instr.wellFormed (.collectiveRetire 0 false 0 [(1, []), (1, [])]) = false ∧ Instr.wellFormed (.arbitration 0 [3, 3]) = false ∧
    Instr.wellFormed (.slackInterval [(2, 0), (2, 1)]) = false ∧
    Instr.wellFormed (.compCommit (tRx true 1 0) (tRecord 1 1 0) [⟨4, 5, 0, false, true⟩, ⟨4, 9, 0, false, true⟩]) = false ∧
    Instr.wellFormed (.compCommit (tRx true 1 0) (tRecord 1 1 0) [⟨4, 5, 0, false, true⟩]) = true := by decide

/-- A payload of 4,097 bytes and a HELLO of 17 records. -/
theorem test_frame_checks :
    Instr.wellFormed (.frameForward tArr.toLinkEnd tArr.toEnvelope ⟨0, 0, 0, 0, 0, 0, List.replicate 4097 0⟩) = false ∧
    Instr.wellFormed (.hello (tRx true 1 0) 0 0 (List.replicate 17 ⟨0, 0, 0, 0⟩)) = false := by decide +kernel

/-- PRIOR without LASTOFF, and a LEN with data. -/
theorem test_data_frame_checks :
    Instr.wellFormed (.frameRead (tRx true 1 0) { tExt 0 64 with prior := 1 }) = false ∧
    Instr.wellFormed (.frameWrite (tRx true 1 0) (tExt 0 64) []) = false ∧ Instr.wellFormed (.rdata (tRx true 1 0) (tExt 0 64) []) = false ∧
    Instr.wellFormed (.atomic (tRx true 1 0) (tExt 0 64) 0) = false ∧ Instr.wellFormed (.frameRead (tRx true 1 0) (tExt 0 64)) = true := by decide

/-- Partition 16 and rank 16,384. -/
theorem test_composition_checks :
    Instr.wellFormed (.request (tRx true 1 0) { tRecord 1 1 0 with part := 16 }) = false ∧
    Instr.wellFormed (.propose (tRx true 1 0) { tRecord 1 1 0 with rank := 16384 }) = false ∧
    Instr.wellFormed (.vote (tRx true 1 0) { tRecord 1 1 0 with part := 16 }) = false ∧
    Instr.wellFormed (.compAbort (tRx true 1 0) { tRecord 1 1 0 with part := 16 }) = false ∧
    Instr.wellFormed (.reply (tRx true 1 0) { tRecord 1 1 0 with part := 16 }) = false := by decide

/-- A COUNT of 0 or 129, a KIND of 2, and pairs that do not match. -/
theorem test_handoff_checks :
    Instr.wellFormed (.hoOffer (tRx true 1 0) { tHandoff 9 5 5 with count := 0 }) = false ∧
    Instr.wellFormed (.hoTake (tRx true 1 0) { tHandoff 9 5 5 with count := 129, pairs := [] }) = false ∧
    Instr.wellFormed (.hoAck (tRx true 1 0) { tHandoff 9 5 5 with kind := 2, pairs := [] }) = false ∧
    Instr.wellFormed (.hoOffer (tRx true 1 0) { tHandoff 9 5 5 with pairs := [] }) = false ∧
    Instr.wellFormed (.hoDone (tRx true 1 0) (tHandoff 9 5 5)) = false ∧ Instr.wellFormed (.hoRefuse (tRx true 1 0) (tHandoff 9 5 5)) = false ∧
    Instr.wellFormed (.hoReport (tRx true 1 0) (tHandoff 9 5 5)) = false ∧ Instr.wellFormed (.hoDecide (tRx true 1 0) (tHandoff 9 5 5)) = false := by
  decide

theorem test_chunk_and_functions_checks :
    Instr.wellFormed (.decrypt 0 none (some (2 ^ 32))) = false ∧ Instr.wellFormed (.vfEnableSet (2 ^ 16)) = false := by decide

/-! ## The queue -/

theorem test_step_takes_the_front :
    step { tUp with pending := [.smbIdent, .powerDown] } = exec .smbIdent { tUp with pending := [.powerDown] } := rfl

theorem test_no_word_spells_a_command : decodeTableWord 64 0x0000_0004_00A5_0001 = none ∧ State.reset.withFetchWord 64 5 = State.reset := ⟨rfl, rfl⟩

/-! ## Worked examples of the specification, with its figures -/

/-- Cores, clusters and row spares: partition 5 after its reset. -/
theorem test_core_map_example :
    coreMapWord 0x7F5F 0 = 0x8000012B3F4F7F5F ∧ activeCount 0x7F5F = 11 ∧ foldFactor 0x7F5F = 2 ∧
    foldSlotBase 5 0x7F5F = 0x17FF00000 := by decide +kernel

/-- There: the folded bound of 12,000 steps and W = 3; scope: 12,000 steps are 8,572 beats on a full partition. -/
theorem test_folded_bound_example :
    foldedBound ⟨12000, 3, 0, 0, 0, 0, 0, 0, 0, 0⟩ 2 (slowPace 0) = 506 * 64 ∧ stepsToBeats 12000 (slowPace 0) = 8572 := by decide +kernel

/-- Matrix and vector instructions: the IMM of the A descriptor. -/
theorem test_tdset_example :
    tdsetRows (tOp 0 2 3 0x00220040) = 64 ∧ tdsetCols (tOp 0 2 3 0x00220040) = 1024 ∧ tdsetFmt (tOp 0 2 3 0x00220040) = 4 ∧
    tdsetLegal (tOp 0 2 3 0x00220040) = true := by decide

/-- The words that the CuRIL and the matrix chapters encode: ADDI, LOOP with IMM −3, TDSET and MMA. -/
theorem test_encoded_words :
    wordCommand 0 .none 0x0000000400A50001 0 = some (.alui (tOp 5 5 0 8) 0) ∧
    wordCommand 0 .none 0xFFFFFFFE800600C8 0 = some (.loopDec (tOp 6 0 0 0x1FFFFFFFD)) ∧
    wordCommand 0 .none 0x001100200C400020 0 = some (.tdset (tOp 0 2 3 0x00220040)) ∧
    wordCommand 0 .none 0x0000000084000021 0 = some (.mma (tOp 0 0 1 1)) := ⟨rfl, rfl, rfl, rfl⟩

/-- The CuRIL chapter: LOOP with IMM −3. -/
theorem test_loop_example : opImmS (tOp 6 0 0 0x1FFFFFFFD) = -3 := by decide

/-- Number formats: two MXFP8 blocks whose second re-anchors the element. -/
theorem test_accumulator_example :
    let one := fun k => if k = 0 ∨ k = 32 then 0x38 else if k = 1 then 0x01 else 0
    let b := fun k => if k = 0 ∨ k = 32 ∨ k = 1 then 0x38 else 0
    ((AccElem.zero.mmaRow 4 4 64 one (fun k => if k = 1 then 0x01 else b k) (fun g => if g = 0 then 0x7F else 0x9D)
      (fun g => if g = 0 then 0x6B else 0x9D)).1.drain 10).1 = 0x5D800000 := by decide +kernel

/-- R194: T[32], and EXP2 of a half, which is that entry. -/
theorem test_exp2_example : tabT 32 = 0x3FB504F3 ∧ tabQ 0 = 0x3F7F00FF ∧ (sfuExp2 0x3F000000).1 = 0x3FB504F3 := by decide +kernel

/-- Sequence state: the draft tree of eight nodes. -/
def tDraftTree : CoreSt :=
  (((({ tCore 0 0 0 with bench := [] }.putBytes 0 (leBytes 8 3000)).putBytes 0x40 ([0xFF, 0, 0, 1, 1, 3, 2, 5])).putBytes 0x80
    ([8113, 402, 77, 19006, 1250, 3, 19006, 6621].flatMap (leBytes 4))).putBytes 0x180
    ([402, 1250, 0, 0, 911, 0, 0, 0].flatMap (leBytes 4)))

theorem test_sacpt_example :
    (match exec (.sacpt (tOp 3 1 0 8)) (tWith tDraftTree) with
     | .next t => (t.core 0).sreg 3 == 0x38F00000402 && (List.range 3).map (fun i => (t.core 0).treePath 0 i) == [0, 1, 4]
     | _ => false) = true := by decide +kernel

theorem test_key_example : keySeq 0x0028C47400000000 = 0xA31 ∧ keyPlane 0x0028C47400000000 = 29 := by decide

/-- Address translation: leaf 5 of the run of 28 medium pages. -/
theorem test_leaf_example :
    entryMalformed 2 0x000000015B00003B 0x07000000 = false ∧
    leafRun true 0x2000_0500_0000 0x000000015B00003B 0x07000000 2 = (0x2000_0000_0000, 24, 28, 0x000000015B00003B, 0x02000000) := by
  decide +kernel

/-- Shared objects: word 1 of the weight object's entry. -/
theorem test_ledger_example :
    let e := LedgerEntry.ofWords 0 0 0x0000050001010123
    e.device = 5 ∧ e.hosts = 1 ∧ e.type = ldgMemory ∧ e.context = 0x123 := by decide

/-- Jobs: the booking of the running manifest of 48 kernels, and the usable time of berth 7. -/
def tBound : BoundRec := ⟨610000, 2, 1, 467200000, 0, 0, 0, 33024, 1, 0⟩
def tBooked : Manifest := { tManifest 48 .admissible with chain := 48, running := true, replay := true, promised := true }

theorem test_booking_example :
    let s := tUp.setReg (R_SUB_LINKLAT) 3000
    let b := s.bounds tBooked ⟨2, 0, 0, 0, 0, [⟨0, 8, 0xFFF, some tBound⟩]⟩ [5] 3000
    s.transferBeats tBound = 47381 ∧ s.delayBeats tBound 48 3000 = 42664 ∧ b.m = 25359480 ∧ b.r = 56873400 ∧ b.booking = 82232896 := by
  decide +kernel

theorem test_usable_time_example :
    Timetable.usable ⟨true, 0, List.replicate 32 ⟨some 7, 4096⟩ ++ List.replicate 8 ⟨none, 4096⟩⟩ 7 (975425 + 64 + 2000) 0 150000000 =
      105977537 := by decide +kernel

/-- Arbitration: the bounds, and the turns at pointers 4 to 6. -/
def tArb : ArbSt :=
  { ArbSt.reset with
    active := ⟨8, (List.range 16).map (fun i => (4 * i, true, 13)), [(7, 5), (9, 5)]⟩, pointer := 4, epoch := 2, turns := 128
    wait := [(3, 8)], expired := [(3, 0)] }

theorem test_arbitration_example :
    (tUp.setArb 0x12A tArb).arbBound 0x12A = 480 ∧ tUp.arbBound 0x165 = 21 ∧ tUp.arbBound 0x140 = 424 ∧
    (tArb.turn 16 [3, 7, 9, 13]).granted = some 13 ∧ ((tArb.turn 16 [3, 7, 9, 13]).turn 16 [3, 7, 9]).granted = some 3 ∧
    (((tArb.turn 16 [3, 7, 9, 13]).turn 16 [3, 7, 9]).turn 16 [7, 9]).granted = some 7 := by decide +kernel

/-- Optical ports: two hops of 195 ns. -/
theorem test_peer_delay_example : peerDelay (195 * 256) 2 (195 * 256) = 490 := by decide

/-- Host attachment: a function-level reset of instance 2. -/
theorem test_instance_example :
    (match exec (.functionLevelReset 2) ((tMode []).setReg (instReg 2) 0x90000000000003FF) with
     | .next t => t.reg (instReg 2) == 0xA0000000000003FF
     | _ => false) = true := by decide +kernel

/-- Faults: the salvage record numbered 3 of partition 5. -/
theorem test_salvage_example : recordAddr 5 3 = 0x01777B860000 := by decide

/-- Start-up: channel 9 trains with its conservative parameters on the alternate path, or fails them. -/
theorem test_channel_example :
    (match exec (.startDram 0x200 0) (tStart 6 1) with
     | .next t => t.reg (channelReg 9) == 5 && t.devState == devReady
     | _ => false) = true ∧
    (match exec (.startDram 0x200 0x200) (tStart 6 1) with
     | .next t => t.reg (channelReg 9) == 2 && (t.part 4).state == .stranded
     | _ => false) = true := by decide +kernel

end Sys2Proof.Tests
end

section
/-! PROOF. The composition of virtual devices, a dead peer and lost sequences: what their commands do where they apply, and
the statements Composition and DeadPeersAndLostSequences. -/

namespace Sys2Proof.Machine

theorem State.framed_self (s : State) : s.framed s = s := rfl

/-! ## The keeper's composition operations (R34, R39 to R42) -/

/-- The change of a kind that is under way for a virtual device at its keeper (R34). -/
def State.changeUnderWay (s : State) (op : Nat) (vdev : BitVec 24) : Option CompChange :=
  s.comps.find? (fun c => c.record.vdev == vdev && c.takenUp && c.record.op == BitVec.ofNat 8 op)

/-- The five composition commands run one operation, which differs in the kind of change alone. -/
theorem exec_eq_compose {i : Instr} {op : Nat} {vdev : BitVec 24} (s : State)
    (hi : (i = .join vdev ∧ op = opJoin) ∨ (i = .activate vdev ∧ op = opActivate) ∨ (i = .rehost vdev ∧ op = opRehost) ∨
      (i = .leave vdev ∧ op = opLeave) ∨ (i = .dissolve vdev ∧ op = opDissolve)) : exec i s = compose op vdev s := by
  obtain ⟨rfl, rfl⟩ | ⟨rfl, rfl⟩ | ⟨rfl, rfl⟩ | ⟨rfl, rfl⟩ | ⟨rfl, rfl⟩ := hi <;> rfl

section compose
variable {s : State} {op : Nat} {vdev : BitVec 24} {c : CompChange}

theorem compose_of_deferred (h : Operates s) (hd : s.deferred3 = true) : compose op vdev s = .next s := by
  rw [compose, whenOn_eq h, if_pos (by simp [hd]), State.framed_self]

theorem compose_of_underWay (h : Operates s) (hf : s.ferryDown = false) (hd : s.deferred3 = false)
    (hu : s.changeUnderWay op vdev = some c) :
    compose op vdev s = .next (s.framed (if c.failed then s.abortChange c
      else if c.votesOut.isEmpty && !c.consulting then s.commitChange c else s)) := by
  rw [State.changeUnderWay] at hu
  rw [compose, whenOn_eq h, if_neg (by simp [hf, hd])]
  simp only [hu]

/-- A change under way waits for the device consulted, and for votes that are still out. -/
theorem compose_of_waiting (h : Operates s) (hf : s.ferryDown = false) (hd : s.deferred3 = false)
    (hu : s.changeUnderWay op vdev = some c) (hc : c.failed = false) (hw : c.consulting = true ∨ c.votesOut ≠ []) :
    compose op vdev s = .next s := by
  have hv : (c.votesOut.isEmpty && !c.consulting) = false := by
    rcases hw with hw | hw <;> simp [hw]
  rw [compose_of_underWay h hf hd hu, hc, hv]
  rfl

theorem compose_of_request (h : Operates s) (hf : s.ferryDown = false) (hd : s.deferred3 = false)
    (hu : s.changeUnderWay op vdev = none) (hr : s.nextRequest vdev = some c) (ho : c.record.op = BitVec.ofNat 8 op) :
    compose op vdev s = .next (s.framed (State.takeUp (s.comps.length + 1) s vdev)) := by
  rw [State.changeUnderWay] at hu
  rw [compose, whenOn_eq h, if_neg (by simp [hf, hd])]
  simp only [hu, hr, if_pos ho]

theorem compose_of_noRequest (h : Operates s) (hf : s.ferryDown = false) (hd : s.deferred3 = false)
    (hu : s.changeUnderWay op vdev = none) (hr : s.nextRequest vdev = none) : compose op vdev s = .next s := by
  rw [State.changeUnderWay] at hu
  rw [compose, whenOn_eq h, if_neg (by simp [hf, hd])]
  simp only [hu, hr, State.framed_self]

end compose

/-! ## Frames of a composition (R39 to R41, R415, R427) -/

/-- A command that is a frame of the roster protocol leaves what its effect leaves, once the frame is accepted and new. -/
theorem exec_rosterFrame {i : Instr} {s u t : State} {rx : Rx} {ty : Nat} {f : State → State}
    (hi : exec i s = rosterFrame rx ty f s) (h : Operates s) (ha : s.acceptSeq rx ty = (u, true)) (hf : f u = t) :
    exec i s = .next (s.framed t) := by
  rw [hi, rosterFrame_eq h ha, hf]

section frames
variable {s u : State} {rx : Rx} {r : CompRecord} {v : VDev} {c : CompChange}

theorem request_known (h : Operates s) (ha : s.acceptSeq rx tyRequest = (u, true)) (hv : u.vdev? r.vdev = some v) :
    exec (.request rx r) s =
      .next (s.framed (if u.isKeeper v then u.compRequest r rx.src else u.replyTo rx.src r coAborted)) :=
  exec_rosterFrame rfl h ha (by simp only [hv])

/-- A proposal that is not older than the epoch held is voted down for the first reason its device has. -/
theorem propose_refused (h : Operates s) (ha : s.acceptSeq rx tyPropose = (u, true)) (hv : u.vdev? r.vdev = some v)
    (he : epochNewer v.epoch r.epoch = false) {reason : Nat} (hr : u.compRefusal (some v) r = some reason) :
    exec (.propose rx r) s = .next (s.framed (u.castVote rx.src r reason)) :=
  exec_rosterFrame rfl h ha (by simp [hv, he, hr])

theorem propose_kept (h : Operates s) (ha : s.acceptSeq rx tyPropose = (u, true)) (hv : u.vdev? r.vdev = some v)
    (he : epochNewer v.epoch r.epoch = false) (hr : u.compRefusal (some v) r = none) :
    exec (.propose rx r) s = .next (s.framed (State.castVotes { u with
      proposals := u.proposals.filter (fun q => q.record.vdev != r.vdev) ++ [⟨r, rx.src, false⟩] })) :=
  exec_rosterFrame rfl h ha (by simp [hv, he, hr])

/-- No device is consulted about a partition of its own. -/
theorem consults_own (hl : r.landing = u.landing) : u.consults r = false := by simp [State.consults, hl]

theorem propose_join_refused (h : Operates s) (ha : s.acceptSeq rx tyPropose = (u, true)) (hv : u.vdev? r.vdev = none)
    (hl : r.landing = u.landing) {reason : Nat} (hr : u.joinRefusal true r = some reason) :
    exec (.propose rx r) s = .next (s.framed (u.castVote rx.src r reason)) :=
  exec_rosterFrame rfl h ha (by simp [hv, consults_own hl, hr])

/-- The change under way that a vote of a device answers: one still out, or a negative one (R41). -/
def State.answeredChange (s : State) (src : Landing) (r : CompRecord) : Option CompChange :=
  s.comps.find? (fun c => c.takenUp && c.record.vdev == r.vdev && c.record.epoch == r.epoch &&
    (c.votesOut.contains src || r.result != 0))

theorem vote_negative (h : Operates s) (ha : s.acceptSeq rx tyVote = (u, true))
    (hc : u.answeredChange rx.src r = some c) (hr : r.result ≠ 0) :
    exec (.vote rx r) s =
      .next (s.framed (if c.consulting then u.refuseChange c r.result.toNat else u.abortChange c)) := by
  rw [State.answeredChange] at hc
  exact exec_rosterFrame rfl h ha (by simp only [hc, if_pos hr])

theorem vote_positive (h : Operates s) (ha : s.acceptSeq rx tyVote = (u, true))
    (hc : u.answeredChange rx.src r = some c) (hr : r.result = 0) :
    exec (.vote rx r) s = .next (s.framed (if c.consulting then
        u.proposeTo c ((changeDevices (u.vdev? r.vdev) c.record).filter (· != rx.src))
      else { u with comps := u.comps.map (fun x =>
        if x = c then { x with votesOut := x.votesOut.filter (· != rx.src) } else x) })) := by
  rw [State.answeredChange] at hc
  exact exec_rosterFrame rfl h ha (by simp only [hc, if_neg (not_not_intro hr)])

theorem compCommit_newer (roster : List RosterEntry) (h : Operates s) (ha : s.acceptSeq rx tyCommit = (u, true))
    (hv : u.vdev? r.vdev = some v) (he : epochNewer r.epoch v.epoch = true) :
    exec (.compCommit rx r roster) s =
      .next (s.framed (State.dropForeign (State.afterLiveness { u.applyCommit r roster with
        vdevs := (u.applyCommit r roster).vdevs.map (fun v =>
          if v.number = r.vdev then { v with vdLat := r.vdLat.toNat } else v) } u))) :=
  exec_rosterFrame rfl h ha (by simp [hv, he])

theorem compAbort_accepted (h : Operates s) (ha : s.acceptSeq rx tyAbort = (u, true)) :
    exec (.compAbort rx r) s =
      .next (s.framed { u with proposals := u.proposals.filter (fun q => q.record.vdev != r.vdev) }) :=
  exec_rosterFrame rfl h ha rfl

theorem reply_accepted (h : Operates s) (ha : s.acceptSeq rx tyReply = (u, true)) :
    exec (.reply rx r) s = .next (s.framed (u.finishCompose r.tag r.result.toNat r.epoch)) :=
  exec_rosterFrame rfl h ha rfl

/-- SYNC is a question to a device that waits for no answer of its sender; one that holds no commit answers its epoch. -/
theorem rosterSync_question (vdev : BitVec 24) (epoch : Lane) (rec : Option CompRecord) (h : Operates s)
    (ha : s.acceptSeq rx tySync = (u, true)) (hv : u.vdev? vdev = some v) (hn : v.lastCommit = none)
    (ho : v.syncOut.contains rx.src = false) :
    exec (.rosterSync rx vdev epoch rec) s =
      .next (s.framed (u.sendSeq rx.src tySync 0 (syncBytes vdev v.epoch none) none)) := by
  have hq : ¬(u.isKeeper v = true ∧ v.syncOut.contains rx.src = true) :=
    fun hk => Bool.false_ne_true (ho.symm.trans hk.2)
  exact exec_rosterFrame rfl h ha (by simp only [hv, if_neg hq, hn])

end frames

/-- Settles O51: each command by its case at the keeper, each frame by what it does once accepted. -/
theorem composition : Obligations.Composition := by
  unfold Obligations.Composition
  intro s h hf
  refine ⟨fun i op vdev hi => ?_, fun rx r s1 => ⟨?request, ?propose, ?join, ?vote, ?commit, ?abort, ?reply, ?sync⟩⟩
  · rw [exec_eq_compose s hi]
    refine ⟨compose_of_deferred h, fun hd => ⟨fun c hu => ⟨fun hc => ?_, fun hc hk hv => ?_,
      compose_of_waiting h hf hd hu⟩, fun c => compose_of_request h hf hd, compose_of_noRequest h hf hd⟩⟩
    · rw [compose_of_underWay h hf hd hu, if_pos hc]
    · rw [compose_of_underWay h hf hd hu, hc, hk, hv]
      rfl
  case request => exact fun ha v hv => request_known h ha hv
  case propose => exact fun ha v hv he => ⟨fun _ => propose_refused h ha hv he, propose_kept h ha hv he⟩
  case join => exact fun ha hv hl _ => propose_join_refused h ha hv hl
  case vote =>
    refine fun ha c hc => ⟨fun hr hk => ?_, fun hr hk => ?_, fun hr hk => ?_, fun hr hk => ?_⟩
    · rw [vote_negative h ha hc hr, hk]
      rfl
    · rw [vote_negative h ha hc hr, if_pos hk]
    · rw [vote_positive h ha hc hr, if_pos hk]
    · rw [vote_positive h ha hc hr, hk]
      rfl
  case commit => exact fun ha roster v => compCommit_newer roster h ha
  case abort => exact compAbort_accepted h
  case reply => exact reply_accepted h
  case sync => exact fun ha v vdev epoch rec hv hn ho => rosterSync_question vdev epoch rec h ha hv hn ho

/-! ## A dead peer (R24, R425, R432, R436) -/

/-- A live peer counts as heard until its time and the delay to it have passed. -/
theorem peerDead_early {s : State} {l : Landing} {p : Peer} (h : Operates s) (hp : s.peer? l = some p)
    (ht : s.beat < p.lastHeard + s.deadBeats + s.delayTo l) : exec (.peerDead l) s = .next s := by
  show execPeerDead l s = _
  rw [execPeerDead, whenOn_eq h]
  simp only [hp, if_pos (Or.inr ht), State.framed_self]

/-! ## Lost sequences (R222, R435) -/

/-- Clearing one entry of the table of lost sequences frees its sequence in its slot, and the entry is empty. -/
theorem rosLostClear_entry {s : State} {v : Lane} {i : Fin 64} {slot : SlotId} {seq : BitVec 20} (h : Operates s)
    (hr : s.hostReaches R_ROS_LOST_CLEAR = true) (hv : v.getLsbD 7 = false) (hi : bits v.toNat 5 0 = i.val)
    (hl : s.lost[i] = some (slot, seq)) :
    exec (.rosLostClear v) s = .next (s.framed { s.freeSeq slot.val seq.toNat with
      lost := (s.freeSeq slot.val seq.toNat).lost.set i none }) := by
  obtain ⟨n, hn⟩ := i
  obtain rfl : _ = n := hi
  have hall : ¬v.getLsbD 7 = true := by rw [hv]; exact Bool.false_ne_true
  show execRosLostClear v s = _
  rw [execRosLostClear, hostWrite_eq h hr, if_neg hall]
  simp only [hl]

/-- Settles O52: a peer that is still heard and one that is dead, then the clear of one entry. -/
theorem deadPeersAndLostSequences : Obligations.DeadPeersAndLostSequences := by
  unfold Obligations.DeadPeersAndLostSequences
  refine ⟨fun s l p h hp hlive => ⟨peerDead_early h hp, fun ht => ?_⟩, fun s v i slot seq h hr hv hi hl => ?_⟩
  · show execPeerDead l s = _
    rw [execPeerDead, whenOn_eq h]
    have hd : ¬((!p.live) = true ∨ s.beat < p.lastHeard + s.deadBeats + s.delayTo l) := by
      simp [hlive, ht]
    simp only [hp, if_neg hd]
  · exact ⟨_, rosLostClear_entry h hr hv hi hl, by simp, rfl, rfl⟩

end Sys2Proof.Machine
end

section
/-! PROOF. Freed storage, and the switch of a position to its next core: what STORAGE_RETURN and FOLD_SWITCH do where they
apply, and the statement StorageAndFolding. -/

namespace Sys2Proof.Machine

/-! ## Freed storage (R222) -/

/-- A bin with room takes the storage at its front. -/
theorem binStorage_room {s : State} {slot cls : Nat} {w : Word} (h : (mapGet [] s.bins (binKey slot cls)).length < 64) :
    s.binStorage slot cls w =
      { s with bins := mapPut [] s.bins (binKey slot cls) (w :: mapGet [] s.bins (binKey slot cls)) } := by
  rw [State.binStorage]
  exact if_pos h

/-- Freed storage whose movements have all retired goes to its bin, where that has room. -/
theorem storageReturn_binned {s : State} {id : Nat} {f : Freed} (h : Operates s)
    (hf : s.freed.find? (fun f => f.id == id) = some f) (hb : ∀ i ∈ f.blockers, s.move? i = none)
    (hl : (mapGet [] s.bins (binKey f.slot f.cls)).length < 64) :
    exec (.storageReturn id) s = .next { s with
      freed := s.freed.filter (fun x => x.id != id)
      bins := mapPut [] s.bins (binKey f.slot f.cls) (f.storage :: mapGet [] s.bins (binKey f.slot f.cls)) } := by
  have hwait : f.blockers.any (fun i => (s.move? i).isSome) = false := by
    simpa using hb
  have hring : (!s.hostUp && decide (64 ≤ (mapGet [] s.bins (binKey f.slot f.cls)).length)) = false := by
    simp [hl]
  show execStorageReturn id s = _
  rw [execStorageReturn, whenOn_eq h]
  simp only [hf, hwait, hring, Bool.false_eq_true, if_false]
  rw [binStorage_room (by exact hl)]
  rfl

/-! ## The switch of a position (R55, R67, R68) -/

/-- The position `pos` is ready to switch: `out`, the core on it, gives it up, and no transfer of that core's bench is under
way; `n` is the lowest-numbered of the other cores that the position carries and that can run. -/
structure FoldReady (s : State) (part : PartId) (pos : Fin 15) (out n : Nat) (cOut cIn : CoreId) : Prop where
  operates : Operates s
  carried : ∃ first rest, carriedBy (s.part part).working pos.val = first :: rest ∧
    (mapGet none (s.part part).onPosition pos.val).getD first = out
  next : (carriedBy (s.part part).working pos.val).find? (fun m => m != out &&
    s.canRun (coreIdOf part ⟨m % 12, Nat.mod_lt _ (by decide)⟩)) = some n
  outgoing : coreIdOf part ⟨out % 12, Nat.mod_lt _ (by decide)⟩ = cOut
  incoming : coreIdOf part ⟨n % 12, Nat.mod_lt _ (by decide)⟩ = cIn
  givesUp : (s.core cOut).givesUp = true
  quiet : s.benchQuiet cOut = true

/-- The position passes from one core to another: the outgoing core's read buffer is emptied, and the incoming one is on. -/
def State.foldTo (s : State) (part : PartId) (pos : Fin 15) (n : Nat) (cOut : CoreId) : State :=
  (s.updCore cOut (fun x => { x with readBuffer := [] })).updPart part
    (fun x => { x with onPosition := mapPut none x.onPosition pos.val (some n) })

/-- What a switch leaves once the slot of the incoming core has been read: that state alone where a line was uncorrectable;
else the position passes to the incoming core, which starts its next kernel where it can. -/
def State.foldAfter (part : PartId) (pos : Fin 15) (n : Nat) (cOut cIn : CoreId) (slot : State × Bool) : State :=
  if slot.2 then
    if (slot.1.foldTo part pos n cOut).canBegin cIn then (slot.1.foldTo part pos n cOut).beginKernel cIn
    else slot.1.foldTo part pos n cOut
  else slot.1

/-- What FOLD_SWITCH does for a position that is ready. -/
theorem FoldReady.foldSwitch {s : State} {part : PartId} {pos : Fin 15} {out n : Nat} {cOut cIn : CoreId}
    (r : FoldReady s part pos out n cOut cIn) (parityError : Bool) :
    exec (.foldSwitch part pos parityError) s = .next (s.framed (
      if parityError then (if (s.core cOut).kernel.isSome then s.raise cOut exStateParity else s.saveFault cOut)
      else State.foldAfter part pos n cOut cIn (s.readFoldSlot part n ((s.core cIn).kernel.map (·.manifest))))) := by
  obtain ⟨h, ⟨first, rest, hc, rfl⟩, hn, ho, hi, hg, hq⟩ := r
  show execFoldSwitch part pos parityError s = _
  rw [hc] at hn
  rw [execFoldSwitch, whenOn_eq h]
  simp only [hc, hn, ho, hi, hg, hq]
  cases parityError with
  | true => rfl
  | false =>
    generalize s.readFoldSlot part n ((s.core cIn).kernel.map (·.manifest)) = slot
    obtain ⟨u, _ | _⟩ := slot <;> rfl

section foldTo
variable (s : State) (part : PartId) (pos : Fin 15) (n : Nat) (cOut c : CoreId)

@[simp] theorem State.foldTo_onPosition :
    ((s.foldTo part pos n cOut).part part).onPosition = mapPut none (s.part part).onPosition pos.val (some n) := by
  rw [State.foldTo, State.updPart, State.part_setPart_same]
  rfl

/-- A switch changes no core but in the read buffer of the outgoing one. -/
theorem State.foldTo_core : (s.foldTo part pos n cOut).core c =
    if c = cOut then { s.core c with readBuffer := [] } else s.core c := by
  have hcore : (s.foldTo part pos n cOut).core c = (s.updCore cOut (fun x => { x with readBuffer := [] })).core c := rfl
  rw [hcore]
  by_cases hc : c = cOut
  · rw [if_pos hc, hc, State.core_updCore_same]
  · rw [if_neg hc, State.core_updCore_other s cOut c _ hc]

theorem State.foldTo_readBuffer : ((s.foldTo part pos n cOut).core cOut).readBuffer = [] := by
  rw [State.foldTo_core, if_pos rfl]

@[simp] theorem State.foldTo_phase : ((s.foldTo part pos n cOut).core c).phase = (s.core c).phase := by
  rw [State.foldTo_core]; split <;> rfl

@[simp] theorem State.foldTo_s : ((s.foldTo part pos n cOut).core c).s = (s.core c).s := by
  rw [State.foldTo_core]; split <;> rfl

@[simp] theorem State.foldTo_pc : ((s.foldTo part pos n cOut).core c).pc = (s.core c).pc := by
  rw [State.foldTo_core]; split <;> rfl

end foldTo

/-- A core that runs begins no kernel. -/
theorem canBegin_running {s : State} {c : CoreId} (h : (s.core c).phase = .running) : s.canBegin c = false := by
  simp [State.canBegin, h]

/-- Settles O22: the return of storage to a bin with room, then the switch with a parity error in the save, with an
uncorrectable line in the slot, and to a core that runs. -/
theorem storageAndFolding : Obligations.StorageAndFolding := by
  unfold Obligations.StorageAndFolding
  refine ⟨fun s id f h hf hb hl => storageReturn_binned h hf hb hl, ?_⟩
  intro s part pos first rest n carried idOf out h hc hn hg hq
  have ready : FoldReady s part pos out n (idOf out) (idOf n) := ⟨h, ⟨first, rest, hc, rfl⟩, hn, rfl, rfl, hg, hq⟩
  refine ⟨fun hk => ?_, fun u hr => ?_, fun hrun _ hr => ?_⟩
  · rw [ready.foldSwitch, if_pos rfl, if_pos hk]
  · rw [ready.foldSwitch, hr]
    rfl
  have hstay : (s.foldTo part pos n (idOf out)).canBegin (idOf n) = false :=
    canBegin_running ((s.foldTo_phase part pos n (idOf out) (idOf n)).trans hrun)
  refine ⟨s.framed (s.foldTo part pos n (idOf out)), ?_, s.foldTo_onPosition part pos n _,
    s.foldTo_readBuffer part pos n _, s.foldTo_s part pos n _ _, s.foldTo_pc part pos n _ _⟩
  rw [ready.foldSwitch, hr, State.foldAfter, hstay]
  rfl

end Sys2Proof.Machine
end

section
/-! PROOF. The mailbox and the Ferryman: which block is accepted, what the commands that answer at once do, how the Ferryman
restarts and runs again, and the statement MailboxAndFerryman. -/

namespace Sys2Proof.Machine

/-! ## Which block is accepted (R552 to R554) -/

/-- The eleven commands of the mailbox run one operation, which differs in the OP and its effect alone; class 4 is not shed. -/
theorem exec_eq_mailCommand {s : State} {op : Nat} {i : Option (BitVec 14) → Instr} {run : State → Nat → State}
    (hi : (op = 1 ∧ i = .seqset) ∨ (op = 2 ∧ i = .retire) ∨ (op = 3 ∧ i = .retireClear) ∨ (op = 4 ∧ i = .extend) ∨
      (op = 5 ∧ i = .compose) ∨ (op = 6 ∧ i = .handoff) ∨ (op = 7 ∧ i = fun b => .fwWrite b true true) ∨
      (op = 8 ∧ i = fun b => .cfgWrite b true true) ∨ (s.regBit R_FER_STATUS 20 = false ∧
        ((op = 9 ∧ i = .journalRead) ∨ (op = 10 ∧ i = .faultSummary) ∨ (op = 11 ∧ i = .telemetry))))
    (hr : mailRun op = some run) (busy : Option (BitVec 14)) : exec (i busy) s = mailCommand op busy run s := by
  have hshed (h : s.regBit R_FER_STATUS 20 = false) : s.busyClass4 busy = busy := by
    simp [State.busyClass4, h]
  obtain ⟨rfl, rfl⟩ | ⟨rfl, rfl⟩ | ⟨rfl, rfl⟩ | ⟨rfl, rfl⟩ | ⟨rfl, rfl⟩ | ⟨rfl, rfl⟩ | ⟨rfl, rfl⟩ | ⟨rfl, rfl⟩ | ⟨h, hi⟩ := hi
  case inr.inr.inr.inr.inr.inr.inr.inr =>
    obtain ⟨rfl, rfl⟩ | ⟨rfl, rfl⟩ | ⟨rfl, rfl⟩ := hi <;> obtain rfl := Option.some.inj hr
    · show mailCommand 9 (s.busyClass4 busy) runJournalRead s = _
      rw [hshed h]
    · show mailCommand 10 (s.busyClass4 busy) runFaultSummary s = _
      rw [hshed h]
    · show mailCommand 11 (s.busyClass4 busy) runTelemetry s = _
      rw [hshed h]
  all_goals
    obtain rfl := Option.some.inj hr
    rfl

/-- The host writes GO for a block whose OP is `op`, while no answer is pending and the Ferryman serves. -/
structure MailServed (s : State) (op : Nat) : Prop where
  operates : Operates s
  reaches : s.hostReaches R_FER_REQ = true
  block : s.hostNat s.mailBlock 2 = op
  idle : s.regBit R_FER_ACCEPT 31 = false
  started : s.devState ≠ devFailed
  ferry : s.ferryDown = false

/-- The answer in FER_ACCEPT changes that register alone. -/
theorem framed_ferAccept (s : State) (result retry : Nat) : s.framed (s.ferAccept result retry) = s.ferAccept result retry :=
  State.framed_eq s _ rfl rfl rfl rfl rfl

section served
variable {s : State} {op : Nat} {run : State → Nat → State}

theorem MailServed.mailGo_badBlock (h : MailServed s op) (hb : s.blockOk s.mailBlock = false) (busy : Option (BitVec 14)) :
    s.mailGo op busy run = s.ferAccept accBadBlock 0 := by
  simp [State.mailGo, h.block, h.idle, h.started, h.ferry, hb]

theorem MailServed.mailGo_busy (h : MailServed s op) (hb : s.blockOk s.mailBlock = true) (us : BitVec 14) :
    s.mailGo op (some us) run = s.ferAccept accBusy us.toNat := by
  simp [State.mailGo, h.block, h.idle, h.started, h.ferry, hb]

theorem MailServed.badBlock (h : MailServed s op) (hb : s.blockOk s.mailBlock = false) (busy : Option (BitVec 14)) :
    mailCommand op busy run s = .next (s.ferAccept accBadBlock 0) := by
  rw [mailCommand, hostWrite_eq h.operates h.reaches, h.mailGo_badBlock hb, framed_ferAccept]

theorem MailServed.busy (h : MailServed s op) (hb : s.blockOk s.mailBlock = true) (us : BitVec 14) :
    mailCommand op (some us) run s = .next (s.ferAccept accBusy us.toNat) := by
  rw [mailCommand, hostWrite_eq h.operates h.reaches, h.mailGo_busy hb, framed_ferAccept]

theorem MailServed.accepted (h : MailServed s op) (hb : s.blockOk s.mailBlock = true) :
    mailCommand op none run s = .next (s.framed (run (s.ferAccept accAccepted 0) s.mailBlock)) :=
  mailCommand_eq h.operates h.reaches h.block h.idle h.started h.ferry hb

end served

/-! ## Commands that answer at once (R60, R62, R213, R489, R546, R553) -/

/-- A command whose arguments are sound answers with what its act gives. -/
theorem mailNow_ok {ok : State → Nat → Bool} {act : State → Nat → State × Nat × List (Nat × List Byte)} {s t : State}
    {b result : Nat} {outs : List (Nat × List Byte)} (h : ok s b = true) (ha : act s b = (t, result, outs)) :
    mailNow ok act s b = t.mailReply b result outs := by
  simp only [mailNow, h, ha]
  rfl

/-- A command that fills a buffer of the host writes it, and answers OK. -/
theorem copyOut_ok {data : State → List Byte} {s : State} {b : Nat} (hc : s.argsClear b [(0x10, 8)] = true)
    (ha : hostAddrOk (s.arg b 0x10 8) 64 = true) :
    copyOut data s b = (s.publish (s.arg b 0x10 8) (data s) []).mailReply b mailOk [] :=
  mailNow_ok (by rw [hc, ha]; rfl) rfl

theorem runRetire_ok {s : State} {b : Nat} (hc : s.argsClear b [(0x10, 1), (0x11, 1)] = true) (hp : s.arg b 0x10 1 < 16)
    (hpos : s.arg b 0x11 1 < 15) :
    runRetire s b = (s.retireRequest (partOf (s.arg b 0x10 1)) (s.arg b 0x11 1)).mailReply b mailOk [] :=
  mailNow_ok (by simp [hc, hp, hpos]) rfl

section extend
variable {s : State} {b : Nat}

/-- EXTEND after the record of measurements is closed changes nothing and answers STATE. -/
theorem runExtend_closed (hc : s.argsClear b [(0x10, 1), (0x20, 32)] = true) (hlo : 5 ≤ s.arg b 0x10 1)
    (hhi : s.arg b 0x10 1 ≤ 7) (hk : s.key.closed.isSome = true) : runExtend s b = s.mailReply b mailState [] :=
  mailNow_ok (by simp [hc, hlo, hhi]) (by rw [if_pos hk])

theorem runExtend_open (hc : s.argsClear b [(0x10, 1), (0x20, 32)] = true) (hlo : 5 ≤ s.arg b 0x10 1)
    (hhi : s.arg b 0x10 1 ≤ 7) (hk : s.key.closed = none) :
    runExtend s b = (s.extendMeas (s.arg b 0x10 1) (s.hostRead (b + 0x20) 32)).mailReply b mailOk [] :=
  mailNow_ok (by simp [hc, hlo, hhi]) (by rw [hk]; rfl)

end extend

/-- SEQSET for a slot with an entry that is not Free changes nothing and answers SLOT_BUSY. -/
theorem runSeqset_busy {s : State} {b : Nat} (hc : s.argsClear b [(0x10, 1), (0x18, 8), (0x20, 8)] = true)
    (hs : s.arg b 0x10 1 < 16) (h1 : hostAddrOk (s.arg b 0x18 8) 64 = true) (h2 : hostAddrOk (s.arg b 0x20 8) 32 = true)
    (hb : s.slotInState (s.arg b 0x10 1) = true) : runSeqset s b = s.mailReply b slotBusy [] :=
  mailNow_ok (by simp [hc, hs, h1, h2]) (by simp only [hb, if_true])

/-! ## A restart (R551, R555) -/

/-- The requests whose answers the Ferryman still owes: handoffs taken and composition requests. -/
def State.waits (s : State) : List Handoff × List (Lane × MailWait) := (s.handoffsTaken, s.composeWaits)

section waits
variable (s : State)

theorem books_waits {s t : State} (h : BooksOnly s t) : t.waits = s.waits := by
  rw [h]
  rfl

theorem foldl_waits {α : Type} (f : State → α → State) (h : ∀ s a, (f s a).waits = s.waits) (l : List α) :
    (l.foldl f s).waits = s.waits := by
  induction l generalizing s with
  | nil => rfl
  | cons a l ih => rw [List.foldl_cons, ih, h]

@[simp] theorem publish_waits (a : Nat) (bs : List Byte) (vs : List Nat) : (s.publish a bs vs).waits = s.waits :=
  books_waits (publish_books s a bs vs)

@[simp] theorem mailReply_waits (b result : Nat) (outs : List (Nat × List Byte)) :
    (s.mailReply b result outs).waits = s.waits := by
  unfold State.mailReply
  rw [publish_waits, publish_waits, foldl_waits _ _ (fun s o => publish_waits s _ _ _)]

@[simp] theorem setRegField_waits (off hi lo v : Nat) : (s.setRegField off hi lo v).waits = s.waits := rfl

@[simp] theorem setFerryDown_waits (down : Bool) : State.waits { s with ferryDown := down } = s.waits := rfl

@[simp] theorem framed_waits (t : State) : (s.framed t).waits = t.waits := rfl

@[simp] theorem ferAccept_waits (result retry : Nat) : (s.ferAccept result retry).waits = s.waits := rfl

theorem inject_waits (line : Nat) : (s.inject line).waits = s.waits := by
  unfold State.inject
  split <;> rfl

theorem markRewritten_waits (line : Nat) : (s.markRewritten line).waits = s.waits := by
  unfold State.markRewritten
  split
  · split <;> rfl
  · rfl

@[simp] theorem zeroRange_waits (lo hi : Nat) : (s.zeroRange lo hi).waits = s.waits := by
  unfold State.zeroRange
  rw [foldl_waits _ _ markRewritten_waits]
  split
  · exact inject_waits _ _
  · rfl

@[simp] theorem zeroFerryArea_waits : s.zeroFerryArea.waits = s.waits := by
  unfold State.zeroFerryArea
  dsimp only
  rw [foldl_waits]
  · exact zeroRange_waits s _ _
  · exact fun _ _ => rfl

/-- What waits in the mailbox ends. -/
@[simp] theorem abortMail_waits : s.abortMail.waits = ([], []) := by
  unfold State.abortMail
  have hreplies (bs : List Nat) (u : State) : (bs.foldl (fun s b => s.mailReply b mailAborted []) u).waits = u.waits :=
    foldl_waits u _ (fun s b => mailReply_waits s b mailAborted []) bs
  dsimp only
  split
  · rw [mailReply_waits, ferAccept_waits, hreplies]
    rfl
  · rw [hreplies]
    rfl

theorem ferryRestart_waits : s.ferryRestart.waits = ([], []) := by
  rw [State.ferryRestart, State.setFerState, setRegField_waits, setFerryDown_waits, zeroFerryArea_waits, abortMail_waits]

theorem ferryRestart_down : s.ferryRestart.ferryDown = true := rfl

end waits

theorem ferRestart_restarts {s : State} {v : Lane} (h : Operates s) (hr : s.hostReaches R_FER_RESTART = true)
    (hv : v.getLsbD 31 = true) (hu : s.devUp = true) : exec (.ferRestart v) s = .next (s.framed s.ferryRestart) := by
  show execFerRestart v s = _
  rw [execFerRestart, hostWrite_eq h hr, if_pos ⟨hv, hu⟩]

/-! ## The heartbeat (R257, R547, R549, R551) -/

/-- The heartbeat counts one interval. -/
def State.ferryBeat (s : State) : State :=
  s.setReg R_FER_HEARTBEAT (BitVec.ofNat 64 (((s.reg R_FER_HEARTBEAT).toNat + 1) % 2 ^ 32))

section heartbeat
variable {s : State}

theorem ferryHeartbeat_counts (h : Operates s) (hs : s.ferState = ferRunning) (hf : s.ferryDown = false)
    (hu : s.ferryUe = none) : exec .ferryHeartbeat s = .next (s.framed s.ferryBeat) := by
  show execFerryHeartbeat s = _
  rw [execFerryHeartbeat, whenOn_eq h, if_pos ⟨hs, by simp [hf]⟩]
  simp only [hu]
  rfl

theorem ferryHeartbeat_restarts (h : Operates s) (hs : s.ferState = ferRunning) (hf : s.ferryDown = false) {line : Nat}
    (hu : s.ferryUe = some line) : exec .ferryHeartbeat s =
      .next (s.framed (State.ferryRestart ((s.addFault (memFault 1 (some 15) line)).listUe line))) := by
  show execFerryHeartbeat s = _
  rw [execFerryHeartbeat, whenOn_eq h, if_pos ⟨hs, by simp [hf]⟩]
  simp only [hu]

/-- The first heartbeat after a restart: the Ferryman runs again, and serves a berth request kept meanwhile. -/
theorem ferryHeartbeat_resumes (h : Operates s) (hs : s.ferState = ferRestarting) (hp : (s.part 15).state ≠ .stranded) :
    exec .ferryHeartbeat s =
      .next (s.framed (State.setFerState { s with ferryDown := false } ferRunning).ferryBeat.brtResume) := by
  have hne : ¬s.ferState = ferRunning := by rw [hs]; decide
  show execFerryHeartbeat s = _
  rw [execFerryHeartbeat, whenOn_eq h, if_neg (fun hr => hne hr.1), if_pos ⟨hs, hp⟩]
  rfl

end heartbeat

/-- The load sheds class 4 and class 3 by the longest wait of the classes before them (R550). -/
theorem ferryShed_sheds {s : State} (h : Operates s) (us : Nat) : exec (.ferryShed us) s =
    .next (s.setRegField R_FER_STATUS 21 20 ((if 100 < us then 1 else 0) + (if 500 < us then 2 else 0))) := by
  show execFerryShed us s = _
  rw [execFerryShed, whenOn_eq h]
  rfl

/-! ## A berth request served leaves the Ferryman as it is (R316, R317, R551) -/

section berths
variable (s : State)

@[simp] theorem brtAnswer_ferryDown (result retry : Nat) : (s.brtAnswer result retry).ferryDown = s.ferryDown := rfl

@[simp] theorem brtServe_ferryDown (b : BerthId) : (s.brtServe b).ferryDown = s.ferryDown := rfl

@[simp] theorem load_ferryDown (b : BerthId) (ctx : Nat) : (s.load b ctx).ferryDown = s.ferryDown := by
  unfold State.load
  dsimp only
  split
  · rfl
  split
  · rfl
  split
  · rfl
  split
  · rfl
  split <;> rfl

@[simp] theorem unload_ferryDown (b : BerthId) (ctx : Nat) : (s.unload b ctx).ferryDown = s.ferryDown := by
  unfold State.unload
  split <;> rfl

theorem brtPerform_ferryDown : s.brtPerform.ferryDown = s.ferryDown := by
  unfold State.brtPerform
  dsimp only
  split
  · split
    · exact load_ferryDown s _ _
    · split
      · exact unload_ferryDown s _ _
      · rfl
  · rfl

theorem brtResume_ferryDown : s.brtResume.ferryDown = s.ferryDown := by
  unfold State.brtResume
  split
  · exact brtPerform_ferryDown s
  · rfl

end berths

/-- Settles O59: the acceptance of a block, the commands that answer at once, then the restart, the heartbeat and the load. -/
theorem mailboxAndFerryman : Obligations.MailboxAndFerryman := by
  unfold Obligations.MailboxAndFerryman
  refine ⟨fun s op i run h hi hrun hr hop ha hd hf => ?_, fun s b => ⟨?retire, ?extend, ?seqset, ?journal, ?summary, ?telemetry⟩,
    fun s h => ⟨fun v hr hv hu => ?restart, fun hs hf => ⟨fun hu => ?counts, fun line hu => ?restarts⟩, fun hs hp => ?resumes,
      fun us => ferryShed_sheds h us⟩⟩
  · have served : MailServed s op := ⟨h, hr, hop, ha, hd, hf⟩
    simp only [exec_eq_mailCommand hi hrun]
    exact ⟨fun hb => served.badBlock hb none, fun hb => ⟨served.busy hb, served.accepted hb⟩⟩
  case retire =>
    intro run hrun hc hp hpos
    obtain rfl := Option.some.inj hrun
    exact runRetire_ok hc hp hpos
  case extend =>
    intro run hrun hc hlo hhi
    obtain rfl := Option.some.inj hrun
    exact ⟨runExtend_closed hc hlo hhi, runExtend_open hc hlo hhi⟩
  case seqset =>
    intro run hrun hc hs h1 h2 hb
    obtain rfl := Option.some.inj hrun
    exact runSeqset_busy hc hs h1 h2 hb
  case journal | summary | telemetry =>
    intro run hrun hc ha
    obtain rfl := Option.some.inj hrun
    exact copyOut_ok hc ha
  case restart =>
    have hw : (s.framed s.ferryRestart).waits = ([], []) := by
      rw [framed_waits, ferryRestart_waits]
    obtain ⟨hto, hco⟩ := Prod.mk.inj hw
    exact ⟨_, ferRestart_restarts h hr hv hu, ferryRestart_down s, hto, hco⟩
  case counts => exact ferryHeartbeat_counts h hs hf hu
  case restarts => exact ferryHeartbeat_restarts h hs hf hu
  case resumes => exact ⟨ferryHeartbeat_resumes h hs hp, brtResume_ferryDown _⟩

end Sys2Proof.Machine
end

section
/-! PROOF. The block map: how an instruction on a key runs where its key is served, what the state of an entry makes of each
operation, and the statement BlocksAndTheirStates. -/

namespace Sys2Proof.Machine

/-! ## A result in a scalar register (R72) -/

section setS
variable (c : CoreSt) (i : Fin 32) (v : Word)

@[simp] theorem CoreSt.setS_phase : (c.setS i v).phase = c.phase := by unfold CoreSt.setS; split <;> rfl
@[simp] theorem CoreSt.setS_kernel : (c.setS i v).kernel = c.kernel := by unfold CoreSt.setS; split <;> rfl
@[simp] theorem CoreSt.setS_text : (c.setS i v).text = c.text := by unfold CoreSt.setS; split <;> rfl
@[simp] theorem CoreSt.setS_pc : (c.setS i v).pc = c.pc := by unfold CoreSt.setS; split <;> rfl

end setS

@[simp] theorem State.framed_core (s t : State) (c : CoreId) : (s.framed t).core c = t.core c := rfl

/-- An instruction of one word whose operation leaves its core as it was but for a result in DST moves to the next word. -/
theorem runCore_result {s t : State} {a : CoreOp} {f : Form} {body : State → CoreSt → Body} {v : Word}
    (h : Dispatches s a f) (hw : f.words = 1) (hl : FallsThrough s a 1) (hb : body s (s.core a.core) = .next t)
    (hc : t.core a.core = (s.core a.core).setS a.dst v) :
    runCore a f body s =
      .next (s.framed (t.updCore a.core (fun x => { x with pc := BitVec.ofNat 32 (x.pc.toNat + 1) }))) := by
  rw [runCore_eq h hw, hb, applyBody_next]
  · rw [hc, CoreSt.setS_phase]
    exact h.running
  · rw [hc, CoreSt.setS_kernel]
  · rw [hc, CoreSt.setS_text, CoreSt.setS_pc]
    exact hl

/-! ## An instruction on a key (R209, R223, R247, R430, R435) -/

/-- The key of an instruction on `a`'s core names a block of a sequence that is not lost, and no lookup of the blocks of
these ranges waits. -/
structure KeyServed (s : State) (a : CoreOp) (k : KernelSlot) (m : Manifest) (key : Nat) (blocks : List (Nat × Nat)) :
    Prop where
  running : s.running a.core = some (k, m)
  sound : keyOk key = true
  line : keyLine key = 0
  kept : s.seqLost m.vslot.val (keySeq key) = false
  backed : (s.part 0).state ≠ .resetting
  free : s.spanWaits m.vslot.val key blocks = false

theorem KeyServed.withKey {s : State} {a : CoreOp} {k : KernelSlot} {m : Manifest} {key : Nat} {blocks : List (Nat × Nat)}
    (h : KeyServed s a k m key blocks) (f : Manifest → Body) : withKey a s key blocks f = f m := by
  simp [Machine.withKey, h.running, h.sound, h.line, h.kept, h.backed, h.free]

/-- An instruction on a key leaves the result `v` in DST and moves to the next word; of the block map it leaves what its
operation on the entries, `u`, leaves. -/
def MapAnswers (i : Instr) (a : CoreOp) (s u : State) (v : Word) : Prop :=
  ∃ t, exec i s = .next t ∧
    t.core a.core = { (s.core a.core).setS a.dst v with pc := BitVec.ofNat 32 ((s.core a.core).pc.toNat + 1) } ∧
    t.resident = u.resident ∧ t.bins = u.bins ∧ t.freed = u.freed ∧ t.mem = u.mem

section answers
variable {i : Instr} {a : CoreOp} {s u : State} {legal : Bool} {body : State → CoreSt → Body} {v : Word} {id : Nat}
  {qs : List Nat}

/-- The core after a result is written to DST and the sequences of the job are noted. -/
theorem noteSeqs_result_core (hc : u.cores = s.cores) :
    (State.noteSeqs (u.updCore a.core (fun x => x.setS a.dst v)) id qs).core a.core = (s.core a.core).setS a.dst v := by
  have hcore : u.core a.core = s.core a.core := by rw [State.core, State.core, hc]
  show (u.updCore a.core (fun x => x.setS a.dst v)).core a.core = _
  rw [State.core_updCore_same, hcore]

theorem mapAnswers_of_body (hi : exec i s = runCore a (sbForm legal) body s) (h : Dispatches s a (sbForm legal))
    (hl : FallsThrough s a 1) (hc : u.cores = s.cores)
    (hb : body s (s.core a.core) = .next (State.noteSeqs (u.updCore a.core (fun x => x.setS a.dst v)) id qs)) :
    MapAnswers i a s u v := by
  have hcore := noteSeqs_result_core (a := a) (v := v) (id := id) (qs := qs) hc
  refine ⟨_, hi.trans (runCore_result h rfl hl hb hcore), ?_, rfl, rfl, rfl, rfl⟩
  rw [State.framed_core, State.core_updCore_same, hcore, CoreSt.setS_pc]

theorem sbFinish_next {m : Manifest} {seq : Nat} {r : State × Nat × Nat} (hr : r.2.1 ≠ sbUe) : sbFinish a m seq r =
    .next (State.noteSeqs (r.1.updCore a.core (fun x => x.setS a.dst (sbStatus r.2.1 r.2.2))) m.id [seq]) := by
  rw [sbFinish, if_neg hr]

/-- What an instruction answers whose operation on the entries of its range leaves `r`: the first status other than OK and the
count of those that succeeded, where no line of the map was uncorrectable. -/
def RangeAnswers (i : Instr) (a : CoreOp) (s : State) (r : State × Nat × Nat) : Prop :=
  r.2.1 ≠ sbUe → r.1.cores = s.cores → MapAnswers i a s r.1 (sbStatus r.2.1 r.2.2)

theorem rangeAnswers_of_body {m : Manifest} {seq : Nat} {r : State × Nat × Nat}
    (hi : exec i s = runCore a (sbForm legal) body s) (h : Dispatches s a (sbForm legal)) (hl : FallsThrough s a 1)
    (hb : body s (s.core a.core) = sbFinish a m seq r) : RangeAnswers i a s r :=
  fun hr hc => mapAnswers_of_body hi h hl hc (hb.trans (sbFinish_next hr))

end answers

/-! ## The five instructions (R223 to R225) -/

section instructions
variable {a : CoreOp} {s : State} {k : KernelSlot} {m : Manifest} {key count cls : Nat}

/-- CLASS is IMM[3:0]. -/
theorem opImm_class (a : CoreOp) : opImm a 3 0 = a.imm.toNat % 16 := by
  simp [opImm, bits]

theorem sbnew_answers (hcls : opImm a 3 0 = cls) (hx : (opX a (s.core a.core)).toNat = key)
    (hk : KeyServed s a k m key [(keyBlock key, keyBlock key)])
    (ha : s.allocWaits [blockName m.vslot.val key] m.vslot.val cls = false)
    (h : Dispatches s a (sbForm (noSrc2 a && immBelow a 4))) (hl : FallsThrough s a 1) :
    RangeAnswers (.sbnew a) a s
      (sbRange (fun s n => s.sbnewOne n cls) 1 s (blockName m.vslot.val key) sbOk 0) := by
  subst hcls hx
  refine rangeAnswers_of_body rfl h hl ((hk.withKey _).trans (if_neg ?_))
  exact Bool.eq_false_iff.mp ha

/-- SBCMT and SBFREE run one operation over a range, which differs in what it does to an entry alone. -/
theorem sbOverRange_answers {i : Instr} {op : State → BlockName → State × Nat} (hi : exec i s = sbOverRange a op s)
    (hx : (opX a (s.core a.core)).toNat = key) (hy : (opY a (s.core a.core)).toNat = count)
    (hk : KeyServed s a k m key [(keyBlock key, keyBlock key + count - 1)]) (hr : sbRangeOk (keyBlock key) count = true)
    (h : Dispatches s a (sbForm (noImm a))) (hl : FallsThrough s a 1) :
    RangeAnswers i a s (sbRange op count s (blockName m.vslot.val key) sbOk 0) := by
  subst hx hy
  refine rangeAnswers_of_body hi h hl ((hk.withKey _).trans (if_neg ?_))
  rw [hr]
  decide

theorem stree_answers (hcls : opImm a 3 0 = cls) (hx : (opX a (s.core a.core)).toNat = key)
    (hy : (opY a (s.core a.core)).toNat = count) (hk : KeyServed s a k m key [treeRange]) (hlo : 1 ≤ count)
    (hhi : count ≤ 64) (hblock : keyBlock key = 0)
    (ha : s.allocWaits ((List.range (ceilDiv count 16)).map (fun i =>
      { blockName m.vslot.val key with block := treeBlock0 + i })) m.vslot.val cls = false)
    (h : Dispatches s a (sbForm (immBelow a 4))) (hl : FallsThrough s a 1) :
    RangeAnswers (.stree a) a s (sbRange (fun s n => s.sbnewOne n cls) (ceilDiv count 16) s
      { blockName m.vslot.val key with block := treeBlock0 } sbOk 0) := by
  subst hcls hx hy
  have hsound : ¬((opY a (s.core a.core)).toNat = 0 ∨ 64 < (opY a (s.core a.core)).toNat ∨
      keyBlock (opX a (s.core a.core)).toNat ≠ 0) := by omega
  refine rangeAnswers_of_body rfl h hl ((hk.withKey _).trans ((if_neg hsound).trans (if_neg ?_)))
  exact Bool.eq_false_iff.mp ha

/-- An In transit block reads as Committed. -/
theorem sbstat_answers {u : State} {e : BlockEntry} (hx : (opX a (s.core a.core)).toNat = key)
    (hk : KeyServed s a k m key [(keyBlock key, keyBlock key)])
    (he : s.lookup (blockName m.vslot.val key) = (u, .entry e)) (hc : u.cores = s.cores)
    (h : Dispatches s a (sbForm (noSrc2 a && noImm a))) (hl : FallsThrough s a 1) :
    MapAnswers (.sbstat a) a s u
      (BitVec.ofNat 64 (4 * e.cls + if e.state = stInTransit then stCommitted else e.state)) := by
  subst hx
  refine mapAnswers_of_body (id := m.id) (qs := [keySeq (opX a (s.core a.core)).toNat]) rfl h hl hc
    ((hk.withKey _).trans ?_)
  dsimp only
  rw [he]

end instructions

/-! ## What an entry makes of each operation (R222, R224, R225) -/

section entry
variable {s u : State} {n : BlockName} {e : BlockEntry}

theorem sbnewOne_unusable {cls : Nat} (hu : (s.classRec n.slot cls).usable = false) : s.sbnewOne n cls = (s, sbClass) := by
  simp [State.sbnewOne, hu]

theorem sbnewOne_entry {cls : Nat} (hu : (s.classRec n.slot cls).usable = true) (he : s.lookup n = (u, .entry e)) :
    s.sbnewOne n cls = if e.state = stFree then u.allocate n cls
      else if e.state = stInTransit then (u, sbState) else if e.cls = cls then (u, sbOk) else (u, sbExists) := by
  simp [State.sbnewOne, hu, he]

theorem sbnewOne_held {cls : Nat} (hu : (s.classRec n.slot cls).usable = true) (he : s.lookup n = (u, .entry e))
    (hf : e.state ≠ stFree) :
    s.sbnewOne n cls = (u, if e.state = stInTransit then sbState else if e.cls = cls then sbOk else sbExists) := by
  rw [sbnewOne_entry hu he, if_neg hf]
  split
  · rfl
  · split <;> rfl

theorem sbcmtOne_entry (he : s.lookup n = (u, .entry e)) : s.sbcmtOne n =
    if e.state = stProvisional then changed (u.changeEntry n { e with state := stCommitted }) sbOk
    else if e.state = stFree then (u, sbState) else (u, sbOk) := by
  simp [State.sbcmtOne, he]

theorem sbfreeOne_entry (he : s.lookup n = (u, .entry e)) : s.sbfreeOne n =
    if e.state = stFree then (u, sbOk) else if e.state = stInTransit then (u, sbState)
    else changed (State.releaseStorage (u.changeEntry n .free).1 n.slot e, (u.changeEntry n .free).2) sbOk := by
  simp [State.sbfreeOne, he]

/-- Released storage waits for the movements that resolved it, and for those alone. -/
theorem releaseStorage_freed (slot : Nat) : ∃ f, (u.releaseStorage slot e).freed = u.freed ++ [f] ∧
    f.storage = e.storage ∧ f.cls = e.cls ∧ f.slot = slot ∧
    ∀ i ∈ f.blockers, ∃ v ∈ (u.releaseStorage slot e).moves, v.id = i ∧ v.blocks.contains e.storage.toNat = true := by
  refine ⟨_, rfl, rfl, rfl, rfl, fun i hi => ?_⟩
  obtain ⟨v, hv, rfl⟩ := List.mem_map.mp hi
  obtain ⟨hm, hb⟩ := List.mem_filter.mp hv
  exact ⟨v, hm, rfl, hb⟩

end entry

/-- Settles O20: each instruction is `withKey` on a key that is served, then its range or its entry; each operation is the
branch of the entry's state. -/
theorem blocksAndTheirStates : Obligations.BlocksAndTheirStates := by
  unfold Obligations.BlocksAndTheirStates
  refine ⟨?_, fun s u n e he => ⟨fun cls hu => sbnewOne_unusable hu, fun cls hu hf => sbnewOne_held hu he hf,
    fun hp v hv => ?provisional, fun hf => ⟨?freeCommit, ?freeFree⟩, fun hc => ?committed, fun ht => ?inTransit,
    fun hf ht v hv => ?release⟩⟩
  · intro a s k m
    dsimp only
    intro hrun hok hline hlost hpart hl
    have served {blocks : List (Nat × Nat)}
        (hfree : s.spanWaits m.vslot.val (opX a (s.core a.core)).toNat blocks = false) :
        KeyServed s a k m (opX a (s.core a.core)).toNat blocks := ⟨hrun, hok, hline, hlost, hpart, hfree⟩
    refine ⟨fun hd hfree ha => sbnew_answers (opImm_class a) rfl (served hfree) ha hd hl,
      fun hd hfree hrange => ⟨sbOverRange_answers rfl rfl rfl (served hfree) hrange hd hl,
        sbOverRange_answers rfl rfl rfl (served hfree) hrange hd hl⟩,
      fun hd hfree h1 h64 hblock ha => stree_answers (opImm_class a) rfl rfl (served hfree) h1 h64 hblock ha hd hl,
      fun hd hfree u e hu hc => ?stat⟩
    obtain ⟨t, ht, hcore, -⟩ := sbstat_answers rfl (served hfree) hu hc hd hl
    exact ⟨t, ht, hcore⟩
  case provisional => rw [sbcmtOne_entry he, if_pos hp, hv]; rfl
  case freeCommit => rw [sbcmtOne_entry he, hf]; rfl
  case freeFree => rw [sbfreeOne_entry he, if_pos hf]
  case committed => rw [sbcmtOne_entry he, hc]; rfl
  case inTransit => rw [sbfreeOne_entry he, ht]; rfl
  case release =>
    obtain ⟨f, hfreed, hstorage, hcls, hslot, hblockers⟩ := releaseStorage_freed (u := v) (e := e) n.slot
    refine ⟨v.releaseStorage n.slot e, f, ?_, hfreed, hstorage, hcls, hslot, hblockers⟩
    rw [sbfreeOne_entry he, if_neg hf, if_neg ht, hv]
    rfl

end Sys2Proof.Machine
end

section
/-! PROOF. Draft trees: what SANC and SACPT write, how SCMT runs on a sound record, key and position, and the statement
DraftTrees. -/

namespace Sys2Proof.Machine

/-! ## SANC and SACPT (R228, R229) -/

theorem opNodes_eq (a : CoreOp) : opNodes a = a.imm.toNat % 128 := by
  simp [opNodes, opImm, bits]

/-- The core after SANC: DST holds the mask of a node and its ancestors. -/
def ancestorMask (a : CoreOp) (c : CoreSt) : CoreSt :=
  c.setS a.dst (BitVec.ofNat 64 (ancestors c (opX a c).toNat 64 (opY a c).toNat))

/-- The path that SACPT accepts: the root, then the nodes of its walk. -/
def acceptedPath (a : CoreOp) (c : CoreSt) : List Nat := 0 :: acceptWalk c (opX a c).toNat (opNodes a) 64 0

/-- The core after SACPT: ACCEPTED and PATH in the record, and in DST the sample of the last node, that node and the count. -/
def acceptTree (a : CoreOp) (c : CoreSt) : CoreSt :=
  let r := (opX a c).toNat
  let path := acceptedPath a c
  let last := path.getLastD 0
  ((c.putBytes (r + 8) [BitVec.ofNat 8 (path.length - 1)]).putBytes (r + 0x280)
    ((List.range 64).map (fun j => BitVec.ofNat 8 (path.getD j 0xFF)))).setS a.dst
    (BitVec.ofNat 64 (c.treeSample r last * 2 ^ 32 + last * 256 + (path.length - 1)))

/-- What an instruction leaves depends on its change of the core as it stands. -/
theorem afterInstr_congr {s : State} {a : CoreOp} {n : Nat} {g g' : CoreSt → CoreSt} {fl : FpFlags}
    (h : g (s.core a.core) = g' (s.core a.core)) : afterInstr s a n g fl = afterInstr s a n g' fl := by
  simp only [afterInstr, State.updCore, orFlags_core, h]

theorem sanc_completes (a : CoreOp) : Completes (.sanc a) a (specForm a (immBelow a 7))
    (fun c => treeFault c (opX a c).toNat (opNodes a) = none ∧ (opY a c).toNat < opNodes a) (ancestorMask a) (fun _ => 0) := by
  refine completes_of_body (fun _ => rfl) (fun s _ ⟨ht, hn⟩ => ?_) (fun c => by simp [ancestorMask])
  simp only [ht, if_neg (Nat.not_le.mpr hn)]
  rfl

theorem sacpt_completes (a : CoreOp) : Completes (.sacpt a) a (specForm a (noSrc2 a && immBelow a 7))
    (fun c => treeFault c (opX a c).toNat (opNodes a) = none) (acceptTree a) (fun _ => 0) := by
  refine completes_of_body (fun _ => rfl) (fun s _ ht => ?_) (fun c => by simp [acceptTree, CoreSt.putBytes])
  simp only [ht]
  rfl

/-! ## SCMT (R230) -/

/-- An instruction of one word that can meet a misuse, and meets none. -/
theorem runChecked_body {i : Instr} {s : State} {a : CoreOp} {f : Form} {body : State → CoreSt → Body} {b : Body}
    (hi : exec i s = runChecked a f body s) (h : Dispatches s a f) (hw : f.words = 1) (hb : body s (s.core a.core) = b)
    (hm : (s.applyBody a.core 1 b).misused = none) : exec i s = .next (s.framed (s.applyBody a.core 1 b)) := by
  have hrun : s.runInstr a f body = s.applyBody a.core 1 b := by
    rw [runInstr_dispatches h, hw, hb]
  exact hi.trans (whenChecked_of h.operates hrun hm)

/-- The accepted path of a tree record: the nodes that PATH names, up to ACCEPTED of them after the root; past the record's 64
entries there is none. -/
def CoreSt.recordPath (c : CoreSt) (r : Nat) : List Nat :=
  (List.range (c.treeAccepted r + 1)).map (fun i => if i < 64 then c.treePath r i else 0xFF)

/-- SCMT is dispatched on a sound tree record, a key that is served, and a position within the sequence, with the core's mover
running. -/
structure ScmtServed (s : State) (a : CoreOp) (k : KernelSlot) (m : Manifest) (r key : Nat) : Prop where
  dispatches : Dispatches s a (specForm a (immBelow a 11))
  record : (opX a (s.core a.core)).toNat = r
  operand : (opY a (s.core a.core)).toNat = key
  tree : treeFault (s.core a.core) r (opNodes a) = none
  served : KeyServed s a k m key [treeRange, ((s.core a.core).treePos r / 16,
    ((s.core a.core).treePos r + (s.core a.core).treeAccepted r) / 16)]
  root : keyBlock key = 0
  position : (s.core a.core).treePos r + (s.core a.core).treeAccepted r < 16 * treeBlock0
  nodes : ∀ n ∈ (s.core a.core).recordPath r, n < 64
  thawed : s.moverFrozen a.core = false

/-- The commit of the accepted path that SCMT runs. -/
def scmtCommit (a : CoreOp) (s : State) (k : KernelSlot) (m : Manifest) (r key : Nat) : Body :=
  scmtRun a s k m key ((s.core a.core).treePos r) ((s.core a.core).recordPath r) (opImm a 10 7)

section scmt
variable {s u : State} {a : CoreOp} {k : KernelSlot} {m : Manifest} {r key : Nat}

/-- SCMT answers what the commit of the accepted path answers, where that meets no misuse. -/
theorem ScmtServed.exec_eq (h : ScmtServed s a k m r key)
    (hm : (s.applyBody a.core 1 (scmtCommit a s k m r key)).misused = none) :
    exec (.scmt a) s = .next (s.framed (s.applyBody a.core 1 (scmtCommit a s k m r key))) := by
  obtain ⟨hd, rfl, rfl, htree, hkey, hroot, hpos, hnodes, hmover⟩ := h
  have hsound : ¬(keyBlock (opY a (s.core a.core)).toNat ≠ 0 ∨
      16 * treeBlock0 ≤ (s.core a.core).treePos (opX a (s.core a.core)).toNat +
        (s.core a.core).treeAccepted (opX a (s.core a.core)).toNat ∨
      ((s.core a.core).recordPath (opX a (s.core a.core)).toNat).any (fun n => decide (64 ≤ n)) = true) := by
    simp only [hroot, List.any_eq_true, decide_eq_true_eq, not_or, not_exists, not_and]
    exact ⟨fun h => h rfl, Nat.not_le.mpr hpos, fun n hn => Nat.not_le.mpr (hnodes n hn)⟩
  refine runChecked_body rfl hd rfl ?_ hm
  simp only [htree]
  refine (hkey.withKey _).trans ((if_neg hsound).trans ((if_neg (Bool.eq_false_iff.mp hmover)).trans ?_))
  rw [hkey.running]
  rfl

theorem scmt_next (h : ScmtServed s a k m r key) (hb : scmtCommit a s k m r key = .next u) (hu : u.misused = none)
    (hr : (u.core a.core).phase = .running) (hk : (u.core a.core).kernel = (s.core a.core).kernel) (hl : FallsThrough u a 1) :
    exec (.scmt a) s =
      .next (s.framed (u.updCore a.core (fun c => { c with pc := BitVec.ofNat 32 (c.pc.toNat + 1) }))) := by
  have happly : s.applyBody a.core 1 (scmtCommit a s k m r key) =
      u.updCore a.core (fun c => { c with pc := BitVec.ofNat 32 (c.pc.toNat + 1) }) := by
    rw [hb, applyBody_next hr hk hl]
  rw [h.exec_eq (by rw [happly]; exact hu), happly]

/-- An operation that waits stops its core at the wait point. -/
theorem applyBody_wait {c : CoreId} {n : Nat} {w : WaitFor} (hr : (u.core c).phase = .running)
    (hk : (u.core c).kernel = (s.core c).kernel) :
    s.applyBody c n (.wait u w) = u.updCore c (fun x => { x with phase := .waiting w }) :=
  if_pos ⟨hr, hk⟩

theorem scmt_waits (h : ScmtServed s a k m r key) {w : WaitFor} (hb : scmtCommit a s k m r key = .wait u w)
    (hu : u.misused = none) (hr : (u.core a.core).phase = .running)
    (hk : (u.core a.core).kernel = (s.core a.core).kernel) :
    exec (.scmt a) s = .next (s.framed (u.updCore a.core (fun c => { c with phase := .waiting w }))) := by
  have happly : s.applyBody a.core 1 (scmtCommit a s k m r key) =
      u.updCore a.core (fun c => { c with phase := .waiting w }) := by
    rw [hb, applyBody_wait hr hk]
  rw [h.exec_eq (by rw [happly]; exact hu), happly]

end scmt

/-- Settles O21: SANC and SACPT complete with what they write, and SCMT with what its commit answers. -/
theorem draftTrees : Obligations.DraftTrees := by
  unfold Obligations.DraftTrees
  refine ⟨fun a s => ?_, fun a s u k m => ?_⟩
  · dsimp only
    rw [← opNodes_eq a]
    intro ht hl
    exact ⟨fun hd hn => (sanc_completes a s hd hl ⟨ht, hn⟩).trans (congrArg Host.Outcome.next (afterInstr_congr rfl)),
      fun hd => (sacpt_completes a s hd hl ht).trans (congrArg Host.Outcome.next (afterInstr_congr rfl))⟩
  · dsimp only
    intro hd _ hrun htree hok hline hlost hpart hfree hroot hpos hnodes hmover hu hr hk
    have served : ScmtServed s a k m _ _ :=
      ⟨hd, rfl, rfl, htree, ⟨hrun, hok, hline, hlost, hpart, hfree⟩, hroot, hpos, hnodes, hmover⟩
    exact ⟨fun hb hl => scmt_next served hb hu hr hk hl, fun w hb => scmt_waits served hb hu hr hk⟩

end Sys2Proof.Machine
end

section
/-! PROOF. The end of a run and of a manifest: delivery, completion records, retirement and replay, and the statement
RunsAndManifestsEnd. -/

namespace Sys2Proof.Machine

/-! ## The end of a run (R236, R237, R239) -/

section run
variable {s s1 : State} {m : Manifest} {r : RunRec} {c : Nat} {stop : Bool} {bs : List Byte}

/-- The tokens of a step record that a run delivers: the entries of its TOKEN fields, up to the first stop token, and whether
there is one. -/
def runTokens (r : RunRec) (bs : List Byte) : Nat × Bool :=
  scanStops r.stops ((List.range (natAt bs 0 4)).map (fun i => laneAt bs (0x10 + 4 * i)))

theorem runEnd_delivers (h : Operates s) (hm : s.manifest? m.id = some m) (hr : m.runRec = some r)
    (ht : s.stepTrouble r false = none) (hs : s.readStep r = (s1, .ok bs)) (hp : m.phase = .running)
    (hl : m.leadersDone = true) (hlo : 1 ≤ natAt bs 0 4) (hhi : natAt bs 0 4 ≤ 64)
    (hu : (s1.deliverRun m r (runTokens r bs).1 (runTokens r bs).2 bs).misused = none) :
    exec (.runEnd m.id) s = .next (s.framed (s1.deliverRun m r (runTokens r bs).1 (runTokens r bs).2 bs)) := by
  have hended : ¬(m.phase ≠ .running ∨ (!m.leadersDone) = true) := by simp [hp, hl]
  have hcount : ¬(natAt bs 0 4 = 0 ∨ 64 < natAt bs 0 4) := by omega
  show execRunEnd m.id s = _
  rw [execRunEnd]
  refine whenChecked_of h ?_ hu
  simp only [hm, hr, if_neg hended, ht, hs, if_neg hcount]
  rfl

theorem tokenRingPoll_delivers (h : Operates s) (hm : s.manifest? m.id = some m) (hr : m.runRec = some r)
    (hp : m.phase = .runEnd c stop bs) (hu : (s.deliverRun m r c stop bs).misused = none) :
    exec (.tokenRingPoll m.id) s = .next (s.framed (s.deliverRun m r c stop bs)) := by
  show execTokenRingPoll m.id s = _
  rw [execTokenRingPoll]
  refine whenChecked_of h ?_ hu
  simp only [hm, hp, hr]

/-- A token ring without room for the run's tokens leaves them undelivered. -/
theorem deliverRun_waits (hh : s.hostUp = true) (hn : m.nodeliver = false)
    (hfull : 2 ^ r.ringLog2 - c < s.ringCount r 0 - s.ringCount r 8) :
    s.deliverRun m r c stop bs = s.updManifest m.id (fun m => { m with phase := .runEnd c stop bs }) := by
  simp only [State.deliverRun, hn, hh, hfull]
  rfl

end run

/-! ## The completion record (R286, R347, R348) -/

section completion
variable {s : State} {m : Manifest} {st dt : Nat}

theorem tryComplete_room (hf : ((s.berth m.berth).queue m.queue).cringFull = false)
    (hw : ((s.berth m.berth).queue m.queue).waiting = []) : s.tryComplete m st dt = s.complete m st dt := by
  simp [State.tryComplete, hf, hw]

theorem manifestComplete_tries (h : Operates s) (hm : s.manifest? m.id = some m) (hp : m.phase = .ending st dt)
    (hs : s.signalWaits m st = false) (hu : (s.tryComplete m st dt).misused = none) :
    exec (.manifestComplete m.id) s = .next (s.framed (s.tryComplete m st dt)) := by
  show execManifestComplete m.id s = _
  rw [execManifestComplete]
  refine whenChecked_of h ?_ hu
  simp only [hm, hp, hs]
  rfl

/-- Records that wait are tried again with CRING_CONSUMED as the host has it. -/
def State.cringDrained (s : State) (b : BerthId) (q : QueueId) : State :=
  State.drainRecords (((s.berth b).queue q).waiting.length + 1) (s.readCringConsumed b q) b q

theorem cringPoll_drains {b : BerthId} {q : QueueId} (h : Operates s) (hw : ((s.berth b).queue q).waiting ≠ [])
    (hh : s.hostUp = true) (hu : (s.cringDrained b q).misused = none) :
    exec (.cringPoll b q) s = .next (s.framed (s.cringDrained b q)) := by
  have hpoll : ¬(((s.berth b).queue q).waiting.isEmpty = true ∨ (!s.hostUp) = true) := by simp [hw, hh]
  show execCringPoll b q s = _
  rw [execCringPoll]
  refine whenChecked_of h ?_ hu
  simp only [if_neg hpoll]
  rfl

theorem manifestRetire_retires (h : Operates s) (hm : s.manifest? m.id = some m) (hp : m.phase = .recorded)
    (ht : m.trailersDone = true) : exec (.manifestRetire m.id) s = .next (s.framed (s.retireManifest m)) := by
  show execManifestRetire m.id s = _
  rw [execManifestRetire, whenOn_eq h]
  simp only [hm, if_pos (And.intro hp ht)]

end completion

/-! ## Replay (R240, R258, R532) -/

section replay
variable {s s1 : State} {m : Manifest}

/-- A replay that a listed line holds waits. -/
theorem replayReissue_held (h : Operates s) (hn : s.misused = none) (hm : s.manifest? m.id = some m)
    (hheld : s.replayHeld m = true) : exec (.replayReissue m.id) s = .next s := by
  show execReplayReissue m.id s = _
  rw [execReplayReissue]
  refine whenChecked_of h ?_ hn
  simp only [hm, if_pos (Or.inr hheld)]

/-- An abandoned manifest that no listed line holds has its turn. -/
theorem replay_turn (hp : m.phase = .abandoned) (hfree : s.replayHeld m = false) :
    ¬(m.phase ≠ .abandoned ∨ s.replayHeld m = true) := by
  simp [hp, hfree]

section free
variable (h : Operates s) (hm : s.manifest? m.id = some m) (hp : m.phase = .abandoned) (hfree : s.replayHeld m = false)
include h hm hp hfree

/-- A manifest without a run record has no step record to restore. -/
theorem replayReissue_unstarted (hn : s.misused = none) (hr : m.runRec = none) :
    exec (.replayReissue m.id) s = .next (s.reissue m.id) := by
  show execReplayReissue m.id s = _
  rw [execReplayReissue]
  refine whenChecked_of h (t := s.reissue m.id) ?_ hn
  simp only [hm, if_neg (replay_turn hp hfree), hr]

theorem replayReissue_restored {r : RunRec} {st : StepSave} (hr : m.runRec = some r) (hst : m.step = some st)
    (hread : st.readable = true) (ht : s.stepTrouble r true = none) (hs : s.restoreStep r st.bytes = (s1, none))
    (hn : s1.misused = none) : exec (.replayReissue m.id) s = .next (s.framed (s1.reissue m.id)) := by
  show execReplayReissue m.id s = _
  rw [execReplayReissue]
  refine whenChecked_of h ?_ hn
  simp only [hm, if_neg (replay_turn hp hfree), hr, hst, ht, hread, hs]
  rfl

end free
end replay

/-- Settles O40: a run's tokens are delivered or wait, a record is written or tried again, and an abandoned manifest is held or
issued again, each by the lemma of its case. -/
theorem runsAndManifestsEnd : Obligations.RunsAndManifestsEnd := by
  unfold Obligations.RunsAndManifestsEnd
  refine ⟨fun s s1 m r bs h _ hm hr ht hs hp hl hlo hhi hu => runEnd_delivers h hm hr ht hs hp hl hlo hhi hu,
    fun s m r c stop bs h _ => ⟨tokenRingPoll_delivers h, deliverRun_waits⟩,
    fun s m h hn hm => ⟨fun st dt hp hs hf hw hu => ?complete, fun b q hw hh hu => cringPoll_drains h hw hh hu,
      manifestRetire_retires h hm, fun _ hl hue => ?held, fun hp hl => ?again⟩⟩
  case complete =>
    rw [← tryComplete_room hf hw] at hu ⊢
    exact manifestComplete_tries h hm hp hs hu
  case held =>
    exact replayReissue_held h hn hm (by simp [State.replayHeld, hl, hue])
  case again =>
    have hfree : s.replayHeld m = false := by
      rcases hl with hl | hl <;> simp [State.replayHeld, hl]
    exact ⟨replayReissue_unstarted h hm hp hfree hn,
      fun r st s1 hr hst hread ht hs => replayReissue_restored h hm hp hfree hr hst hread ht hs⟩

end Sys2Proof.Machine
end

section
/-! PROOF. Patrol scrub and the list of uncorrectable lines: a turn of an engine, the scrub of one line, the clear of a list
entry, and the statement ScrubAndUncorrectable. -/

namespace Sys2Proof.Machine

/-! ## A turn of a scrub engine (R255, R256) -/

/-- A scrub engine of a partition has its turns: it is started, and its partition is neither resetting nor stranded. -/
structure ScrubRuns (s : State) (p : PartId) (dram : Bool) : Prop where
  operates : Operates s
  devUp : s.devUp = true
  awake : (s.part p).state ≠ .resetting
  whole : (s.part p).state ≠ .stranded
  started : s.regField (if dram then R_MEM_SCRUB_DR else R_MEM_SCRUB_CS) 15 0 ≠ 0

/-- The engine of a partition's cluster store or of its LPDDR5X. -/
def PartSt.scrub (x : PartSt) (dram : Bool) : ScrubSt := if dram then x.scrubDr else x.scrubCs

def State.setScrub (s : State) (p : PartId) (dram : Bool) (q : ScrubSt) : State :=
  s.updPart p (fun x => if dram then { x with scrubDr := q } else { x with scrubCs := q })

/-- The line an engine takes at its next turn: a queued one first, else the next in order. -/
def ScrubSt.line (q : ScrubSt) (p : PartId) (dram : Bool) : Nat := q.queued.headD (scrubBase p dram + 64 * q.next)

section turn
variable {s : State} {p : PartId} {dram : Bool} {q : ScrubSt}

theorem ScrubSt.advance_queued {l : Nat} {rest : List Nat} (hq : q.queued = l :: rest) (lines : Nat) :
    q.advance lines = ({ q with queued := rest }, false) := by
  simp only [ScrubSt.advance, hq]

theorem ScrubSt.advance_inOrder {lines : Nat} (hq : q.queued = []) (hn : q.next + 1 < lines) :
    q.advance lines = ({ q with next := q.next + 1 }, false) := by
  simp only [ScrubSt.advance, hq, if_pos hn]

/-- A turn that does not wrap scrubs its line and moves the engine on. -/
theorem ScrubRuns.scrubTurn {q1 : ScrubSt} (h : ScrubRuns s p dram) (hq : (s.part p).scrub dram = q)
    (ha : q.advance (scrubLines dram) = (q1, false)) :
    exec (.scrubTurn p dram) s =
      .next (s.framed ((s.scrubLine p dram (!q.queued.isEmpty) (q.line p dram)).setScrub p dram q1)) := by
  have hruns : ¬(s.regField (if dram then R_MEM_SCRUB_DR else R_MEM_SCRUB_CS) 15 0 = 0 ∨ (!s.devUp) = true ∨
      (s.part p).state = .resetting ∨ (s.part p).state = .stranded) := by
    simp [h.started, h.devUp, h.awake, h.whole]
  subst hq
  unfold PartSt.scrub at ha ⊢
  show execScrubTurn p dram s = _
  rw [execScrubTurn, whenOn_eq h.operates, if_neg hruns]
  simp only [ha]
  unfold ScrubSt.line
  cases (if dram then (s.part p).scrubDr else (s.part p).scrubCs).queued <;> rfl

end turn

/-! ## The scrub of one line (R254, R256) -/

section line
variable {s : State} {p : PartId} {dram queued : Bool} {line : Nat}

/-- What a scrub does to a line by what the decoder makes of it. -/
def State.scrubDecoded (s : State) (p : PartId) (dram queued : Bool) (line : Nat) : Decoded → State
  | .clean _ => s
  | .corrected left =>
    let key := if dram then some (mapGet .unwritten s.lineKeys line) else none
    let clean := { s with
      mem := mapWrite 0 s.mem line (residue key left (mapRead 0 s.mem line 64)), lineErrors := mapPut [] s.lineErrors line [] }
    if queued then clean else clean.countCe p.val dram line false
  | .uncorrectable => State.listUe (s.addFault (memFault 3 (some p.val) line)) line

/-- Outside the LPDDR5X data lines never written whole (log entry 46), the scrub of a line does what its decoding says. -/
theorem scrubLine_eq_scrubDecoded (hw : ∀ c, addrKind line = .data c → mapGet .unwritten s.lineKeys line ≠ .unwritten) :
    s.scrubLine p dram queued line = s.scrubDecoded p dram queued line (rsDecode (mapGet [] s.lineErrors line)) := by
  unfold State.scrubLine
  cases hk : addrKind line with
  | data c =>
    simp only [hw c hk, decide_false, Bool.false_eq_true, if_false]
    cases rsDecode (mapGet [] s.lineErrors line) <;> rfl
  | store _ | window | reserved _ | ferry | unpopulated =>
    cases rsDecode (mapGet [] s.lineErrors line) <;> rfl

theorem books_lineErrors {s t : State} (h : BooksOnly s t) : t.lineErrors = s.lineErrors := by rw [h]

theorem faultIf_lineErrors (P : Prop) [Decidable P] (e : FaultEntry) :
    (if P then s.addFault e else s).lineErrors = s.lineErrors := by
  split
  · exact books_lineErrors (addFault_books s e)
  · rfl

theorem countCe_lineErrors (c : Nat) (master : Bool) : (s.countCe c dram line master).lineErrors = s.lineErrors := by
  unfold State.countCe
  exact faultIf_lineErrors _ _

/-- A line that is corrected holds a codeword without errors, and no other line's errors change. -/
theorem scrubDecoded_corrected_lineErrors (left : List (Nat × Nat)) :
    (s.scrubDecoded p dram queued line (.corrected left)).lineErrors = mapPut [] s.lineErrors line [] := by
  unfold State.scrubDecoded
  cases queued with
  | true => rfl
  | false => exact countCe_lineErrors _ _

end line

/-! ## The clear of a list entry (R258) -/

theorem memUeClear_listed {s : State} {v : Lane} {i : Fin 16} {line : Nat} {rewritten : Bool} (h : Operates s)
    (hr : s.hostReaches R_MEM_UE_CLEAR = true) (hv : v.toNat % 16 = i.val) (hl : s.ueList[i] = some (line, rewritten)) :
    exec (.memUeClear v) s = .next { s with
      ueList := s.ueList.set i none
      manifests := s.manifests.map (fun m => { m with heldLines := m.heldLines.filter (fun l => l != line) }) } := by
  obtain ⟨n, hn⟩ := i
  obtain rfl : _ = n := hv
  show execMemUeClear v s = _
  rw [execMemUeClear, hostWrite_eq h hr]
  simp only [hl]
  rfl

/-- Settles O42: a turn takes a queued line or the next in order; a line without errors, beyond correction or corrected; the
clear of an entry. -/
theorem scrubAndUncorrectable : Obligations.ScrubAndUncorrectable := by
  unfold Obligations.ScrubAndUncorrectable
  refine ⟨fun s p dram h hup hawake hwhole hstarted => ?turn, fun s p dram queued line hw => ?line,
    fun s v i line a h hr hv hl => memUeClear_listed h hr hv hl⟩
  case turn =>
    have runs : ScrubRuns s p dram := ⟨h, hup, hawake, hwhole, hstarted⟩
    dsimp only
    refine ⟨fun l rest hq => ?_, fun hq hn => ?_⟩
    · rw [runs.scrubTurn rfl (ScrubSt.advance_queued hq _), ScrubSt.line, PartSt.scrub, hq]
      rfl
    · rw [runs.scrubTurn rfl (ScrubSt.advance_inOrder hq hn), ScrubSt.line, PartSt.scrub, hq]
      rfl
  case line =>
    rw [scrubLine_eq_scrubDecoded hw]
    refine ⟨fun hclean => ?_, fun hbad => ?_, fun hfixed => ?_⟩
    · rw [hclean]
      rfl
    · rw [hbad]
      rfl
    · rw [hfixed, scrubDecoded_corrected_lineErrors]

end Sys2Proof.Machine
end

section
/-! PROOF. Data frames of the reliable transport and the notices between copies of a manifest: how a frame that is accepted and
new runs, what a write does at its home, what an answer does at the device that asked, and the statement DataFrames. -/

namespace Sys2Proof.Machine

/-! ## A data frame is taken, or waits (R247, R281, R426) -/

/-- A data frame is accepted, `waits` for nothing and is new: `u` is the state after its acceptance, `s1` after its sequence number
is taken. -/
structure NewFrame (s u s1 : State) (rx : Rx) (ty : Nat) (waits : Bool) : Prop where
  operates : Operates s
  tenant : s.key.tenant ≠ .removing
  accepted : s.accept rx ty = (u, true)
  room : waits = false
  fresh : u.takeSeq rx = (s1, true)

/-- A command that is a data frame leaves what its effect leaves, once the frame is new. -/
theorem NewFrame.exec {s u s1 t : State} {rx : Rx} {ty : Nat} {valid : Bool} {waits : State → Bool} {f : State → State} {i : Instr}
    (h : NewFrame s u s1 rx ty (waits u)) (hi : exec i s = dataFrame rx ty valid waits f s) (hv : valid = true) (hf : f s1 = t)
    (ht : t.misused = none) : exec i s = .next (s.framed t) := by
  rw [hi, dataFrame_eq h.operates hv h.tenant h.accepted h.room h.fresh hf ht]

/-- A frame that waits for a reserved region or for room is accepted, and its sequence number is not taken. -/
theorem dataFrame_waiting {s u : State} {rx : Rx} {ty : Nat} {valid : Bool} {waits : State → Bool} (f : State → State)
    (h : Operates s) (hk : s.key.tenant ≠ .removing) (hv : valid = true) (ha : s.accept rx ty = (u, true)) (hw : waits u = true)
    (hu : u.misused = none) : dataFrame rx ty valid waits f s = .next (s.framed u) := by
  rw [dataFrame, whenChecked_of h (t := u) _ hu]
  rw [hv, if_neg (by decide), if_neg hk]
  simp only [ha, if_pos hw]

/-! ## A write at its home (R278, R279, R281, R426) -/

/-- The place at its home that a data frame names. -/
def framePlace (e : DataExt) : Place := .dev e.addr.toNat e.edom.toNat

/-- The answer to a frame of which `n` bytes have been performed. -/
def State.answerFrame (s : State) (l : Landing) (e : DataExt) (n : Nat) : State :=
  State.sendWack (s.performed l e) l e.move.toNat n

/-- A write kept until the earlier frames of its stream are performed. -/
def State.holdFrame (s : State) (l : Landing) (e : DataExt) (data : List Byte) (kind : HeldKind) : State :=
  { s with
    held := s.held ++ [⟨s.nextHeld, some l, ⟨coreIdOf 0 0, 0, 0, 0, 0⟩, e.mstream, e.prior.toNat, framePlace e, data, kind,
      e.move.toNat, e.ord.toNat⟩]
    nextHeld := s.nextHeld + 1 }

section home
variable {s v : State} {rx : Rx} {e : DataExt} {data : List Byte} {kind : HeldKind}

/-- A write without LASTOFF that meets no trouble waits for no earlier frame. -/
theorem frameStore_prompt (ht : s.frameTrouble e data.length true = none) (hl : rx.lastOff = false) :
    s.frameStore rx e data kind = s.homeWrite rx.src e.mstream e.ord.toNat e.move.toNat (framePlace e) data kind := by
  simp only [State.frameStore, ht, hl, Bool.false_and, Bool.false_eq_true, if_false, framePlace]

theorem frameStore_stored (ht : s.frameTrouble e data.length true = none) (hl : rx.lastOff = false) (hk : kind ≠ .eventAdd)
    (hw : s.placeWrite (framePlace e) data = (v, none)) : s.frameStore rx e data kind = v.answerFrame rx.src e data.length := by
  rw [frameStore_prompt ht hl, State.homeWrite]
  simp only [hw]
  · rfl
  · exact hk

theorem frameStore_added (ht : s.frameTrouble e data.length true = none) (hl : rx.lastOff = false)
    (hw : s.wordAdd (framePlace e) (BitVec.ofNat 64 (leNat data)) = (v, none)) :
    s.frameStore rx e data .eventAdd = v.answerFrame rx.src e data.length := by
  rw [frameStore_prompt ht hl, State.homeWrite]
  simp only [hw]
  rfl

/-- A write with LASTOFF is held while an earlier frame of its stream is not performed, unless one was squashed. -/
theorem frameStore_held {x : Peer} (ht : s.frameTrouble e data.length true = none) (hl : rx.lastOff = true)
    (hx : s.peer? rx.src = some x) (hp : x.performedBelow e.mstream (addrPartNat e.addr.toNat) e.prior.toNat = false)
    (hr : x.refusedBelow e.mstream (addrPartNat e.addr.toNat) e.prior.toNat = false) :
    s.frameStore rx e data kind = s.holdFrame rx.src e data kind := by
  simp only [State.frameStore, ht, hl, hx, hp, hr, Bool.true_and, Bool.not_false, Bool.false_eq_true, if_false, if_true]
  rfl

/-- An atomic operation stores one word: OP 0 adds it to an event word, OP 1 writes it to a flag (R422). -/
theorem atomicStore_eventAdd (w : Word) (ho : e.op = 0) : s.atomicStore rx e w = s.frameStore rx e (leBytes 8 w.toNat) .eventAdd := by
  rw [State.atomicStore, if_pos ho]

theorem atomicStore_flag (w : Word) (ho : e.op = 1) : s.atomicStore rx e w = s.frameStore rx e (leBytes 8 w.toNat) .flag := by
  rw [State.atomicStore, if_neg (by rw [ho]; decide)]

end home

section frames
variable {s u s1 : State} {rx : Rx} {e : DataExt} {t : State}

theorem frameWrite_new {data : List Byte} (h : NewFrame s u s1 rx tyWrite (u.notTaken rx e data.length true))
    (hn : dataLenOk data.length = true) (hf : s1.frameStore rx e data .data = t) (ht : t.misused = none) :
    exec (.frameWrite rx e data) s = .next (s.framed t) :=
  h.exec rfl hn hf ht

theorem atomic_eventAdd {w : Word} (h : NewFrame s u s1 rx tyAtomic (u.notTaken rx e 8 true)) (ho : e.op = 0)
    (hf : s1.frameStore rx e (leBytes 8 w.toNat) .eventAdd = t) (ht : t.misused = none) :
    exec (.atomic rx e w) s = .next (s.framed t) :=
  h.exec rfl (by rw [ho]; rfl) ((atomicStore_eventAdd w ho).trans hf) ht

theorem atomic_flag {w : Word} (h : NewFrame s u s1 rx tyAtomic (u.notTaken rx e 8 true)) (ho : e.op = 1)
    (hf : s1.frameStore rx e (leBytes 8 w.toNat) .flag = t) (ht : t.misused = none) :
    exec (.atomic rx e w) s = .next (s.framed t) :=
  h.exec rfl (by rw [ho]; rfl) ((atomicStore_flag w ho).trans hf) ht

/-- A read sends the bytes at its home back, and counts as performed. -/
theorem frameRead_new {v : State} {bs : List Byte} (h : NewFrame s u s1 rx tyRead (u.notTaken rx e e.len.toNat false))
    (hlo : 64 ≤ e.len.toNat) (hhi : e.len.toNat ≤ 65536) (hmod : e.len.toNat % 64 = 0)
    (hn : s1.frameTrouble e e.len.toNat false = none) (hr : s1.placeRead (framePlace e) e.len.toNat = (v, .inl bs))
    (ht : (State.sendRdata (v.performed rx.src e) rx.src e bs).misused = none) :
    exec (.frameRead rx e) s = .next (s.framed (State.sendRdata (v.performed rx.src e) rx.src e bs)) := by
  have hpos : 0 < e.len.toNat := by omega
  rw [framePlace] at hr
  refine h.exec rfl (by simp [hpos, hhi, hmod]) ?_ ht
  simp only [hn, hr]

/-! ## What comes back to the device that asked (R259, R272, R278, R426) -/

/-- Data has arrived for an outstanding read of a movement: what is left of the read stays outstanding, the data enters the core's read
buffer, and a mirror line restores its primary. -/
def State.readArrived (s : State) (m : Movement) (r : Landing × Nat × Nat × Place) (l : Landing) (a : Nat) (data : List Byte) : State :=
  State.repairFrom ((s.updMove m.id (fun m => { m with readsOut := m.readsOut.erase r ++ readRest r a data.length })).updCore
    m.core (fun x => x.bufferPut l a data)) m l a data

theorem rdata_delivered {v : State} {data : List Byte} {m : Movement} {r : Landing × Nat × Nat × Place} {q : Place}
    (h : NewFrame s u s1 rx tyRdata (u.rdataWaits rx e data.length)) (hn : dataLenOk data.length = true)
    (hm : s1.move? e.move.toNat = some m) (hr : m.readFor rx.src e.addr.toNat data.length = some r)
    (hq : q = r.2.2.2.plus (e.addr.toNat - r.2.1))
    (hw : (s1.readArrived m r rx.src e.addr.toNat data).trouble q data.length true = none)
    (hd : (s1.readArrived m r rx.src e.addr.toNat data).deliver m q data (m.priorOf q) = (v, none))
    (ht : (v.settleUpdate m.id).misused = none) : exec (.rdata rx e data) s = .next (s.framed (v.settleUpdate m.id)) := by
  subst hq
  rw [State.readArrived] at hw hd
  refine h.exec rfl hn ?_ ht
  simp only [hm, hr, hw, hd]

/-- A WACK takes its bytes from those of the movement that are outstanding at its sender, and the unit queues go on. -/
theorem wack_counted {move bytes : Lane} {m : Movement} (h : Operates s) (ha : s.acceptSeq rx tyWack = (s1, true))
    (hm : s1.move? move.toNat = some m) (hb : bytes ≠ 0)
    (hf : State.drainAll (State.settleUpdate (s1.updMove m.id (fun m => { m with
      writesOut := mapPut 0 m.writesOut rx.src.toNat (mapGet 0 m.writesOut rx.src.toNat - bytes.toNat) })) m.id) = t)
    (ht : t.misused = none) : exec (.wack rx move bytes) s = .next (s.framed t) := by
  show execWack rx move bytes s = _
  refine whenChecked_of h ?_ ht
  simp only [ha, hm, if_neg hb, hf]

end frames

/-! ## Notices of another copy (R346, R531) -/

/-- The copy here of a manifest that another device's notice names, where it has not ended. -/
def State.copyOf (s : State) (tag : Word) (vdev : BitVec 24) : Option Manifest :=
  s.manifests.find? (fun m => m.vdev == vdev && m.tag == tag && !m.phase.over)

section notices
variable {s s1 : State} {rx : Rx} {tag : Word} {vdev : BitVec 24} {st : Byte} {m : Manifest}

theorem partner_fault (h : Operates s) (ha : s.acceptSeq rx tyPartner = (s1, true)) (hm : s1.copyOf tag vdev = some m)
    (hst : st.toNat = stFault) (hi : m.ignoreFault = false) :
    exec (.partner rx tag vdev st) s = .next (s.framed (s1.partnerFault m.id)) := by
  rw [State.copyOf] at hm
  show execPartner rx tag vdev st s = _
  rw [execPartner, whenOn_eq h]
  simp only [ha, hm, hst, hi]
  rfl

theorem partner_end (h : Operates s) (ha : s.acceptSeq rx tyPartner = (s1, true)) (hm : s1.copyOf tag vdev = some m)
    (hst : st.toNat = stStop ∨ st.toNat = stLimit ∨ st.toNat = stDeadline) :
    exec (.partner rx tag vdev st) s = .next (s.framed (s1.partnerEnd m st.toNat)) := by
  have hok : st.toNat ≠ stOk := by rcases hst with hst | hst | hst <;> rw [hst] <;> decide
  have hfault : st.toNat ≠ stFault := by rcases hst with hst | hst | hst <;> rw [hst] <;> decide
  rw [State.copyOf] at hm
  show execPartner rx tag vdev st s = _
  rw [execPartner, whenOn_eq h]
  simp only [ha, hm, if_neg hok, if_neg hfault, if_pos hst]

end notices

/-- Settles O50: a write, an atomic operation and a read at their home, those that are held or wait, and what comes back. -/
theorem dataFrames : Obligations.DataFrames := by
  unfold Obligations.DataFrames
  intro s rx e u s1 h _ hk
  dsimp only
  have taken {ty : Nat} {waits : Bool} (ha : s.accept rx ty = (u, true)) (hw : waits = false) (hf : u.takeSeq rx = (s1, true)) :
      NewFrame s u s1 rx ty waits := ⟨h, hk, ha, hw, hf⟩
  refine ⟨?write, ?atomic, ?held, ?waits, ?read, ?rdata, ?wack, ?partner⟩
  case write =>
    intro data v hn ⟨ha, hw, hf, ht⟩ hl hp hm
    exact frameWrite_new (taken ha hw hf) hn (frameStore_stored ht hl (by decide) hp) hm
  case atomic =>
    intro w v ⟨ha, hw, hf, ht⟩ hl
    refine ⟨fun ho hp hm => ?_, fun ho hp hm => ?_⟩
    · exact atomic_eventAdd (taken ha hw hf) ho (frameStore_added ht hl (by rwa [word_of_leBytes])) hm
    · exact atomic_flag (taken ha hw hf) ho (frameStore_stored ht hl (by decide) hp) hm
  case held =>
    intro data w x hl hx hp hr
    refine ⟨fun hn ⟨ha, hw, hf, ht⟩ hm => ?_, fun ⟨ha, hw, hf, ht⟩ hm => ⟨fun ho => ?_, fun ho => ?_⟩⟩
    · exact frameWrite_new (taken ha hw hf) hn (frameStore_held ht hl hx hp hr) hm
    · exact atomic_eventAdd (taken ha hw hf) ho (frameStore_held ht hl hx hp hr) hm
    · exact atomic_flag (taken ha hw hf) ho (frameStore_held ht hl hx hp hr) hm
  case waits => exact fun data hn ha hw hm => dataFrame_waiting _ h hk hn ha hw hm
  case read =>
    intro bs v hlo hhi hmod ⟨ha, hw, hf, ht⟩ hp hm
    exact frameRead_new (taken ha hw hf) hlo hhi hmod ht hp hm
  case rdata =>
    intro data m r v hn ha hw hf hm hr ht hd hq
    exact rdata_delivered (taken ha hw hf) hn hm hr rfl ht hd hq
  case wack => exact fun move bytes m ha hm hb hq => wack_counted h ha hm hb rfl hq
  case partner => exact fun tag vdev st m ha hm => ⟨partner_fault h ha hm, partner_end h ha hm⟩

end Sys2Proof.Machine
end

section
/-! PROOF. Abandoned events and translation fences: the epochs a fence advances, what issuing one leaves of the cache, the
fences and the berths, the commands that run them, and the statement LedgerAndFences. -/

namespace Sys2Proof.Machine

/-! ## The epochs of a context (R305) -/

theorem State.berth_setBerth_other (s : State) (b d : BerthId) (x : BerthSt) (h : d ≠ b) : (s.setBerth b x).berth d = s.berth d := by
  have h' : b.val ≠ d.val := fun e => h (Fin.ext e.symm)
  simp [State.berth, State.setBerth, h']

/-- Whether a context is in a berth. -/
def BerthSt.holds (x : BerthSt) (ctx : BitVec 16) : Prop := x.state ≠ .empty ∧ x.context = ctx

/-- A berth after a fence of `ctx`: the epoch advances where it holds the context. -/
def BerthSt.fenced (x : BerthSt) (ctx : BitVec 16) : BerthSt :=
  if x.state ≠ .empty ∧ x.context = ctx then { x with epoch := x.epoch + 1 } else x

theorem BerthSt.fenced_of_holds {x : BerthSt} {ctx : BitVec 16} (h : x.holds ctx) : x.fenced ctx = { x with epoch := x.epoch + 1 } :=
  if_pos h

theorem BerthSt.fenced_of_not_holds {x : BerthSt} {ctx : BitVec 16} (h : ¬ x.holds ctx) : x.fenced ctx = x := if_neg h

section fence
variable (s : State) (ctx : BitVec 16)

/-- The step of `State.issueFence` at one berth. -/
def State.advanceEpoch (b : BerthId) : State :=
  if (s.berth b).state ≠ .empty ∧ (s.berth b).context = ctx then s.updBerth b (fun x => { x with epoch := x.epoch + 1 }) else s

theorem advanceEpoch_eq_setBerth (b : BerthId) (h : (s.berth b).holds ctx) :
    s.advanceEpoch ctx b = s.setBerth b ((s.berth b).fenced ctx) := by
  rw [BerthSt.fenced_of_holds h]
  exact if_pos h

theorem advanceEpoch_eq_self (b : BerthId) (h : ¬ (s.berth b).holds ctx) : s.advanceEpoch ctx b = s := if_neg h

theorem advanceEpoch_berth_same (b : BerthId) : (s.advanceEpoch ctx b).berth b = (s.berth b).fenced ctx := by
  by_cases h : (s.berth b).holds ctx
  · rw [advanceEpoch_eq_setBerth s ctx b h, State.berth_setBerth_same]
  · rw [advanceEpoch_eq_self s ctx b h, BerthSt.fenced_of_not_holds h]

theorem advanceEpoch_berth_other {b d : BerthId} (hd : d ≠ b) : (s.advanceEpoch ctx b).berth d = s.berth d := by
  by_cases h : (s.berth b).holds ctx
  · rw [advanceEpoch_eq_setBerth s ctx b h, State.berth_setBerth_other s b d _ hd]
  · rw [advanceEpoch_eq_self s ctx b h]

theorem advanceEpoch_cache_fences (b : BerthId) :
    (s.advanceEpoch ctx b).cache = s.cache ∧ (s.advanceEpoch ctx b).fences = s.fences := by
  by_cases h : (s.berth b).holds ctx
  · rw [advanceEpoch_eq_setBerth s ctx b h]
    exact ⟨rfl, rfl⟩
  · rw [advanceEpoch_eq_self s ctx b h]
    exact ⟨rfl, rfl⟩

/-- A berth that the list of berths names once is fenced once, whatever else the list names. -/
theorem foldl_advanceEpoch_berth (b : BerthId) (l : List BerthId) (hl : l.Nodup) :
    (l.foldl (fun u d => u.advanceEpoch ctx d) s).berth b = if b ∈ l then (s.berth b).fenced ctx else s.berth b := by
  induction l generalizing s with
  | nil => rfl
  | cons d l ih =>
    obtain ⟨hd, hl⟩ := List.nodup_cons.mp hl
    rw [List.foldl_cons, ih _ hl]
    by_cases hb : b = d
    · subst hb
      simp [hd, advanceEpoch_berth_same]
    · simp [hb, advanceEpoch_berth_other s ctx hb]

/-- Every berth after step 2 of R305. -/
def State.advanceEpochs : State := allBerths.foldl (fun u d => u.advanceEpoch ctx d) s

theorem advanceEpochs_berth (b : BerthId) : (s.advanceEpochs ctx).berth b = (s.berth b).fenced ctx := by
  have once : allBerths.Nodup := List.nodup_finRange 48
  have every : b ∈ allBerths := List.mem_finRange b
  rw [State.advanceEpochs, foldl_advanceEpoch_berth s ctx b _ once, if_pos every]

theorem advanceEpochs_cache_fences : (s.advanceEpochs ctx).cache = s.cache ∧ (s.advanceEpochs ctx).fences = s.fences := by
  unfold State.advanceEpochs
  refine List.foldlRecOn (motive := fun u : State => u.cache = s.cache ∧ u.fences = s.fences) allBerths _ ⟨rfl, rfl⟩ ?_
  intro u hu d _
  obtain ⟨hc, hf⟩ := advanceEpoch_cache_fences u ctx d
  rwa [hc, hf]

/-! ## A fence is issued (R305, R310) -/

variable (gone : CachedRun → Bool)

/-- The state without the cached runs that a fence names. -/
def State.dropRuns : State := { s with cache := s.cache.filter (fun (c : CachedRun) => !(c.context == ctx && gone c)) }

/-- The fence that `State.issueFence` enters: its epoch is the one it has just begun, its number follows the last issued. -/
def State.nextFence : Fence :=
  ⟨ctx, ((s.dropRuns ctx gone).advanceEpochs ctx).contextEpoch ctx, BitVec.ofNat 32 (s.regField R_XLT_FENCE_ISSUED 31 0 + 1)⟩

theorem issueFence_eq : s.issueFence ctx gone =
    let u := (s.dropRuns ctx gone).advanceEpochs ctx
    let f := s.nextFence ctx gone
    State.setReg { u with fences := u.fences ++ [f] } R_XLT_FENCE_ISSUED (f.seq.setWidth 64) := by
  unfold State.issueFence State.nextFence State.advanceEpochs
  rfl

theorem issueFence_fences : (s.issueFence ctx gone).fences = s.fences ++ [s.nextFence ctx gone] := by
  rw [issueFence_eq]
  simp only [State.setReg_fences, advanceEpochs_cache_fences]
  rfl

theorem issueFence_cache :
    (s.issueFence ctx gone).cache = s.cache.filter (fun (c : CachedRun) => !(c.context == ctx && gone c)) := by
  rw [issueFence_eq]
  simp only [State.setReg_cache, advanceEpochs_cache_fences]
  rfl

theorem issueFence_berth (b : BerthId) : (s.issueFence ctx gone).berth b = (s.berth b).fenced ctx := by
  rw [issueFence_eq]
  simp only [State.berth, State.setReg_berths]
  exact advanceEpochs_berth _ ctx b

end fence

/-! ## The commands of the ledger and of the fences (R305, R307, R332) -/

@[simp] theorem State.framed_berth (s t : State) (b : BerthId) : (s.framed t).berth b = t.berth b := rfl

theorem framed_setRegField (s : State) (off hi lo v : Nat) : s.framed (s.setRegField off hi lo v) = s.setRegField off hi lo v := rfl

section commands
variable {s : State} (h : Operates s)
include h

theorem ldgAbandon_event {t : Lane} {e : LedgerEntry} (hr : s.hostReaches R_LDG_ABANDON = true) (he : s.eventEntry t = some e) :
    exec (.ldgAbandon t) s = .next (s.framed (s.abandonEntry e).wakeAbandoned) := by
  show execLdgAbandon t s = _
  rw [execLdgAbandon, hostWrite_reached h _ _ hr]
  simp only [he]

theorem ldgAbandon_badTicket {t : Lane} (hr : s.hostReaches R_LDG_ABANDON = true) (he : s.eventEntry t = none) :
    exec (.ldgAbandon t) s = .next (s.setRegField R_LDG_STATUS 1 1 1) := by
  show execLdgAbandon t s = _
  rw [execLdgAbandon, hostWrite_reached h _ _ hr]
  simp only [he, framed_setRegField]

section go
variable {v : Lane} (hr : s.hostReaches R_XLT_FENCE_GO = true) (hv : v.getLsbD 0 = true)
  (hctx : ((s.reg R_XLT_FENCE_CTX).setWidth 16 : BitVec 16) ≠ 0)
include hr hv hctx

theorem xltFenceGo_rejected (hf : 16 ≤ s.fences.length) : exec (.xltFenceGo v) s = .next (s.setRegField R_XLT_STATUS 5 5 1) := by
  show execXltFenceGo v s = _
  rw [execXltFenceGo, hostWrite_reached h _ _ hr]
  dsimp only
  rw [if_neg (by simpa [hv] using hctx), if_pos hf, framed_setRegField]

theorem xltFenceGo_issues (hf : s.fences.length < 16) : exec (.xltFenceGo v) s = .next (s.framed
    (s.issueFence ((s.reg R_XLT_FENCE_CTX).setWidth 16) (fun c => (s.reg R_XLT_FENCE_CTX).getLsbD 31 ||
      (decide (s.regField R_XLT_FENCE_BASE 47 16 * 65536 < (s.regField R_XLT_FENCE_LIMIT 47 16 + 1) * 65536) &&
        c.overlaps (s.regField R_XLT_FENCE_BASE 47 16 * 65536) ((s.regField R_XLT_FENCE_LIMIT 47 16 + 1) * 65536))))) := by
  show execXltFenceGo v s = _
  rw [execXltFenceGo, hostWrite_reached h _ _ hr]
  dsimp only
  rw [if_neg (by simpa [hv] using hctx), if_neg (by omega)]

end go

theorem fenceComplete_oldest {f : Fence} {rest : List Fence} (hf : s.fences = f :: rest) :
    exec .fenceComplete s = .next (s.framed (if s.fenceWork f then s
      else State.setReg { s with fences := rest } R_XLT_FENCE_DONE (f.seq.setWidth 64))) := by
  show execFenceComplete s = _
  rw [execFenceComplete, whenOn_operates h]
  simp only [hf]

end commands

/-- Settles O38, by what a fence leaves of each berth (the fold over the berths meets each one once). -/
theorem ledgerAndFences : Obligations.LedgerAndFences := by
  unfold Obligations.LedgerAndFences
  intro s h
  refine ⟨?abandoned, ?badTicket, ?fence, ?completes⟩
  case abandoned => exact fun t e hr he => ldgAbandon_event h hr he
  case badTicket => exact fun t hr he => ldgAbandon_badTicket h hr he
  case fence =>
    intro v hr hv ctx lo hi hctx
    refine ⟨xltFenceGo_rejected h hr hv hctx, fun hf => ?_⟩
    refine ⟨_, _, xltFenceGo_issues h hr hv hctx hf, (State.framed_fences ..).trans (issueFence_fences ..), rfl,
      (State.framed_cache ..).trans (issueFence_cache ..), fun b hb hc => ?_, fun b hb => ?_⟩
    · have held : (s.berth b).holds ctx := ⟨hb, hc⟩
      rw [State.framed_berth, issueFence_berth, BerthSt.fenced_of_holds held]
    · have free : ¬ (s.berth b).holds ctx := fun ⟨he, hc⟩ => hb.elim he (· hc)
      rw [State.framed_berth, issueFence_berth, BerthSt.fenced_of_not_holds free]
  case completes =>
    intro f rest hf
    rw [fenceComplete_oldest h hf]
    refine ⟨fun hw => ?_, fun hw => ?_⟩
    · rw [if_pos hw, State.framed_self]
    · rw [if_neg (by simp [hw])]
      rfl

end Sys2Proof.Machine
end

section
/-! PROOF. Berths and doorbells: a request of LOAD or UNLOAD taken up, a berth that becomes Resident or Empty, a revocation, an
offered tail, and the statement BerthsAndDoorbells. -/

namespace Sys2Proof.Machine

/-! ## A request in BRT_REQ (R316, R317, R338) -/

/-- A register reads as written. -/
theorem State.reg_setReg_same {s : State} (h : Registers.wf s = true) (off : Nat) (v : Word) : (s.setReg off v).reg off = v := by
  obtain ⟨hregs, -⟩ := Bool.and_eq_true_iff.mp h
  rw [State.reg, State.setReg, mapGet_mapPut off _ off hregs, if_pos rfl]
  split
  · next hv => exact hv.symm
  · rfl

/-- A mask that is all ones over a field keeps it. -/
theorem bits_and {x mask hi lo : Nat} (h : bits mask hi lo = 2 ^ (hi + 1 - lo) - 1) : bits (x &&& mask) hi lo = bits x hi lo := by
  unfold bits at *
  rw [Nat.shiftRight_and_distrib, Nat.and_mod_two_pow, h, Nat.and_two_pow_sub_one_eq_mod, Nat.mod_mod]

/-- The fields of a write of BRT_REQ are stored. -/
def State.brtAsked (s : State) (value : Lane) : State := s.setReg R_BRT_REQ (BitVec.ofNat 64 (value.toNat &&& 0x383FFFFF))

theorem brtAsked_bits {s : State} (h : Registers.wf s = true) (value : Lane) {hi lo : Nat}
    (hm : bits 0x383FFFFF hi lo = 2 ^ (hi + 1 - lo) - 1) :
    bits ((s.brtAsked value).reg R_BRT_REQ).toNat hi lo = bits value.toNat hi lo := by
  have hle : value.toNat &&& 0x383FFFFF ≤ 0x383FFFFF := Nat.and_le_right
  have hlt : value.toNat &&& 0x383FFFFF < 2 ^ 64 := by omega
  rw [State.brtAsked, State.reg_setReg_same h, BitVec.toNat_ofNat, Nat.mod_eq_of_lt hlt, bits_and hm]

/-- The host asks for berth `b` with GO, while the Ferryman serves and answers no other request. -/
structure BrtAsks (s : State) (value : Lane) (b : BerthId) : Prop where
  operates : Operates s
  wf : Registers.wf s = true
  reaches : s.hostReaches R_BRT_REQ = true
  go : value.getLsbD 31 = true
  berth : bits value.toNat 21 16 = b.val
  ferry : s.ferryDown = false
  idle : (s.brtAsked value).regBit R_BRT_REQ_STATUS 31 = false

section asks
variable {s : State} {value : Lane} {b : BerthId}

theorem BrtAsks.brtRequest (h : BrtAsks s value b) (act : State → State) :
    s.brtRequest value none act = act (s.brtAsked value) ∧
    ∀ us, s.brtRequest value (some us) act = (s.brtAsked value).brtAnswer brtFerryBusy us.toNat := by
  have hgo : ¬ (!value.getLsbD 31) = true := by rw [h.go]; decide
  have hidle : ¬ (s.brtAsked value).regBit R_BRT_REQ_STATUS 31 = true := by rw [h.idle]; decide
  have hferry : ¬ (s.brtAsked value).ferryDown = true := ne_true_of_eq_false h.ferry
  exact ⟨(if_neg hgo).trans ((if_neg hidle).trans (if_neg hferry)),
    fun _ => (if_neg hgo).trans ((if_neg hidle).trans (if_neg hferry))⟩

/-- A request is performed for the berth and the context that its fields name. -/
theorem BrtAsks.brtPerform (h : BrtAsks s value b) : (s.brtAsked value).brtPerform =
    if bits value.toNat 29 28 = 0 then (s.brtAsked value).load b (bits value.toNat 15 0)
    else if bits value.toNat 29 28 = 1 then (s.brtAsked value).unload b (bits value.toNat 15 0)
    else (s.brtAsked value).brtAnswer brtBadOp 0 := by
  have hberth := (brtAsked_bits h.wf value (hi := 21) (lo := 16) (by decide)).trans h.berth
  have hop := brtAsked_bits h.wf value (hi := 29) (lo := 28) (by decide)
  have hctx := brtAsked_bits h.wf value (hi := 15) (lo := 0) (by decide)
  simp only [State.brtPerform, hberth, hop, hctx, dif_pos b.isLt]

theorem BrtAsks.loadBerth (h : BrtAsks s value b) (hop : bits value.toNat 29 28 = 0) (busy : Option (BitVec 14)) :
    exec (.loadBerth value busy) s = .next (s.framed (s.brtRequest value busy State.brtPerform)) := by
  show execLoadBerth value busy s = _
  rw [execLoadBerth, hostWrite_eq h.operates h.reaches, if_neg (by omega)]

theorem BrtAsks.loadBerth_taken (h : BrtAsks s value b) (hop : bits value.toNat 29 28 = 0) :
    exec (.loadBerth value none) s = .next (s.framed ((s.brtAsked value).load b (bits value.toNat 15 0))) := by
  rw [h.loadBerth hop, (h.brtRequest _).1, h.brtPerform, if_pos hop]

theorem BrtAsks.loadBerth_busy (h : BrtAsks s value b) (hop : bits value.toNat 29 28 = 0) (us : BitVec 14) :
    exec (.loadBerth value (some us)) s = .next (s.framed ((s.brtAsked value).brtAnswer brtFerryBusy us.toNat)) := by
  rw [h.loadBerth hop, (h.brtRequest _).2]

theorem BrtAsks.unloadBerth_taken (h : BrtAsks s value b) (hop : bits value.toNat 29 28 = 1) :
    exec (.unloadBerth value none) s = .next (s.framed ((s.brtAsked value).unload b (bits value.toNat 15 0))) := by
  show execUnloadBerth value none s = _
  rw [execUnloadBerth, hostWrite_eq h.operates h.reaches, if_pos hop, (h.brtRequest _).1, h.brtPerform,
    if_neg (by omega), if_pos hop]

end asks

/-! ## What LOAD and UNLOAD leave of the berth (R316, R317) -/

theorem contextRec_loading {s : State} {a ctx : Nat} {x : BerthSt} (h : s.contextRec a ctx = some x) : x.state = .loading := by
  revert h
  unfold State.contextRec
  dsimp only
  split
  · split
    · rintro ⟨⟩
      rfl
    · rintro ⟨⟩
  · rintro ⟨⟩

section load
variable {s : State} {b : BerthId} {ctx : Nat}

theorem load_berthUsed (h : (s.berth b).state ≠ .empty) : s.load b ctx = s.brtAnswer brtBerthUsed 0 := by
  rw [State.load, if_pos h]

/-- The berth a load enters: the record's, with the epoch of the fences of its context that still wait. -/
def State.withEpoch (s : State) (x : BerthSt) : BerthSt :=
  { x with epoch := ((s.fences.filter (fun f => f.context == x.context)).map (·.epoch)).foldl max 0 }

/-- Outside slice mode a sound record of a context in no berth is loaded. -/
theorem load_sound {x : BerthSt} (he : (s.berth b).state = .empty)
    (hc : ∀ i, (s.berth i).state = .empty ∨ (s.berth i).context.toNat ≠ ctx) (hs : s.sharing = modeUnshared)
    (hx : s.contextRec (s.regField R_BRT_REQ_ADDR 51 6 * 64) ctx = some x) :
    s.load b ctx = State.brtServe (State.setReg (s.setBerth b (s.withEpoch x)) (R_PWR_BERTH_ENERGY + 8 * b.val) 0) b := by
  have hfree : ¬ (allBerths.any (fun i => (s.berth i).state != .empty && (s.berth i).context.toNat == ctx)) = true := by
    intro hany
    obtain ⟨i, -, hi⟩ := List.any_eq_true.mp hany
    rcases hc i with h | h <;> simp [h] at hi
  simp only [State.load, if_neg (not_not_intro he), if_neg hfree, hx, hs]
  rfl

theorem unload_resident (h : (s.berth b).state = .resident) : s.unload b ctx = State.brtServe (s.startUnload b) b := by
  simp only [State.unload, h]

theorem startUnload_state (s : State) (b : BerthId) : ((s.startUnload b).berth b).state = .unloading := by
  rw [State.startUnload, State.updBerth, State.berth_setBerth_same]

end load

/-! ## A berth becomes Resident, or Empty (R316, R317, R333) -/

section answered
variable (s : State) (b : BerthId)

@[simp] theorem brtDone_berths : (s.brtDone b).berths = s.berths := by
  unfold State.brtDone
  split <;> rfl

@[simp] theorem brtDone_key : (s.brtDone b).key = s.key := by
  unfold State.brtDone
  split <;> rfl

theorem brtDone_berth (d : BerthId) : (s.brtDone b).berth d = s.berth d := by
  rw [State.berth, State.berth, brtDone_berths]

theorem brtDone_brtServed {s : State} {b : BerthId} (h : s.brtServed = some b) : (s.brtDone b).brtServed = none := by
  rw [State.brtDone, if_pos h]
  rfl

theorem removalCheck_of_noRemoval {s : State} (h : s.key.removal ≠ 1) : s.removalCheck = s := by
  rw [State.removalCheck, if_pos (Or.inl h)]

end answered

/-- A queue as the host's record at `r` shows it when its berth becomes Resident. -/
def State.residentQueue (s : State) (r : Nat) (y : QueueSt) : QueueSt :=
  if y.valid then
    { y with tail := s.hostNat (r + 0x10) 8, head := s.hostNat (r + 0x18) 8
             cringProduced := s.hostNat (r + 0x30) 8, cringConsumed := s.hostNat (r + 0x38) 8, held := [] }
  else { y with held := [] }

/-- A Loading berth once its queues are read. -/
def State.residentBerth (s : State) (x : BerthSt) : BerthSt :=
  { x with state := .resident, queues := Vector.ofFn (fun q => s.residentQueue (x.record + 0x40 + 64 * q.val) (x.queue q)) }

theorem residentBerth_queue (s : State) (x : BerthSt) (q : QueueId) :
    (s.residentBerth x).queue q = s.residentQueue (x.record + 0x40 + 64 * q.val) (x.queue q) := by
  simp [State.residentBerth, BerthSt.queue]

section loaded
variable {s : State} {b : BerthId}

/-- Without held doorbells a berth becomes Resident as its record stands. -/
theorem berthLoaded_noneHeld (h : Operates s) (hl : (s.berth b).state = .loading) (hu : s.hostUp = true) (hf : s.ferryDown = false)
    (hh : ∀ q, ((s.berth b).queue q).held = []) :
    exec (.berthLoaded b) s = .next (s.framed ((s.setBerth b (s.residentBerth (s.berth b))).brtDone b)) := by
  have hnone : allQueues.flatMap (fun q => (((s.berth b).queue q).held).map (fun t => (q, t))) = [] :=
    List.flatMap_eq_nil_iff.mpr (fun q _ => by rw [hh q, List.map_nil])
  have hready : ¬ ((s.berth b).state ≠ .loading || !s.hostUp || s.ferryDown) = true := by simp [hl, hu, hf]
  show execBerthLoaded b s = _
  rw [execBerthLoaded, whenOn_eq h]
  simp only [if_neg hready, hnone, List.foldl_nil]
  rfl

/-- Emptying a berth writes HEADs to the host and clears the berth. -/
theorem emptyBerth_books (s : State) (b : BerthId) :
    ∃ u, BooksOnly s u ∧ s.emptyBerth b = u.setBerth b { BerthSt.empty with epoch := (s.berth b).epoch } := by
  refine ⟨_, ?_, rfl⟩
  refine List.foldlRecOn (motive := BooksOnly s) allQueues _ (BooksOnly.refl s) (fun u hu q _ => ?_)
  split
  · exact hu.trans (publish_books u _ _ _)
  · exact hu

theorem books_key {s t : State} (h : BooksOnly s t) : t.key = s.key := by rw [h]

theorem books_brtServed {s t : State} (h : BooksOnly s t) : t.brtServed = s.brtServed := by rw [h]

theorem emptyBerth_keeps (s : State) (b : BerthId) :
    (s.emptyBerth b).berth b = { BerthSt.empty with epoch := (s.berth b).epoch } ∧
    (s.emptyBerth b).key = s.key ∧ (s.emptyBerth b).brtServed = s.brtServed := by
  obtain ⟨u, hu, he⟩ := emptyBerth_books s b
  rw [he]
  exact ⟨State.berth_setBerth_same u b _, (books_key hu :), (books_brtServed hu :)⟩

/-- A berth becomes Empty without a fence while no INST_CMD is under way. -/
theorem berthEmpty_unfenced (h : Operates s) (hs : (s.berth b).state = .unloading) (hb : s.berthBusy b = false)
    (hi : s.instCmds = []) (hk : s.key.removal ≠ 1) : exec (.berthEmpty b) s = .next (s.framed ((s.emptyBerth b).brtDone b)) := by
  obtain ⟨-, hkey, -⟩ := emptyBerth_keeps s b
  have hstay : ((s.emptyBerth b).brtDone b).removalCheck = (s.emptyBerth b).brtDone b :=
    removalCheck_of_noRemoval (by rwa [brtDone_key, hkey])
  show execBerthEmpty b s = _
  rw [execBerthEmpty, whenOn_eq h, if_pos ⟨hs, by simp [hb]⟩]
  simp only [hi, List.any_nil, Bool.false_and]
  exact congrArg (fun t => Host.Outcome.next (s.framed t)) hstay

/-! ## Revocation (R333) -/

theorem brtQrevoke_resident {value : Lane} (h : Operates s) (hr : s.hostReaches R_BRT_QREVOKE = true) (hg : value.getLsbD 31 = true)
    (hb : bits value.toNat 21 16 = b.val) (hs : (s.berth b).state = .resident) :
    exec (.brtQrevoke value) s = .next (s.framed (s.revoke b (value.setWidth 16))) := by
  show execBrtQrevoke value s = _
  rw [execBrtQrevoke, hostWrite_eq h hr]
  simp only [hb, dif_pos b.isLt, hg, hs, and_self, if_true]

end loaded

/-! ## An offered tail (R319) -/

section offer
variable {s : State} {b : BerthId} {q : QueueId} {v : Word}

theorem offerTail_discarded (h : ((s.berth b).queue q).valid = false ∨ s.qRevoked b q = true ∨ s.qFrozen b q = true) :
    s.offerTail b q v = s := by
  rw [State.offerTail, if_pos (by simpa using h)]

/-- A queue that takes what its doorbell offers. -/
def State.takesTails (s : State) (b : BerthId) (q : QueueId) : Prop :=
  ((s.berth b).queue q).valid = true ∧ s.qRevoked b q = false ∧ s.qFrozen b q = false

/-- A tail from the present one up to one ring beyond HEAD. -/
def QueueSt.inRing (x : QueueSt) (v : Word) : Prop := x.tail ≤ v.toNat ∧ v.toNat - x.head ≤ 2 ^ x.ringLog2

theorem State.takesTails.not_discarded (h : s.takesTails b q) :
    ¬ (!((s.berth b).queue q).valid ∨ s.qRevoked b q ∨ s.qFrozen b q) := by
  obtain ⟨hv, hr, hf⟩ := h
  simp [hv, hr, hf]

theorem offerTail_taken (h : s.takesTails b q) (hv : ((s.berth b).queue q).inRing v) :
    s.offerTail b q v = s.updQueue b q (fun x => { x with tail := v.toNat }) := by
  rw [State.offerTail, if_neg h.not_discarded]
  exact if_pos hv

theorem offerTail_refused (h : s.takesTails b q) (hv : ¬ ((s.berth b).queue q).inRing v) :
    s.offerTail b q v = s.addFault { FaultEntry.bare 6 1 with
      bq := some (b.val, q.val), context := (s.berth b).context, addr := v } := by
  rw [State.offerTail, if_neg h.not_discarded]
  exact if_neg hv

end offer

/-! ## Doorbells (R318 to R320, R452) -/

/-- What the doorbell of a queue makes of a tail once the host's stores are there. -/
def State.ring (s : State) (b : BerthId) (q : QueueId) (v : Word) (sender : DbSender) : State :=
  match (s.berth b).state with
  | .empty => s
  | .unloading => s
  | .loading =>
    if s.ownsBerth b sender then s.updQueue b q (fun x => { x with held := x.held ++ [v] }) else s.freezeQueue b q 1
  | .resident => if s.ownsBerth b sender then s.offerTail b q v else s.freezeQueue b q 1

section ring
variable {s : State} {b : BerthId} {q : QueueId} {v : Word} {sender : DbSender}

theorem ring_idle (h : (s.berth b).state = .empty ∨ (s.berth b).state = .unloading) : s.ring b q v sender = s := by
  rcases h with h | h <;> simp only [State.ring, h]

theorem ring_foreign (ho : s.ownsBerth b sender = false) (h : (s.berth b).state = .resident ∨ (s.berth b).state = .loading) :
    s.ring b q v sender = s.freezeQueue b q 1 := by
  rcases h with h | h <;> simp only [State.ring, h, ho] <;> rfl

theorem ring_loading (ho : s.ownsBerth b sender = true) (h : (s.berth b).state = .loading) :
    s.ring b q v sender = s.updQueue b q (fun x => { x with held := x.held ++ [v] }) := by
  simp only [State.ring, h, ho, if_true]

theorem ring_resident (ho : s.ownsBerth b sender = true) (h : (s.berth b).state = .resident) :
    s.ring b q v sender = s.offerTail b q v := by
  simp only [State.ring, h, ho, if_true]

/-- An access of another size or kind than a tail does nothing but the stores. -/
theorem doorbell_otherAccess {access : DbAccess} (w : HostStores) (h : Operates s) (ha : access ≠ .tail) :
    exec (.doorbell b q access v sender w) s = .next (s.hostStores w) := by
  show execDoorbell b q access v sender w s = _
  rw [execDoorbell, whenOn_eq h]
  dsimp only
  rw [if_pos (by simp [ha])]
  rfl

/-- The doorbell of a sender that is no virtual function is rung. -/
theorem doorbell_rings (w : HostStores) (h : Operates s) (hh : s.hostUp = true) (hd : s.devUp = true)
    (hs : ∀ i, sender ≠ .function i) :
    exec (.doorbell b q .tail v sender w) s = .next (s.framed ((s.hostStores w).ring b q v sender)) := by
  have hdev : (s.hostStores w).devUp = true := hd
  show execDoorbell b q .tail v sender w s = _
  rw [execDoorbell, whenOn_eq h]
  cases sender with
  | function i => exact (hs i rfl).elim
  | pasid | noPasid =>
    dsimp only
    rw [if_neg (by simp [hh, hdev])]
    rfl

end ring

/-- Settles O36: the requests of BRT_REQ, what each leaves of the berth, and a doorbell by the state of its berth. -/
theorem berthsAndDoorbells : Obligations.BerthsAndDoorbells := by
  unfold Obligations.BerthsAndDoorbells
  refine ⟨fun s b h => ⟨?request, ?loads, fun _ => load_berthUsed, ?unloads, ?loaded, ?empties,
    fun _ hr hg hb hs => brtQrevoke_resident h hr hg hb hs⟩,
    fun s b q v sender w h hh hd _ hs => ⟨fun _ ha => doorbell_otherAccess w h ha, ?doorbell⟩⟩
  case request =>
    intro value hwf hr hg hb hf u ctx hidle
    have asks : BrtAsks s value b := ⟨h, hwf, hr, hg, hb, hf, hidle⟩
    exact ⟨fun hop => ⟨asks.loadBerth_taken hop, asks.loadBerth_busy hop⟩, asks.unloadBerth_taken⟩
  case loads =>
    intro ctx x he hc hs hx
    rw [load_sound he hc hs hx]
    exact ⟨State.berth_setBerth_same s b _, contextRec_loading hx, rfl⟩
  case unloads =>
    intro ctx hr
    rw [unload_resident hr]
    exact ⟨startUnload_state s b, rfl⟩
  case loaded =>
    intro hl hu hf hh
    refine ⟨_, berthLoaded_noneHeld h hl hu hf hh, ?_⟩
    rw [State.framed_berth, brtDone_berth, State.berth_setBerth_same]
    refine ⟨rfl, rfl, fun q hq => ?_⟩
    rw [residentBerth_queue, State.residentQueue, if_pos hq]
    exact ⟨rfl, rfl, rfl, rfl⟩
  case empties =>
    intro hs hb hi hk
    obtain ⟨hberth, -, hserved⟩ := emptyBerth_keeps s b
    refine ⟨_, berthEmpty_unfenced h hs hb hi hk, ?_, fun hsb => ?_⟩
    · rw [State.framed_berth, brtDone_berth, hberth]
    · exact brtDone_brtServed (hserved.trans hsb)
  case doorbell =>
    dsimp only
    rw [doorbell_rings w h hh hd hs]
    refine ⟨fun hb => ?_, fun ho hb => ?_, fun ho hb => ?_, fun ho hb => ?_⟩
    · rw [ring_idle (s := s.hostStores w) hb]
      rfl
    · rw [ring_foreign (s := s.hostStores w) ho hb]
    · rw [ring_loading (s := s.hostStores w) ho hb]
      rfl
    · rw [ring_resident (s := s.hostStores w) ho hb]
      refine ⟨fun hx => ?_, fun hv hr hf => ⟨fun ht => ?_, fun ht => ?_⟩⟩
      · rw [offerTail_discarded (s := s.hostStores w) hx]
        rfl
      · rw [offerTail_taken (s := s.hostStores w) ⟨hv, hr, hf⟩ ht]
        rfl
      · rw [offerTail_refused (s := s.hostStores w) ⟨hv, hr, hf⟩ ht]
        rfl

end Sys2Proof.Machine
end

section
/-! PROOF. Fetch and the wait for an event: the manifest at HEAD is refused, or bound and polled, and the statement
FetchAndEventWaits. -/

namespace Sys2Proof.Machine

/-! ## The manifest at HEAD (R321, R340 to R344) -/

/-- The entry at HEAD. -/
def State.headEntry (s : State) (b : BerthId) (q : QueueId) : List Byte :=
  s.ringEntries ((s.berth b).queue q) ((s.berth b).queue q).head 1

/-- How many continuation entries follow the entry at HEAD. -/
def State.headConts (s : State) (b : BerthId) (q : QueueId) : Nat := entryConts ((s.berth b).queue q).format (s.headEntry b q)

/-- The manifest at HEAD as its entries give it, and whether its format is right. -/
def State.headManifest (s : State) (b : BerthId) (q : QueueId) : Manifest × Bool :=
  let x := (s.berth b).queue q
  let conts := s.ringEntries x (x.head + 1) (s.headConts b q)
  let blank := Manifest.blank s.nextManifest b q (s.berth b).context
  let r := if x.format = 1 then manifestV1 blank (s.headEntry b q) conts else manifestV2 blank (s.headEntry b q) conts
  ({ r.1 with vdev := match s.slotVdev r.1.vslot.val with
    | some v => v.number
    | none => 0 }, r.2)

/-- A manifest enters `u`, what its binding left of `s`, and HEAD advances past its entries. -/
def State.entered (s : State) (b : BerthId) (q : QueueId) (u : State) (m : Manifest) : State :=
  let head := ((s.berth b).queue q).head + 1 + s.headConts b q
  State.publish (State.updQueue { u with manifests := u.manifests ++ [m], nextManifest := u.nextManifest + 1 } b q
    (fun y => { y with head := head })) ((s.berth b).record + 0x58 + 64 * q.val) (leBytes 8 head) []

/-! ## What becomes of it (R321, R327, R343, R569) -/

/-- FORMAT before TICKET: a manifest of a right format is refused as FORMAT where its code object shows it short of bindings. -/
def State.refuseUnbound (s : State) (m : Manifest) : State :=
  match s.shortOfCode m with
  | (u, short) => u.refuse m.id (if short then rsFormat else rsTicket)

/-- What FETCH makes of the manifest at HEAD. -/
def State.fetchHead (s : State) (b : BerthId) (q : QueueId) : State :=
  let m := (s.headManifest b q).1
  let bound := if (s.headManifest b q).2 then s.bindManifest m else (s, none)
  let u := s.entered b q bound.1 (bound.2.getD m)
  if !(s.headManifest b q).2 then u.refuse m.id rsFormat
  else if bound.2.isNone then u.refuseUnbound m
  else u.pollEvent m.id

section fetch
variable {s u : State} {b : BerthId} {q : QueueId} {m m1 : Manifest} {short : Bool}

theorem fetchHead_badFormat (h : (s.headManifest b q).2 = false) : s.fetchHead b q =
    (s.entered b q s (s.headManifest b q).1).refuse (s.headManifest b q).1.id rsFormat := by
  rw [State.fetchHead, h]
  rfl

theorem fetchHead_unbound (h : (s.headManifest b q).2 = true) (hb : s.bindManifest (s.headManifest b q).1 = (u, none)) :
    s.fetchHead b q = (s.entered b q u (s.headManifest b q).1).refuseUnbound (s.headManifest b q).1 := by
  rw [State.fetchHead, h, if_pos rfl, hb]
  rfl

theorem fetchHead_bound (h : (s.headManifest b q).2 = true) (hb : s.bindManifest (s.headManifest b q).1 = (u, some m1)) :
    s.fetchHead b q = (s.entered b q u m1).pollEvent (s.headManifest b q).1.id := by
  rw [State.fetchHead, h, if_pos rfl, hb]
  rfl

theorem refuseUnbound_of_short (h : s.shortOfCode m = (u, short)) :
    s.refuseUnbound m = u.refuse m.id (if short then rsFormat else rsTicket) := by
  rw [State.refuseUnbound, h]

/-- A queue that may fetch takes the manifest at HEAD, once its tail covers the continuations. -/
theorem fetch_takes (h : Operates s) (hf : s.mayFetch b q = true)
    (hk : 1 + s.headConts b q ≤ ((s.berth b).queue q).tail - ((s.berth b).queue q).head)
    (hu : (s.fetchHead b q).misused = none) : exec (.fetch b q) s = .next (s.framed (s.fetchHead b q)) := by
  have hcovered : ¬ ((s.berth b).queue q).tail - ((s.berth b).queue q).head < 1 + s.headConts b q := Nat.not_lt.mpr hk
  show execFetch b q s = _
  rw [execFetch]
  refine whenChecked_of h ?_ hu
  dsimp only
  rw [if_neg (by simp [hf])]
  exact if_neg hcovered

end fetch

/-! ## The wait for the event (R343, R347, R358) -/

section poll
variable {s u : State} {m : Manifest} {e : LedgerEntry} {v : Word}

theorem pollEvent_unnamed (hm : s.manifest? m.id = some m) (hp : m.phase = .waitEvent) (hw : m.waitEvent = 0) :
    s.pollEvent m.id = s.makeReady m.id := by
  simp only [State.pollEvent, hm, hp, hw, ne_eq, not_true_eq_false, if_false, if_true]

theorem pollEvent_reads (hm : s.manifest? m.id = some m) (hp : m.phase = .waitEvent) (hh : s.hostUp = true) (hw : m.waitEvent ≠ 0)
    (he : s.eventEntry m.waitEvent = some e) (ha : e.abandoned = false) (ht : s.trouble e.place 8 false = none)
    (hr : s.wordRead e.place = (u, .inl v)) :
    s.pollEvent m.id = if m.waitValue ≤ v then u.makeReady m.id else u := by
  simp only [State.pollEvent, hm, hp, if_neg hw, hh, he, ha, ht, hr]
  rfl

theorem waitEventPoll_polls (h : Operates s) (id : Nat) (hu : (s.pollEvent id).misused = none) :
    exec (.waitEventPoll id) s = .next (s.framed (s.pollEvent id)) := by
  show execWaitEventPoll id s = _
  rw [execWaitEventPoll, whenChecked_eq h hu]

end poll

/-- Settles O37: a fetch by what becomes of the manifest at HEAD, and a poll by whether the manifest names an event. -/
theorem fetchAndEventWaits : Obligations.FetchAndEventWaits := by
  unfold Obligations.FetchAndEventWaits
  refine ⟨fun s b q h _ hf => ?fetch, fun s u m e v h hn hm hp hh => ⟨fun hw => ?unnamed, fun hw he ha ht hr hu => ?named⟩⟩
  case fetch =>
    intro x entry k hk conts blank r m fetched
    refine ⟨fun hr hu => ?_, fun s1 s2 short hr hb hs hu => ?_, fun s1 m1 hr hb hu => ?_⟩
    · have e : s.fetchHead b q = (fetched s m).refuse m.id rsFormat := fetchHead_badFormat hr
      rw [← e] at hu ⊢
      exact fetch_takes h hf hk hu
    · have e : s.fetchHead b q = s2.refuse m.id (if short then rsFormat else rsTicket) :=
        (fetchHead_unbound hr hb).trans (refuseUnbound_of_short hs)
      rw [← e] at hu ⊢
      exact fetch_takes h hf hk hu
    · have e : s.fetchHead b q = (fetched s1 m1).pollEvent m.id := fetchHead_bound hr hb
      rw [← e] at hu ⊢
      exact fetch_takes h hf hk hu
  case unnamed =>
    have e := pollEvent_unnamed hm hp hw
    rw [waitEventPoll_polls h m.id (by rw [e, makeReady_keeps_misused, hn]), e]
    rfl
  case named =>
    have e := pollEvent_reads hm hp hh hw he ha ht hr
    rw [waitEventPoll_polls h m.id (by rw [e]; exact ite_keeps_misused hu hu), e]
    rfl

end Sys2Proof.Machine
end

section
/-! PROOF. The supply: what POWER_GOOD, POWER_DOWN and a supply fault leave, the invariant that without PWRGD only the flash holds,
and the command at the front of the queue. -/

namespace Sys2Proof.Machine

/-! ## Registers one after another -/

section registers
variable {s : State} (h : Registers.wf s = true)
include h

theorem setReg_registers_wf (off : Nat) (v : Word) : Registers.wf (s.setReg off v) = true := by
  simp only [Registers.wf, Bool.and_eq_true] at h ⊢
  exact ⟨mapPut_wf off _ h.1, h.2⟩

theorem setRegField_registers_wf (off hi lo v : Nat) : Registers.wf (s.setRegField off hi lo v) = true :=
  setReg_registers_wf h off _

theorem reg_setReg_other {off off' : Nat} (hne : off' ≠ off) (v : Word) : (s.setReg off v).reg off' = s.reg off' := by
  have hw : mapWf none s.regs = true := by simp only [Registers.wf, Bool.and_eq_true] at h; exact h.1
  simp only [State.reg, State.setReg, mapGet_mapPut off _ off' hw, if_neg hne]

theorem reg_setRegField_other {off off' : Nat} (hne : off' ≠ off) (hi lo v : Nat) :
    (s.setRegField off hi lo v).reg off' = s.reg off' :=
  reg_setReg_other h hne _

end registers

/-! ## PWRGD and its loss (R560) -/

theorem cold_onlyFlashHolds (s : State) : OnlyFlashHolds s.cold := rfl

theorem powerGood_starts {s : State} (hp : s.powered = false) (hb : s.supplyBroken = false) :
    exec .powerGood s = .next (State.startRom { s.cold with powered := true }) := by
  show execPowerGood s = _
  simp [execPowerGood, hp, hb]

theorem powerDown_cold {s : State} (hp : s.powered = true) : exec .powerDown s = .next s.cold := by
  show execPowerDown s = _
  simp [execPowerDown, hp]

theorem supplyFault_breaks {s : State} (hp : s.powered = true) : exec .supplyFault s = .next { s with supplyBroken := true } := by
  show execSupplyFault s = _
  simp [execSupplyFault, hp]

/-- What step 1 has set after the start count and the identity: the registers whole, then those it sets in part. -/
def State.identified (s : State) : State :=
  let count := (s.flashNat flashStartCount 4 + 1) % 2 ^ 32
  let s1 := s.flashPut flashStartCount (leBytes 4 count)
  (s1.setReg R_KEY_START_COUNT (BitVec.ofNat 64 count)).setReg R_DEV_SERIAL (BitVec.ofNat 64 (s1.flashNat flashSerial 8))

/-- What step 1 keeps beside the registers is not in them. -/
theorem reg_withStart (s : State) (a b c) (off : Nat) :
    State.reg { s with start := a, key := b, startSummary := c } off = s.reg off := rfl

theorem wf_withStart (s : State) (a b c) : Registers.wf { s with start := a, key := b, startSummary := c } = Registers.wf s := rfl

section identified
variable {s : State} (h : Registers.wf s = true)
include h

theorem identified_wf : Registers.wf s.identified = true :=
  setReg_registers_wf (setReg_registers_wf (s := s.flashPut _ _) h _ _) _ _

theorem identified_startCount :
    s.identified.reg R_KEY_START_COUNT = BitVec.ofNat 64 ((s.flashNat flashStartCount 4 + 1) % 2 ^ 32) := by
  have w : Registers.wf (s.flashPut flashStartCount (leBytes 4 ((s.flashNat flashStartCount 4 + 1) % 2 ^ 32))) = true := h
  rw [State.identified, reg_setReg_other (setReg_registers_wf w _ _) (by decide), State.reg_setReg_same w]

theorem identified_serial : s.identified.reg R_DEV_SERIAL = BitVec.ofNat 64 (s.identified.flashNat flashSerial 8) := by
  have w : Registers.wf (s.flashPut flashStartCount (leBytes 4 ((s.flashNat flashStartCount 4 + 1) % 2 ^ 32))) = true := h
  rw [State.identified, State.reg_setReg_same (setReg_registers_wf w _ _)]
  simp only [State.flashNat, State.setReg_flash]

/-- Step 1 sets no other register but LNK_MAC_BASE, DEV_IDENT and FER_STATUS. -/
theorem startRom_reg {off : Nat} (hm : off ≠ R_LNK_MAC_BASE) (hi : off ≠ R_DEV_IDENT) (hf : off ≠ R_FER_STATUS) :
    (State.startRom s).reg off = s.identified.reg off := by
  have w := identified_wf h
  have status : ∀ t : State, Registers.wf t = true → ∀ slot,
      (State.setFerState ((t.setSlot slot).setRegField R_FER_STATUS 27 24 2) ferAssayer).reg off = t.reg off := fun t ht slot => by
    have hs : Registers.wf (t.setSlot slot) = true := setRegField_registers_wf ht _ _ _ _
    rw [State.setFerState, reg_setRegField_other (setRegField_registers_wf hs _ _ _ _) hf, reg_setRegField_other hs hf, State.setSlot,
      reg_setRegField_other ht hf]
  rw [State.startRom, status]
  · rw [reg_withStart]
    exact (reg_setRegField_other (setRegField_registers_wf w _ _ _ _) hi _ _ _).trans (reg_setRegField_other w hm _ _ _)
  · rw [wf_withStart]
    exact setRegField_registers_wf (setRegField_registers_wf w _ _ _ _) _ _ _ _

theorem startRom_serial : (State.startRom s).reg R_DEV_SERIAL = BitVec.ofNat 64 ((State.startRom s).flashNat flashSerial 8) := by
  have e : (State.startRom s).flash = s.identified.flash := by
    simp only [State.startRom, State.setFerState, State.setSlot, State.setRegField, State.setReg_flash, State.identified]
  have e2 := startRom_reg h (off := R_DEV_SERIAL) (by decide) (by decide) (by decide)
  rw [e2, identified_serial h]
  unfold State.flashNat
  rw [e]

end identified

/-- Settles O32: a start from the flash, a part that is cold again, and one whose supply is broken. -/
theorem powerCommands : Obligations.PowerCommands := by
  unfold Obligations.PowerCommands
  refine ⟨fun s hp hb => ⟨_, powerGood_starts hp hb, rfl, rfl, rfl, rfl, rfl, rfl, rfl, rfl, ?_, ?_⟩,
    fun s hp => ⟨_, powerDown_cold hp, cold_onlyFlashHolds s, rfl, rfl, rfl, rfl⟩, fun s hp => supplyFault_breaks hp⟩
  · have h : Registers.wf { s.cold with powered := true } = true := rfl
    exact (startRom_reg h (by decide) (by decide) (by decide)).trans (identified_startCount h)
  · have h : Registers.wf { s.cold with powered := true } = true := rfl
    exact startRom_serial h

/-! ## The invariant of the supply (R560) -/

theorem supplyInv_of_powered {s : State} (h : s.powered = true) : SupplyInv s := fun h' => by simp [h] at h'

/-- A part without power idles as it is, and one with power stays powered. -/
theorem idle_supplyInv {s : State} (h : SupplyInv s) : SupplyInv (idle s) := by
  cases hp : s.powered
  · have e : idle s = s := by simp [idle, hp]
    exact e.symm ▸ h
  · refine supplyInv_of_powered ?_
    unfold idle
    simp only [hp, Bool.not_true, Bool.false_eq_true, if_false]
    split
    · rfl
    · split <;> rfl

/-- A command that runs through a wrapper keeps PWRGD, and one met without power changes nothing. -/
theorem runsBy_supplyInv {i : Instr} {s t : State} (hr : RunsBy i s) (hi : SupplyInv s) (h : exec i s = .next t) : SupplyInv t := by
  have next : (Operates s ∧ ∃ u, t = s.framed u) ∨ t = s := by
    obtain ⟨f, e⟩ | ⟨-, f, e⟩ := hr
    · obtain ⟨ho, ht⟩ | ⟨-, ht⟩ := whenOn_next (e ▸ h)
      · exact .inl ⟨ho, _, ht⟩
      · exact .inr ht
    · obtain ⟨ho, -, ht⟩ | ⟨-, ht⟩ := whenChecked_next (e ▸ h)
      · exact .inl ⟨ho, _, ht⟩
      · exact .inr ht
  obtain ⟨⟨hp, -⟩, u, rfl⟩ | rfl := next
  · exact supplyInv_of_powered hp
  · exact hi

theorem powerGood_supplyInv {s t : State} (hi : SupplyInv s) (h : exec .powerGood s = .next t) : SupplyInv t := by
  cases hb : s.supplyBroken
  · cases hp : s.powered
    · rw [powerGood_starts hp hb] at h
      cases h
      exact supplyInv_of_powered rfl
    · have e : exec .powerGood s = .next s := by show execPowerGood s = _; simp [execPowerGood, hb, hp]
      rw [e] at h
      cases h
      exact hi
  · have e : exec .powerGood s = .fault .outsideLimits := by show execPowerGood s = _; simp [execPowerGood, hb]
    rw [e] at h
    cases h

theorem powerDown_supplyInv {s t : State} (hi : SupplyInv s) (h : exec .powerDown s = .next t) : SupplyInv t := by
  cases hp : s.powered
  · have e : exec .powerDown s = .next s := by show execPowerDown s = _; simp [execPowerDown, hp]
    rw [e] at h
    cases h
    exact hi
  · rw [powerDown_cold hp] at h
    cases h
    exact fun _ => cold_onlyFlashHolds s

theorem supplyFault_supplyInv {s t : State} (hi : SupplyInv s) (h : exec .supplyFault s = .next t) : SupplyInv t := by
  cases hp : s.powered
  · have e : exec .supplyFault s = .next s := by show execSupplyFault s = _; simp [execSupplyFault, hp]
    rw [e] at h
    cases h
    exact hi
  · rw [supplyFault_breaks hp] at h
    cases h
    exact supplyInv_of_powered hp

/-- A message of IEEE 1588 may step the beat counter, of a powered part alone. -/
theorem ptpMessage_supplyInv {i : Instr} {s t : State} (hm : isPtpMessage i = true) (hi : SupplyInv s) (h : exec i s = .next t) :
    SupplyInv t := by
  obtain ⟨arr, domain, fraction, body, rfl⟩ : ∃ a d f b, i = .ptpMessage a d f b := by
    cases i <;> simp [isPtpMessage] at hm
    exact ⟨_, _, _, _, rfl⟩
  change execPtpMessage arr domain fraction body s = .next t at h
  rw [execPtpMessage, whenTimed] at h
  split at h
  · cases h
  · split at h
    · next hp => cases h; exact supplyInv_of_powered hp
    · cases h; exact hi

theorem exec_supplyInv {i : Instr} {s t : State} (hi : SupplyInv s) (h : exec i s = .next t) : SupplyInv t := by
  by_cases h1 : i = .powerGood
  · exact powerGood_supplyInv hi (h1 ▸ h)
  by_cases h2 : i = .powerDown
  · exact powerDown_supplyInv hi (h2 ▸ h)
  by_cases h3 : i = .supplyFault
  · exact supplyFault_supplyInv hi (h3 ▸ h)
  cases h4 : isPtpMessage i
  · exact runsBy_supplyInv (command_runs i s h1 h2 h3 h4) hi h
  · exact ptpMessage_supplyInv h4 hi h

/-- Settles O29: an idle beat and every command keep the invariant; without power the waiting commands are not the part's. -/
theorem supplyInvariantKept : Obligations.SupplyInvariantKept := by
  unfold Obligations.SupplyInvariantKept
  intro s t hi h
  unfold step at h
  split at h
  · cases h
    exact idle_supplyInv hi
  · next c rest _ =>
    have hq : SupplyInv { s with pending := rest } := fun hp => by
      have ho := hi hp
      unfold OnlyFlashHolds at ho ⊢
      rw [ho]
    exact exec_supplyInv hq h

/-- Settles O25: it is the definition of a step on a queue that is not empty. -/
theorem frontCommand : Obligations.FrontCommand := by
  unfold Obligations.FrontCommand
  exact fun c rest s => rfl

end Sys2Proof.Machine
end

section
/-! PROOF. Timetables and arbiters: a commit of shadows, the turn of an arbiter below the booths, and what takes a turn back. -/

namespace Sys2Proof.Machine

/-! ## Timetables (R373) -/

section timetable
variable {s : State} {p : PartId} {v : Lane} {t : Timetable}

/-- A sound timetable waits for the end of the cycle in force. -/
def State.ttWait (s : State) (p : PartId) (t : Timetable) : State :=
  let f := (s.part p).timetable
  s.updPart p (fun x => { x with ttPending := some t, ttPendingAt := f.anchor + ((s.beat - f.anchor) / f.cycle + 1) * f.cycle })

theorem ttWait_part : ((s.ttWait p t).part p).ttPending = some t ∧ ((s.ttWait p t).part p).timetable = (s.part p).timetable ∧
    ((s.ttWait p t).part p).ttPendingAt = (s.part p).timetable.anchor +
      ((s.beat - (s.part p).timetable.anchor) / (s.part p).timetable.cycle + 1) * (s.part p).timetable.cycle := by
  simp [State.ttWait, State.updPart]

/-- What a commit with its bit set does, where the host reaches the register. -/
theorem ttbCommit_eq (h : Operates s) (hr : s.hostReaches (R_TTB_COMMIT + ttBase p) = true) (hv : v.getLsbD 0 = true) :
    exec (.ttbCommit p v) s = .next (s.framed (
      let x := s.part p
      if x.ttPending.isSome then s.ttRefuse p
      else match s.ttShadow p with
        | none => s.ttRefuse p
        | some t =>
          if !x.timetable.enable ∨ s.beat < x.timetable.anchor then s.ttEffect p t
          else s.ttWait p t)) := by
  show execTtbCommit p v s = _
  rw [execTtbCommit, hostWrite_eq h hr]
  simp only [hv, Bool.not_true, Bool.false_eq_true, if_false]
  rfl

theorem framed_ttRefuse (p : PartId) : s.framed (s.ttRefuse p) = s.setRegField (R_TTB_STATUS + ttBase p) 30 30 1 := rfl

/-- Bookings that fit put the timetable in force. -/
theorem ttEffect_fits (hf : s.retest p t = true) :
    ((s.ttEffect p t).part p).timetable = t ∧ ((s.ttEffect p t).part p).ttPending = none := by
  simp [State.ttEffect, hf, State.updPart]

theorem ttbCommitEffect_due (h : Operates s) (hp : (s.part p).ttPending = some t) (hb : (s.part p).ttPendingAt ≤ s.beat) :
    exec (.ttbCommitEffect p) s = .next (s.framed (s.ttEffect p t)) := by
  show execTtbCommitEffect p s = _
  rw [execTtbCommitEffect, whenOn_eq h]
  simp only [hp, if_pos hb]

/-- Sound shadows are a timetable of 1 to 256 slots, each of 1 to 4096 units, on a multiple of 64 beats. -/
theorem ttShadow_sound (ht : s.ttShadow p = some t) :
    1 ≤ t.slots.length ∧ t.slots.length ≤ 256 ∧ t.anchor % 64 = 0 ∧
      ∀ x ∈ t.slots, 1 ≤ x.units ∧ x.units ≤ 4096 ∧ ∀ b, x.owner = some b → b < 48 := by
  unfold State.ttShadow at ht
  dsimp only at ht
  split at ht
  · cases ht
  · next hsound =>
    cases ht
    simp only [not_or, Bool.not_eq_true, List.any_eq_false] at hsound
    obtain ⟨hne, hle, howners⟩ := hsound
    refine ⟨?_, ?_, Nat.mul_mod_left _ _, fun x hx => ⟨?_, ?_, fun b hb => ?_⟩⟩
    · simp only [List.length_map, List.length_range]; omega
    · simp only [List.length_map, List.length_range]; omega
    · obtain ⟨i, -, rfl⟩ := List.mem_map.mp hx
      exact Nat.succ_pos _
    · obtain ⟨i, -, rfl⟩ := List.mem_map.mp hx
      exact Nat.mod_lt _ (Nat.two_pow_pos _)
    · have ho := howners x hx
      simp only [hb, decide_eq_false_iff_not] at ho
      omega

end timetable

/-! ## One turn of an arbiter (R376 to R378) -/

section turn
variable {a : ArbSt}

/-- A step that keeps the settings in force and the pointer keeps the owner of the slot at the pointer. -/
def ArbSt.KeepsSlot (a b : ArbSt) : Prop := b.active = a.active ∧ b.pointer = a.pointer

theorem ArbSt.KeepsSlot.slotOwner {b : ArbSt} (h : a.KeepsSlot b) : b.slotOwner = a.slotOwner := by
  obtain ⟨ha, hp⟩ := h
  simp only [ArbSt.slotOwner, ha, hp]

theorem foldl_keepsSlot {f : ArbSt → Nat → ArbSt} (hf : ∀ (a : ArbSt) r, a.KeepsSlot (f a r)) (l : List Nat) (a : ArbSt) :
    a.KeepsSlot (l.foldl f a) := by
  induction l generalizing a with
  | nil => exact ⟨rfl, rfl⟩
  | cons r l ih => exact ⟨(ih (f a r)).1.trans (hf a r).1, (ih (f a r)).2.trans (hf a r).2⟩

theorem expire_keepsSlot (a : ArbSt) (r : Nat) : a.KeepsSlot (a.expire r) := by
  unfold ArbSt.expire
  split <;> exact ⟨rfl, rfl⟩

theorem countWait_keepsSlot (a : ArbSt) (r : Nat) : a.KeepsSlot (a.countWait r) := by
  unfold ArbSt.countWait
  dsimp only
  split <;> exact ⟨rfl, rfl⟩

theorem keepOnly_keepsSlot (a : ArbSt) (present : List Nat) : a.KeepsSlot (a.keepOnly present) :=
  foldl_keepsSlot (f := ArbSt.clearWait) (fun _ _ => ⟨rfl, rfl⟩) _ a

theorem settle_keepsSlot (a : ArbSt) : a.KeepsSlot a.settle := by
  have h := foldl_keepsSlot expire_keepsSlot (a.wait.map (·.1)) a
  unfold ArbSt.settle ArbSt.newEpoch
  split <;> exact h

theorem grantTo_pointer (a : ArbSt) (present : List Nat) (w : Nat) : (a.grantTo present w).pointer = a.pointer :=
  (foldl_keepsSlot countWait_keepsSlot _ (a.clearWait w)).2

/-- Some requester present has the least key. -/
theorem minByKey_mem (key : Nat → List Nat) : ∀ l : List Nat, l ≠ [] → ∃ w ∈ l, minByKey key l = some w
  | [], h => absurd rfl h
  | x :: xs, _ => by
    unfold minByKey
    cases xs with
    | nil => exact ⟨x, List.mem_cons_self .., rfl⟩
    | cons y ys =>
      obtain ⟨w, hw, e⟩ := minByKey_mem key (y :: ys) (List.cons_ne_nil _ _)
      rw [e]
      by_cases hk : key w < key x
      · exact ⟨w, List.mem_cons_of_mem _ hw, by simp [hk]⟩
      · exact ⟨x, List.mem_cons_self .., by simp [hk]⟩

/-- The winner is present, and is the owner of the slot at the pointer where that is present. -/
theorem winner_present (n : Nat) {here : List Nat} (h : here ≠ []) :
    ∃ w ∈ here, a.winner n here = some w ∧ ∀ o ∈ here, a.slotOwner = some o → w = o := by
  obtain ⟨w, hw, e⟩ := minByKey_mem (a.rank n) here h
  unfold ArbSt.winner
  cases ho : a.slotOwner with
  | none => exact ⟨w, hw, e, fun _ _ h => by cases h⟩
  | some o =>
    by_cases hc : o ∈ here
    · exact ⟨o, hc, by simp [hc], fun _ _ h => by cases h; rfl⟩
    · exact ⟨w, hw, by simp [hc, e], fun o' ho' h => by cases h; exact absurd ho' hc⟩

/-- A turn over requests: it is granted to one of them, the owner of the slot first, and takes the slot at the pointer. -/
theorem turn_granted (n : Nat) {here : List Nat} (h : here ≠ []) :
    ∃ w ∈ here, (a.turn n here).granted = some w ∧ (a.turn n here).pointer = (a.pointer + 1) % 64 ∧
      ∀ o ∈ here, a.slotOwner = some o → w = o := by
  obtain ⟨w, hw, e, ho⟩ := winner_present (a := a.settle) n h
  have hs := settle_keepsSlot a
  refine ⟨w, hw, ?_, ?_, fun o hm hs' => ho o hm (hs.slotOwner.trans hs')⟩
  · simp only [ArbSt.turn, e]
    rfl
  · simp only [ArbSt.turn, e, ArbSt.pass, grantTo_pointer, hs.2]

theorem withdraw_granted {r : Nat} (h : a.granted = some r) :
    (a.withdraw r).granted = none ∧ (a.withdraw r).dead.toNat = satAdd a.dead.toNat 0xFFFFFFFF := by
  rw [ArbSt.withdraw, if_pos h]
  refine ⟨rfl, ?_⟩
  show (BitVec.ofNat 32 (satAdd a.dead.toNat 0xFFFFFFFF)).toNat = _
  have := a.dead.isLt
  rw [BitVec.toNat_ofNat, Nat.mod_eq_of_lt]
  unfold satAdd
  split <;> omega

end turn

section arbiter
variable {s : State} {i : ArbIndex}

theorem framed_updArb (n : Nat) (f : ArbSt → ArbSt) : s.framed (s.updArb n f) = s.setArb n (f (s.arb n)) := rfl

theorem arbitration_turns (h : Operates s) (hm : s.misused = none) {present : List Nat} (hi : i.val < 0x160)
    (hd : (arbOwner i.val).all (fun p => (s.part p).state != .stranded) = true)
    (hh : (present.filter (fun r => decide (r < s.arbN i.val))).eraseDups ≠ []) :
    exec (.arbitration i present) s = .next (s.setArb i.val
      (((s.arb i.val).keepOnly (present.filter (fun r => decide (r < s.arbN i.val))).eraseDups).turn (s.arbN i.val)
        (present.filter (fun r => decide (r < s.arbN i.val))).eraseDups)) := by
  show execArbitration i present s = _
  rw [execArbitration]
  refine whenChecked_of (t := s.setArb _ _) h ?_ hm
  have h1 : ¬ 0x170 ≤ i.val := by omega
  have h2 : ¬ 0x160 ≤ i.val := by omega
  dsimp only
  rw [if_neg, if_neg h2]
  · rfl
  · cases ho : arbOwner i.val with
    | none => simp [hh, h1]
    | some p =>
      have hp : (s.part p).state ≠ .stranded := by simpa [ho] using hd
      simp [hh, h1, hp]

theorem waitCounterExpire_eq (h : Operates s) {r : Nat} (hr : r < s.arbN i.val) :
    exec (.waitCounterExpire i r) s = .next (s.setArb i.val ((s.arb i.val).expire r)) := by
  show execWaitCounterExpire i r s = _
  rw [execWaitCounterExpire, whenOn_eq h, if_pos hr, framed_updArb]

theorem arbEpochAdvance_eq (h : Operates s) :
    exec (.arbEpochAdvance i) s = .next (s.setArb i.val (s.arb i.val).newEpoch) := by
  show execArbEpochAdvance i s = _
  rw [execArbEpochAdvance, whenOn_eq h, framed_updArb]

theorem arbWithdraw_granted (h : Operates s) {r : Nat} (hg : (s.arb i.val).granted = some r) :
    exec (.arbWithdraw i r) s = .next (s.setArb i.val ((s.arb i.val).withdraw r)) := by
  show execArbWithdraw i r s = _
  rw [execArbWithdraw, whenOn_eq h, if_pos hg, framed_updArb]

theorem arbCommit_selected (h : Operates s) {v : Lane} (hr : s.hostReaches R_ARB_COMMIT = true) (hv : v.getLsbD 0 = true)
    (hs : s.regField R_ARB_SEL 8 0 ≤ 0x180) :
    exec (.arbCommit v) s = .next (
      let n := s.regField R_ARB_SEL 8 0
      let a := s.arb n
      s.setArb n (if arbCommitOk n (s.arbN n) a.shadow then { a with active := a.shadow } else { a with refused := true })) := by
  show execArbCommit v s = _
  rw [execArbCommit, hostWrite_eq h hr]
  dsimp only
  rw [if_neg (by simp [hv]; omega)]
  split <;> rfl

end arbiter

/-- Settles O41: a commit by the pending timetable and the shadows, then a turn, its counters, a withdrawal and a commit. -/
theorem timetablesAndTurns : Obligations.TimetablesAndTurns := by
  unfold Obligations.TimetablesAndTurns
  refine ⟨fun s p h => ⟨fun v hr hv => ?commit, fun t hp hb => ⟨ttbCommitEffect_due h hp hb, ttEffect_fits⟩,
    fun t => ttShadow_sound⟩, fun s i h hm => ⟨fun present hi hd => ?turn, fun r => waitCounterExpire_eq h,
    arbEpochAdvance_eq h, fun r hg => ⟨_, arbWithdraw_granted h hg, withdraw_granted hg⟩, fun v => arbCommit_selected h⟩⟩
  case commit =>
    dsimp only
    rw [ttbCommit_eq h hr hv]
    refine ⟨fun hp => ?_, fun hp hsh => ?_, fun t hp hsh => ⟨fun hoff => ?_, fun hen han => ⟨s.framed (s.ttWait p t), ?_, ttWait_part⟩⟩⟩
    · simp only [hp, if_true, framed_ttRefuse]
    · simp only [hp, hsh, Option.isSome_none, Bool.false_eq_true, if_false, framed_ttRefuse]
    · simp only [hp, hsh, Option.isSome_none, Bool.false_eq_true, if_false]
      rw [if_pos (by simpa using hoff)]
    · simp only [hp, hsh, Option.isSome_none, Bool.false_eq_true, if_false]
      rw [if_neg (by simp [hen, han])]
  case turn =>
    intro here hh a
    have hk := keepOnly_keepsSlot (s.arb i.val) here
    obtain ⟨w, hw, hg, hp, ho⟩ := turn_granted (a := (s.arb i.val).keepOnly here) (s.arbN i.val) hh
    exact ⟨arbitration_turns h hm hi hd hh, w, hw, hg, hk.2 ▸ hp, fun o hm hs => ho o hm (hk.slotOwner.trans hs)⟩

end Sys2Proof.Machine
end

section
/-! PROOF. The fault ring and its summaries, and the reset of a partition step by step. -/

namespace Sys2Proof.Machine

/-! ## What folds and books leave -/

/-- A fold keeps what each of its steps keeps. -/
theorem foldl_keeps {α β : Type} (g : State → β) {f : State → α → State} (h : ∀ s a, g (f s a) = g s) (l : List α) (s : State) :
    g (l.foldl f s) = g s := by
  induction l generalizing s with
  | nil => rfl
  | cons a l ih => rw [List.foldl_cons, ih, h]

theorem foldl_books {α : Type} {f : State → α → State} (h : ∀ s a, BooksOnly s (f s a)) (l : List α) (s : State) :
    BooksOnly s (l.foldl f s) := by
  induction l generalizing s with
  | nil => exact BooksOnly.refl s
  | cons a l ih => exact (h s a).trans (ih _)

theorem BooksOnly.framed {s t : State} (h : BooksOnly s t) : s.framed t = t := by
  rw [h]
  rfl

/-! ## The ring and the overflow counts (R518, R519, R536) -/

section records
variable {s : State}

theorem fltRingWrite_eq (h : Operates s) {v : Word} (hr : s.hostReaches R_FLT_RING = true) :
    exec (.fltRingWrite v) s = .next (s.framed (s.newRing v)) := by
  show execFltRingWrite v s = _
  rw [execFltRingWrite, hostWrite_eq h hr]

theorem newRing_busy (v : Word) {b : BerthId} (hb : (s.berth b).state ≠ .empty) : s.newRing v = s :=
  if_pos (List.any_eq_true.mpr ⟨b, List.mem_finRange b, by simpa using hb⟩)

theorem newRing_idle (v : Word) (hb : ∀ b, (s.berth b).state = .empty) : s.newRing v =
    (let u := (s.setRegField R_FLT_RING 51 12 (wbits v 51 12)).setRegField R_FLT_RING 3 0 (wbits v 3 0)
     let r : State := State.setReg { u with faultMirrored := 0, faultConsumed := 0 } R_FLT_PRODUCED 0
     r.faults.foldl State.mirrorOne r) :=
  if_neg (by simp [hb])

/-- The counts and times of the sources that a write of FLT_OVF_CLEAR names are zero. -/
def State.ovfCleared (s : State) (v : Lane) : State :=
  ((List.range 16).filter (fun k => v.getLsbD k)).foldl (fun (s : State) k =>
    State.setReg (State.setReg (s.setReg (R_FLT_OVF_COUNT + 4 * k) 0) (R_FLT_OVF_FIRST + 8 * k) 0) (R_FLT_OVF_LAST + 8 * k) 0) s

theorem ovfCleared_books (v : Lane) : BooksOnly s (s.ovfCleared v) :=
  foldl_books (fun _ _ => ((setReg_books _ _ _).trans (setReg_books _ _ _)).trans (setReg_books _ _ _)) _ _

/-- Whether an overflow count is left. -/
def State.ovfLeft (s : State) : Bool := (List.range 16).any (fun k => (s.reg (R_FLT_OVF_COUNT + 4 * k)).toNat != 0)

theorem ovfLeft_iff : s.ovfLeft = true ↔ ∃ k, k < 16 ∧ s.reg (R_FLT_OVF_COUNT + 4 * k) ≠ 0 := by
  simp only [State.ovfLeft, List.any_eq_true, List.mem_range, bne_iff_ne, ne_eq, BitVec.toNat_eq]
  rfl

/-- FLT_STATUS shows whether a count is left. -/
theorem fltOvfClear_eq (h : Operates s) {v : Lane} (hr : s.hostReaches R_FLT_OVF_CLEAR = true) :
    exec (.fltOvfClear v) s = .next ((s.ovfCleared v).setRegField R_FLT_STATUS 31 31 (if (s.ovfCleared v).ovfLeft then 1 else 0)) := by
  have hb : BooksOnly s ((s.ovfCleared v).setRegField R_FLT_STATUS 31 31 (if (s.ovfCleared v).ovfLeft then 1 else 0)) :=
    (ovfCleared_books v).trans (setReg_books _ _ _)
  show execFltOvfClear v s = _
  rw [execFltOvfClear, hostWrite_eq h hr]
  exact congrArg Host.Outcome.next hb.framed

theorem faultSummaryWrite_eq (h : Operates s) (hf : s.ferryDown = false) (hu : s.devUp = true) :
    exec .faultSummaryWrite s = .next (s.flashPut flashSummary s.faultSummaryBytes) := by
  show execFaultSummaryWrite s = _
  rw [execFaultSummaryWrite, whenOn_eq h, if_neg (by simp [hf, hu])]
  rfl

/-- The list of a partition that has something to list goes to the flash, or an entry tells that it did not. -/
theorem retirementListWrite_eq (h : Operates s) {p : PartId} (ok : Bool) (hn : (s.part p).unlisted ≠ 0)
    (hr : (s.part p).state ≠ .resetting) (hf : s.ferryDown = false) :
    let a := flashRetirement + 2 * p.val
    let u := s.updPart p (fun x => { x with unlisted := 0 })
    exec (.retirementListWrite p ok) s = .next (s.framed (
      if ok then u.flashPut a (leBytes 2 (s.flashNat a 2 ||| (s.part p).unlisted.toNat))
      else u.addFault { FaultEntry.bare 1 5 with part := some p.val })) := by
  show execRetirementListWrite p ok s = _
  rw [execRetirementListWrite, whenOn_eq h]
  dsimp only
  rw [if_neg (not_or.mpr ⟨hn, not_or.mpr ⟨hr, by simp [hf]⟩⟩)]

end records

/-- Settles O43: a ring by whether every berth is Empty, the overflow counts that are left, and the two writes of the flash. -/
theorem faultRecords : Obligations.FaultRecords := by
  unfold Obligations.FaultRecords
  refine fun s h => ⟨fun v hr => ⟨fun ⟨b, hb⟩ => ?_, fun hb => ?_⟩, fun v hr => ⟨fun hz => ?_, fun hne => ?_⟩,
    faultSummaryWrite_eq h, fun p hn hr hf => ⟨?_, ?_⟩⟩
  · rw [fltRingWrite_eq h hr, newRing_busy v hb, State.framed_self]
  · rw [fltRingWrite_eq h hr, newRing_idle v hb]
  · have hl : (s.ovfCleared v).ovfLeft = false := by
      rw [← Bool.not_eq_true, ovfLeft_iff]
      exact fun ⟨k, hk, hne⟩ => hne (hz k hk)
    rw [fltOvfClear_eq h hr, hl]
    rfl
  · have hl : (s.ovfCleared v).ovfLeft = true := ovfLeft_iff.mpr hne
    rw [fltOvfClear_eq h hr, hl]
    rfl
  · rw [retirementListWrite_eq h true hn hr hf]
    rfl
  · rw [retirementListWrite_eq h false hn hr hf]
    rfl

/-! ## A reset begins and writes its salvage record (R521, R526 to R529) -/

section reset
variable {s : State} {p : PartId}

theorem allParts_filter_eq {f : PartId → Bool} (hf : ∀ c, f c = true ↔ c = p) : allParts.filter f = [p] := by
  have e : f = fun c => c == p := funext fun c => by rw [Bool.eq_iff_iff, hf]; simp
  have hone : ∀ p : PartId, allParts.filter (fun c => c == p) = [p] := by decide
  rw [e, hone]

/-- A write of FLT_RESET that names one partition. -/
theorem fltReset_one (h : Operates s) {v : Lane} (hr : s.hostReaches R_FLT_RESET = true) (hv : v.getLsbD 31 = true)
    (hp : ∀ c : PartId, v.getLsbD c.val = true ↔ c = p) : exec (.fltReset v) s = .next (s.framed (
      if (s.part p).state = .resetting ∨ (s.part p).state = .stranded then s.setRegField R_FLT_STATUS 30 30 1
      else s.startReset p 0 none)) := by
  show execFltReset v s = _
  rw [execFltReset, hostWrite_eq h hr, if_neg (by simp [hv]), allParts_filter_eq hp]
  rfl

theorem salvageDone_writes (h : Operates s) (h2 : s.resetStep p = 2) (hu : s.usedFallback p = false)
    (hr : s.halfState p ≠ .resetting) (hs : s.halfState p ≠ .stranded) :
    let x := s.storeSample p
    let n := x.1.numberRecord p (x.1.mainRecord p x.2)
    exec (.salvageDone p) s = .next (s.framed ((n.1.writeRecord p n.2).setStep p 3)) := by
  show execSalvageDone p s = _
  rw [execSalvageDone, whenOn_eq h]
  generalize s.storeSample p = x
  obtain ⟨u, store⟩ := x
  rw [if_neg (by simp [h2, hu, hr, hs])]

theorem salvageFallback_begins (h : Operates s) (h2 : s.resetStep p = 2) (hu : s.usedFallback p = false)
    (hb : (s.reg (R_FLT_RESET_BEAT + 8 * p.val)).toNat + 100000 ≤ s.beat) :
    exec (.salvageFallback p) s = .next (s.framed (State.addFault (s.setRegField (State.resetStatus p) 6 6 1)
      (resetEntry p 4 0))) := by
  show execSalvageFallback p s = _
  rw [execSalvageFallback, whenOn_eq h, if_neg (not_or.mpr ⟨not_not_intro h2, not_or.mpr ⟨by simp [hu], Nat.not_lt.mpr hb⟩⟩)]

/-- The record of the fall-back: it waits for a half that is being reset, and is written where the half can be reached. -/
theorem salvageFallbackDone_eq (h : Operates s) (h2 : s.resetStep p = 2) (hu : s.usedFallback p = true) (hf : s.ferryDown = false)
    (hs : s.halfState p ≠ .stranded) :
    exec (.salvageFallbackDone p) s = .next (s.framed (
      let n := s.numberRecord p (s.fallbackRecord p)
      (if s.halfState p = .resetting then n.1.updPart p (fun x => { x with salvageHeld := x.salvageHeld ++ [n.2] })
       else n.1.writeRecord p n.2).setStep p 3)) := by
  show execSalvageFallbackDone p s = _
  rw [execSalvageFallbackDone, whenOn_eq h, if_neg (by simp [h2, hu, hf])]
  dsimp only
  cases hh : s.halfState p
  case stranded => exact absurd hh hs
  all_goals rfl

/-- Records of a partition take their numbers in order, and each has its place in the half by its number. -/
theorem numberRecord_record (q : List (Nat × List Byte)) : (s.numberRecord p q).2 =
    ⟨(s.part p).salvageSeq, salvageBase p.val + (s.part p).salvageSeq % 512 * 0x20000, q⟩ := by
  simp only [State.numberRecord, recordAddr, recordsKept, recordBytes]

theorem salvageDeferredWrite_eq (h : Operates s) (hf : s.ferryDown = false) (hr : s.halfState p ≠ .resetting)
    (hs : s.halfState p ≠ .stranded) : exec (.salvageDeferredWrite p) s = .next (s.framed (State.updPart
      ((s.part p).salvageHeld.foldl (fun s r => s.writeRecord p r) s) p (fun x => { x with salvageHeld := [] }))) := by
  show execSalvageDeferredWrite p s = _
  rw [execSalvageDeferredWrite, whenOn_eq h, if_neg (by simp [hf, hr, hs])]

/-! ## Steps 3 to 7 (R64, R522, R524, R530) -/

/-- Nothing but error patterns, registers and the list of uncorrectable lines has changed. -/
def ErrorsOnly (s t : State) : Prop := t = { s with lineErrors := t.lineErrors, regs := t.regs, ueList := t.ueList }

theorem ErrorsOnly.trans {s t u : State} (h : ErrorsOnly s t) (k : ErrorsOnly t u) : ErrorsOnly s u := by
  unfold ErrorsOnly at *
  rw [h] at k
  exact k

theorem inject_errorsOnly (s : State) (line : Nat) : ErrorsOnly s (s.inject line) := by
  unfold State.inject
  split <;> rfl

theorem markRewritten_errorsOnly (s : State) (line : Nat) : ErrorsOnly s (s.markRewritten line) := by
  unfold State.markRewritten
  split
  · split <;> rfl
  · rfl

theorem foldl_errorsOnly {α : Type} {f : State → α → State} (h : ∀ s a, ErrorsOnly s (f s a)) (l : List α) (s : State) :
    ErrorsOnly s (l.foldl f s) := by
  induction l generalizing s with
  | nil => rfl
  | cons a l ih => exact (h s a).trans (ih _)

/-- A range zeroed is a range forgotten, but for the error patterns and their list. -/
theorem zeroRange_errorsOnly (s : State) (lo hi : Nat) : ErrorsOnly (s.forgetRange lo hi) (s.zeroRange lo hi) := by
  unfold State.zeroRange
  dsimp only
  refine ErrorsOnly.trans ?_ (foldl_errorsOnly markRewritten_errorsOnly _ _)
  split
  · exact inject_errorsOnly _ _
  · rfl

theorem zeroRange_mem (s : State) (lo hi : Nat) : (s.zeroRange lo hi).mem = mapClear s.mem lo hi := by
  rw [zeroRange_errorsOnly]
  rfl

theorem zeroRange_cores (s : State) (lo hi : Nat) : (s.zeroRange lo hi).cores = s.cores := by
  rw [zeroRange_errorsOnly]
  rfl

theorem zeroRange_parts (s : State) (lo hi : Nat) : (s.zeroRange lo hi).parts = s.parts := by
  rw [zeroRange_errorsOnly]
  rfl

@[simp] theorem mapCores_core (f : CoreId → CoreSt → CoreSt) (c : CoreId) : (s.mapCores f).core c = f c (s.core c) := by
  simp [State.mapCores, State.core]

theorem mapCores_mem (f : CoreId → CoreSt → CoreSt) : (s.mapCores f).mem = s.mem := by simp only [State.mapCores]

theorem core_congr {t : State} (h : t.cores = s.cores) (c : CoreId) : t.core c = s.core c := by
  unfold State.core
  rw [h]

theorem setStep_cores (p : PartId) (n : Nat) : (s.setStep p n).cores = s.cores := rfl

theorem setStep_mem (p : PartId) (n : Nat) : (s.setStep p n).mem = s.mem := rfl

theorem arbReset_cores (p : PartId) : (s.arbReset p).cores = s.cores := rfl

theorem arbReset_mem (p : PartId) : (s.arbReset p).mem = s.mem := rfl

/-- The state after ZERO_DONE. -/
def State.zeroed (s : State) (p : PartId) : State :=
  (((s.mapCores (fun c x => if corePart c = p then CoreSt.reset else x)).zeroRange (p.val * storeBytes)
    (p.val * storeBytes + storeBytes)).arbReset p).setStep p 4

theorem zeroDone_zeroes (h : Operates s) (h3 : s.resetStep p = 3) : exec (.zeroDone p) s = .next (s.framed (s.zeroed p)) := by
  show execZeroDone p s = _
  rw [execZeroDone, whenOn_eq h, if_neg (not_not_intro h3)]
  rfl

theorem zeroed_core (c : CoreId) : (s.zeroed p).core c = if corePart c = p then CoreSt.reset else s.core c := by
  have e : (s.zeroed p).cores = (s.mapCores (fun c x => if corePart c = p then CoreSt.reset else x)).cores := by
    rw [State.zeroed, setStep_cores, arbReset_cores, zeroRange_cores]
  rw [core_congr e, mapCores_core]

theorem zeroed_mem : (s.zeroed p).mem = mapClear s.mem (p.val * storeBytes) (p.val * storeBytes + storeBytes) := by
  rw [State.zeroed, setStep_mem, arbReset_mem, zeroRange_mem, mapCores_mem]

theorem patternTestDone_eq (h : Operates s) (h4 : s.resetStep p = 4) (failed : BitVec 15) :
    let w := (s.part p).working
    let u := ((List.range 15).filter (fun i => failed.getLsbD i && bitAt w i)).foldl (fun s i => s.pendPosition p i 4) s
    let r := u.updPart p (fun x => { x with
      bad := x.bad ||| x.pendingRetire, unlisted := x.unlisted ||| x.pendingRetire, pendingRetire := 0, onPosition := [] })
    exec (.patternTestDone p failed) s = .next (s.framed ((r.publishCoreMap p).awaitDram p)) := by
  show execPatternTestDone p failed s = _
  rw [execPatternTestDone, whenOn_eq h, if_neg (not_not_intro h4)]

/-- The state once both channels of a partition are initialised: its data range is no longer preserved. -/
def State.dramInitialised (s : State) (p : PartId) : State :=
  let lo := dramBase + p.val * dramStride
  (s.forgetRange lo (lo + dataMib p.val * 0x100000)).updPart p (fun x => { x with dramReady := true })

theorem dramReinitDone_eq (h : Operates s) (hr : (s.part p).state = .resetting) (h2 : 2 ≤ s.resetStep p)
    (hd : (s.part p).dramReady = false) : exec (.dramReinitDone p) s = .next (s.framed (
      if (s.dramInitialised p).resetStep p = 6 then (s.dramInitialised p).finishReset p else s.dramInitialised p)) := by
  show execDramReinitDone p s = _
  rw [execDramReinitDone, whenOn_eq h, if_neg (not_or.mpr ⟨not_not_intro hr, not_or.mpr ⟨Nat.not_lt.mpr h2, by simp [hd]⟩⟩)]
  rfl

theorem channelReinitFailed_strands {k : Fin 32} (h : Operates s) (hk : channelPart k = p) (hr : (s.part p).state = .resetting)
    (h2 : 2 ≤ s.resetStep p) (hd : (s.part p).dramReady = false) : exec (.channelReinitFailed k) s =
      .next (s.framed (State.strand (s.setReg (channelReg k.val) 2) p)) := by
  subst hk
  show execChannelReinitFailed k s = _
  rw [execChannelReinitFailed, whenOn_eq h]
  dsimp only
  rw [if_neg (not_or.mpr ⟨not_not_intro hr, not_or.mpr ⟨Nat.not_lt.mpr h2, by simp [hd]⟩⟩)]

theorem partitionStranded_strands (h : Operates s) (hr : (s.part p).state = .resetting)
    (hb : (s.reg (R_FLT_RESET_BEAT + 8 * p.val)).toNat + 10000000 ≤ s.beat) :
    exec (.partitionStranded p) s = .next (s.framed (s.strand p)) := by
  show execPartitionStranded p s = _
  rw [execPartitionStranded, whenOn_eq h, if_neg (not_or.mpr ⟨not_not_intro hr, Nat.not_lt.mpr hb⟩)]

end reset

/-- Settles O44: a reset begun or refused, the two paths of its salvage, then its steps and the two ways it strands. -/
theorem partitionReset : Obligations.PartitionReset := by
  unfold Obligations.PartitionReset
  refine ⟨fun s p h => ⟨fun v hr hv hp => ⟨fun hst => ?_, fun hr' hs => ?_⟩, fun h2 hu => ⟨salvageDone_writes h h2 hu,
    salvageFallback_begins h h2 hu⟩, fun h2 hu hf => ⟨fun hr => ?_, fun hr hs => ?_⟩, salvageDeferredWrite_eq h, fun q => numberRecord_record q⟩,
    fun s p h => ⟨fun h3 => ⟨_, zeroDone_zeroes h h3, fun c hc => ?_, fun c hc => ?_, ?_⟩,
      fun failed h4 => patternTestDone_eq h h4 failed, fun hr h2 hd => ⟨fun h6 => ?_, fun h6 => ?_,
        fun k hk => channelReinitFailed_strands h hk hr h2 hd⟩, partitionStranded_strands h⟩⟩
  · rw [fltReset_one h hr hv hp, if_pos hst]
    rfl
  · rw [fltReset_one h hr hv hp, if_neg (not_or.mpr ⟨hr', hs⟩)]
  · rw [salvageFallbackDone_eq h h2 hu hf (by rw [hr]; decide)]
    simp only [if_pos hr]
  · rw [salvageFallbackDone_eq h h2 hu hf hs]
    simp only [if_neg hr]
  · rw [State.framed_core, zeroed_core, if_pos hc]
  · rw [State.framed_core, zeroed_core, if_neg hc]
  · rw [State.framed_mem, zeroed_mem]
  · have h6 : (s.dramInitialised p).resetStep p ≠ 6 := h6
    rw [dramReinitDone_eq h hr h2 hd, if_neg h6]
    rfl
  · have h6 : (s.dramInitialised p).resetStep p = 6 := h6
    rw [dramReinitDone_eq h hr h2 hd, if_pos h6]
    rfl

end Sys2Proof.Machine
end

section
/-! PROOF. The steps of a start: each ends with its journal entry and begins the next, or the start fails. -/

namespace Sys2Proof.Machine

/-! ## What a grant in force changes (R461 to R464) -/

/-- Nothing but registers, toll buckets, manifests and the source of free values has changed. -/
def GrantOnly (s t : State) : Prop := t = { s with regs := t.regs, parts := t.parts, manifests := t.manifests, free := t.free }

theorem GrantOnly.refl (s : State) : GrantOnly s s := rfl

theorem GrantOnly.trans {s t u : State} (h : GrantOnly s t) (k : GrantOnly t u) : GrantOnly s u := by
  unfold GrantOnly at *
  rw [h] at k
  exact k

theorem foldl_grantOnly {α : Type} {f : State → α → State} (h : ∀ s a, GrantOnly s (f s a)) (l : List α) (s : State) :
    GrantOnly s (l.foldl f s) := by
  induction l generalizing s with
  | nil => exact GrantOnly.refl s
  | cons a l ih => exact (h s a).trans (ih _)

theorem ite_grantOnly {P : Prop} [Decidable P] {s t u : State} (h : GrantOnly s t) (k : GrantOnly s u) :
    GrantOnly s (if P then t else u) := by
  split <;> assumption

theorem setReg_grantOnly (s : State) (off : Nat) (v : Word) : GrantOnly s (s.setReg off v) := rfl

theorem setRegField_grantOnly (s : State) (off hi lo v : Nat) : GrantOnly s (s.setRegField off hi lo v) := rfl

theorem refillAll_grantOnly (s : State) : GrantOnly s s.refillAll := by
  unfold State.refillAll
  refine foldl_grantOnly ?_ _ _
  exact fun _ _ => rfl

theorem showBudget_grantOnly (s : State) : GrantOnly s s.showBudget := by
  unfold State.showBudget
  refine (setReg_grantOnly s R_PWR_LOANS (BitVec.ofNat 64 (s.power.borrowed.length * 65536 + s.power.lent.length))).trans ?_
  generalize s.setReg R_PWR_LOANS _ = u
  exact ite_grantOnly (.refl u) ((refillAll_grantOnly u).trans (setRegField_grantOnly _ _ _ _ _))

theorem voidManifest_grantOnly (s : State) (id : Nat) (c : BitVec 8) : GrantOnly s (s.voidManifest id c) := by
  unfold State.voidManifest
  split
  · rfl
  · split
    · rfl
    · dsimp only
      split <;> rfl

theorem checkFloors_grantOnly (s : State) : GrantOnly s s.checkFloors := by
  unfold State.checkFloors
  refine foldl_grantOnly ?_ _ _
  exact fun s m => (voidManifest_grantOnly s m.id 1).trans (setRegField_grantOnly _ _ _ _ _)

theorem holdFloor_grantOnly (s : State) : GrantOnly s s.holdFloor := by
  unfold State.holdFloor State.showShort
  dsimp only
  refine GrantOnly.trans ?_ (setRegField_grantOnly _ _ _ _ _)
  refine GrantOnly.trans (t := if _ then _ else _) ?_ (ite_grantOnly (setRegField_grantOnly _ _ _ _ _) (.refl _))
  exact ite_grantOnly (.refl s) ((refillAll_grantOnly s).trans (setRegField_grantOnly _ _ _ _ _))

theorem setGrant_grantOnly (s : State) (g f : Nat) : GrantOnly s (s.setGrant g f) := by
  unfold State.setGrant
  refine GrantOnly.trans ?_ (holdFloor_grantOnly _)
  refine GrantOnly.trans ?_ (checkFloors_grantOnly _)
  exact ((setRegField_grantOnly _ _ _ _ _).trans (setRegField_grantOnly _ _ _ _ _)).trans (showBudget_grantOnly _)

section start
variable {s : State}

/-! ## The boot assay (R539 to R541) -/

/-- The operator fields decide the paths of a start, not whether its steps run again. -/
theorem applyOperator_rerun (s : State) : (s.applyOperator true).start.rerun = s.start.rerun := by
  unfold State.applyOperator
  dsimp only
  rw [if_pos rfl, setGrant_grantOnly]
  rfl

/-- What the assay of a sound record does where the normal path takes a slot that holds an image. -/
theorem startAssay_eq (h : Operates s) (hd : s.devState ≠ devFailed) (hst : s.startStep = 2) (hr : s.start.rerun = false)
    (sig : Bool) (hc : s.ecilamoOk true = true) (ho : s.operatorOk true = true)
    (hp : (s.applyOperator true).pathOf 2 = pathNormal)
    (hf : (s.applyOperator true).slotFull (s.applyOperator true).start.normalSlot = true)
    (hb : (((s.applyOperator true).setSlot (s.applyOperator true).start.normalSlot).beginStep 2 pathNormal).slotFull
      (s.applyOperator true).start.normalSlot = true) :
    let slot := (s.applyOperator true).start.normalSlot
    let b := ((s.applyOperator true).setSlot slot).beginStep 2 pathNormal
    let m0 := b.extendMeas 0 (b.stageOneDigest slot)
    exec (.startAssay sig true true) s = .next (s.framed (
      if !sig then m0.startFails 2 codeSignature
      else if m0.flashNat (slotBase slot + 4) 4 < minFwOf m0 then m0.startFails 2 codeVersion
      else
        let m2 := (m0.extendMeas 1 (m0.managementDigest slot)).extendMeas 2 (hash 32 (mapRead 0 m0.flash flashConfig configBytes))
        State.setFerState (m2.nextStep 2 codeNone slot) ferStarting)) := by
  have hr' := (applyOperator_rerun s).trans hr
  show execStartAssay sig true true s = _
  rw [execStartAssay, startRow_eq h hst hd]
  dsimp only
  rw [hc, ho, if_pos rfl]
  generalize s.applyOperator true = u at *
  have hpath : (if u.pathOf 2 = pathAlternate ∨ (!u.slotFull u.start.normalSlot) = true ∧ u.slotFull (1 - u.start.normalSlot) = true
      then pathAlternate else pathNormal) = pathNormal := if_neg (by rw [hp, hf]; simp [pathNormal, pathAlternate])
  have hslot : (if pathNormal = pathAlternate then 1 - u.start.normalSlot else u.start.normalSlot) = u.start.normalSlot :=
    if_neg (by decide)
  rw [hr', if_neg Bool.false_ne_true, hpath, hslot, hb]
  have hne : ¬(!true) = true := by decide
  rw [if_neg hne, if_neg hne]

/-! ## Steps 3 and 4 (R488, R541, R545) -/

theorem startRoot_matches (h : Operates s) (hd : s.devState ≠ devFailed) (hst : s.startStep = 3) (hp : s.start.path = pathNormal) :
    exec (.startRoot true) s = .next (s.framed (State.afterRoot
      (State.setRegField { s.drawNonce with
        key := { s.drawNonce.key with seed := fitBytes 32 Config.pufSeed, rootFailed := false } } R_KEY_TENANT 31 31 0) codeNone)) := by
  have hn : s.drawNonce.start.path ≠ pathSkipped := by
    have e : s.drawNonce.start = s.start := by
      unfold State.drawNonce
      split <;> rfl
    rw [e, hp]
    decide
  show execStartRoot true s = _
  rw [execStartRoot, startRow_eq h hst hd]
  dsimp only
  rw [if_pos ⟨rfl, hn⟩]

theorem startFerry_eq (h : Operates s) (hd : s.devState ≠ devFailed) (hst : s.startStep = 4) (ok : Bool) :
    exec (.startFerry ok) s = .next (s.framed (if ok then State.setFerState (s.nextStep 4 codeNone s.slotInUse) ferRunning
      else s.startFails 4 codeTimeout)) := by
  show execStartFerry ok s = _
  rw [execStartFerry, startRow_eq h hst hd]

/-! ## Step 5: the compute dies (R60, R541) -/

/-- The bad positions that the flash names for a partition: those of the record and of the retirement list. -/
def State.flashBad (s : State) (p : PartId) : BitVec 15 := s.flashMask (flashConfig + 0x10) p ||| s.flashMask flashRetirement p

/-- A partition takes its map from the flash. -/
def State.mapOneBad (s : State) (p : PartId) : State := (s.updPart p (fun x => { x with bad := s.flashBad p })).publishCoreMap p

theorem mapOneBad_same (p : PartId) : ((s.mapOneBad p).part p).bad = s.flashBad p :=
  congrArg PartSt.bad (State.part_setPart_same s p _)

theorem mapOneBad_other {p q : PartId} (h : p ≠ q) : (s.mapOneBad q).part p = s.part p := State.part_setPart_other s q p _ h

theorem mapOneBad_flash (p : PartId) : (s.mapOneBad p).flash = s.flash := rfl

theorem flashBad_congr {t : State} (h : t.flash = s.flash) (p : PartId) : t.flashBad p = s.flashBad p := by
  simp only [State.flashBad, State.flashMask, State.flashNat, h]

/-- The partitions of a list take their maps. -/
def State.mapBad (s : State) (l : List PartId) : State := l.foldl State.mapOneBad s

theorem mapBad_mem (l : List PartId) : (s.mapBad l).mem = s.mem :=
  foldl_keeps State.mem (f := State.mapOneBad) (fun _ _ => rfl) l s

/-- Each partition of the list has its map, and one that has it keeps it. -/
theorem mapBad_bad (p : PartId) (l : List PartId) (hp : p ∈ l ∨ (s.part p).bad = s.flashBad p) :
    ((s.mapBad l).part p).bad = s.flashBad p := by
  induction l generalizing s with
  | nil => exact hp.resolve_left List.not_mem_nil
  | cons q l ih =>
    rw [← flashBad_congr (mapOneBad_flash q)]
    refine ih (s := s.mapOneBad q) ?_
    rw [flashBad_congr (mapOneBad_flash q)]
    by_cases hq : p = q
    · subst hq
      exact .inr (mapOneBad_same p)
    · rw [mapOneBad_other hq]
      exact hp.imp_left (fun h => (List.mem_cons.mp h).resolve_left hq)

/-- Step 5 without a cluster that fails. -/
def State.computeStarted (s : State) : State :=
  let u := (s.mapBad allParts).zeroRange 0 (16 * storeBytes)
  u.extendMeas 3 (hash 32 (mapRead 0 u.flash (flashConfig + 0x10) 32 ++ mapRead 0 u.flash flashRetirement 32))

theorem startCompute_sound (h : Operates s) (hd : s.devState ≠ devFailed) (hst : s.startStep = 5) :
    exec (.startCompute 0) s = .next (s.framed (s.computeStarted.nextStep 5 codeNone 0)) := by
  have none_failed : allParts.filter (fun p => (0 : BitVec 16).getLsbD p.val) = [] := by simp
  show execStartCompute 0 s = _
  rw [execStartCompute, startRow_eq h hst hd]
  dsimp only
  rw [none_failed, if_pos (Or.inl rfl)]
  rfl

theorem computeStarted_mem : s.computeStarted.mem = (s.zeroRange 0 (16 * storeBytes)).mem := by
  have e : ∀ u : State, ∀ n d, (u.extendMeas n d).mem = u.mem := fun u n d => by
    unfold State.extendMeas
    dsimp only
    refine (foldl_keeps State.mem ?_ _ _).trans rfl
    exact fun _ _ => rfl
  rw [State.computeStarted, e, zeroRange_mem, zeroRange_mem, mapBad_mem]

theorem computeStarted_bad (p : PartId) : (s.computeStarted.part p).bad = s.flashBad p := by
  have e : ∀ u : State, ∀ n d, (u.extendMeas n d).parts = u.parts := fun u n d => by
    unfold State.extendMeas
    dsimp only
    refine (foldl_keeps State.parts ?_ _ _).trans rfl
    exact fun _ _ => rfl
  have hp : s.computeStarted.parts = (s.mapBad allParts).parts := by rw [State.computeStarted, e, zeroRange_parts]
  have hq : s.computeStarted.part p = (s.mapBad allParts).part p := by simp only [State.part, hp]
  rw [hq, mapBad_bad p allParts (.inl (List.mem_finRange p))]

/-! ## Steps 6 to 8: the DRAM, the optics and the roster (R391, R541, R545) -/

/-- Every channel is initialised. -/
def State.channelsReady (s : State) : State := (List.finRange 32).foldl (fun (s : State) k => s.setReg (channelReg k.val) 1) s

theorem channelsReady_parts : s.channelsReady.parts = s.parts := by
  unfold State.channelsReady
  refine foldl_keeps State.parts ?_ _ _
  exact fun _ _ => rfl

theorem setPath_parts (path : Nat) : (s.setPath path).parts = s.parts := by
  unfold State.setPath
  dsimp only
  split <;> rfl

theorem setRegField_parts (off hi lo v : Nat) : (s.setRegField off hi lo v).parts = s.parts := rfl

theorem journalPut_parts (step event code detail : Nat) : (s.journalPut step event code detail).parts = s.parts := by
  simp only [State.journalPut, State.flashPut]

theorem beginStep_parts (step path : Nat) : (s.beginStep step path).parts = s.parts := by
  rw [State.beginStep, journalPut_parts, setPath_parts]
  rfl

theorem nextStep_parts (step code detail : Nat) : (s.nextStep step code detail).parts = s.parts := by
  unfold State.nextStep State.endStep
  dsimp only
  split
  · rw [setRegField_parts, journalPut_parts]
  · rw [beginStep_parts, journalPut_parts]

/-- With every channel initialised and no partition stranded before, the part is READY and step 7 begins. -/
theorem dramStarted_sound (hp : ∀ p, (s.part p).state ≠ .stranded) :
    (let u := s.channelsReady
     let d := u.setRegField R_DEV_STATE 3 0 (if allParts.any (fun p => (u.part p).state == .stranded) then devDegraded else devReady)
     let n := d.nextStep 6 codeNone 0
     if (n.part 15).state = .stranded then { n with ferryDown := true } else n) =
    (s.channelsReady.setRegField R_DEV_STATE 3 0 devReady).nextStep 6 codeNone 0 := by
  have keeps : ∀ t : State, t.parts = s.parts → ∀ p, (t.part p).state ≠ .stranded := fun t ht p => by
    rw [State.part, ht]
    exact hp p
  have hu := keeps _ channelsReady_parts
  have hn : allParts.any (fun p => (s.channelsReady.part p).state == .stranded) = false := by
    rw [List.any_eq_false]
    exact fun p _ => by simpa using hu p
  dsimp only
  rw [hn, if_neg Bool.false_ne_true, if_neg]
  refine keeps _ ?_ 15
  rw [nextStep_parts, setRegField_parts, channelsReady_parts]

theorem startDram_sound (h : Operates s) (hd : s.devState ≠ devFailed) (hst : s.startStep = 6)
    (hp : ∀ p, (s.part p).state ≠ .stranded) :
    exec (.startDram 0 0) s = .next (s.framed ((s.channelsReady.setRegField R_DEV_STATE 3 0 devReady).nextStep 6 codeNone 0)) := by
  have hres : ∀ alt k, channelTrained alt ((0 : BitVec 32).getLsbD k) ((0 : BitVec 32).getLsbD k) = 1 := fun alt k => by
    simp [channelTrained]
  show execStartDram 0 0 s = _
  rw [execStartDram, startRow_eq h hst hd]
  dsimp only
  simp only [hres, show ¬((1 : Nat) = 2) by decide, if_false]
  exact congrArg (fun t => Host.Outcome.next (s.framed t)) (dramStarted_sound hp)

theorem startOptics_skipped (h : Operates s) (hd : s.devState ≠ devFailed) (hst : s.startStep = 7) (hf : s.ferryDown = false)
    (hp : s.start.path = pathSkipped) (lanes : BitVec 32) :
    exec (.startOptics lanes) s = .next (s.framed (s.nextStep 7 codeNone 0)) := by
  show execStartOptics lanes s = _
  rw [execStartOptics, startRow_eq h hst hd, hf, if_neg Bool.false_ne_true, if_pos hp]

/-- The ports enabled and their lanes trained, but for those that failed. -/
def State.opticsTrained (s : State) (lanes : BitVec 32) : State :=
  (List.range 4).foldl (fun s p => if s.portEnabled p then
    State.trainCheck (s.setRegField (portStatus p) 23 16 (bits lanes.toNat (8 * p + 7) (8 * p))) p else s) s.enablePorts

/-- The lanes that have failed, eight a port. -/
def State.lanesFailed (s : State) : Nat :=
  ((List.range 4).map (fun p => s.regField (portStatus p) 23 16 * 2 ^ (8 * p))).foldl (· + ·) 0

theorem startOptics_trains (h : Operates s) (hd : s.devState ≠ devFailed) (hst : s.startStep = 7) (hf : s.ferryDown = false)
    (hp : s.start.path ≠ pathSkipped) (lanes : BitVec 32) :
    exec (.startOptics lanes) s = .next (s.framed (
      let u := s.opticsTrained lanes
      u.nextStep 7 (if u.lanesFailed = 0 ∨ u.start.path = pathAlternate then codeNone else codeLane) u.lanesFailed)) := by
  show execStartOptics lanes s = _
  rw [execStartOptics, startRow_eq h hst hd, hf, if_neg Bool.false_ne_true, if_neg hp]
  rfl

theorem startRoster_eq (h : Operates s) (hd : s.devState ≠ devFailed) (hst : s.startStep = 8) (hf : s.ferryDown = false)
    (hp : s.start.path ≠ pathSkipped) (ok : Bool) :
    exec (.startRoster ok) s = .next (s.framed (if ok then s.startDiscovery.nextStep 8 codeNone 0
      else s.nextStep 8 codeDiscovery 0)) := by
  show execStartRoster ok s = _
  rw [execStartRoster, startRow_eq h hst hd, hf, if_neg Bool.false_ne_true, if_neg hp]

end start

/-- Settles O33, step by step. -/
theorem startSteps : Obligations.StartSteps := by
  unfold Obligations.StartSteps
  refine fun s h hd => ⟨fun hst hr => ?assay, fun hst hp => startRoot_matches h hd hst hp, fun hst => ⟨startFerry_eq h hd hst true,
    startFerry_eq h hd hst false⟩, fun hst => ⟨_, s.computeStarted, startCompute_sound h hd hst, rfl, computeStarted_mem, computeStarted_bad⟩,
    fun hst hp => startDram_sound h hd hst hp, fun hst hf => ⟨fun hp => startOptics_skipped h hd hst hf hp,
      fun hp lanes => ⟨_, _, _, startOptics_trains h hd hst hf hp lanes⟩⟩,
    fun hst hf hp => ⟨startRoster_eq h hd hst hf hp true, startRoster_eq h hd hst hf hp false⟩⟩
  case assay =>
    dsimp only
    refine fun hc ho hp hf hb hv => ⟨?_, ?_⟩
    · rw [startAssay_eq h hd hst hr true hc ho hp hf hb]
      dsimp only
      rw [if_neg (by decide), if_neg (Nat.not_lt.mpr hv)]
    · rw [startAssay_eq h hd hst hr false hc ho hp hf hb]
      dsimp only
      rw [if_pos (by decide)]

end Sys2Proof.Machine
end

section
/-! PROOF. Bit fields of registers, ports and lasers, and the frames that are passed on, flooded or discarded. -/

namespace Sys2Proof.Machine

/-! ## Bit fields -/

section fields
variable {x v hi lo : Nat}

theorem testBit_bits (i : Nat) : (bits x hi lo).testBit i = (decide (i < hi + 1 - lo) && x.testBit (lo + i)) := by
  rw [bits, Nat.testBit_mod_two_pow, Nat.testBit_shiftRight]

/-- A number with a field replaced: what lies above the field, the field, and what lies below. -/
theorem setBits_eq (h : lo ≤ hi + 1) :
    setBits x hi lo v = 2 ^ (hi + 1) * (x / 2 ^ (hi + 1)) + (2 ^ lo * (v % 2 ^ (hi + 1 - lo)) + x % 2 ^ lo) := by
  obtain ⟨w, hw⟩ : ∃ w, hi + 1 = lo + w := ⟨hi + 1 - lo, by omega⟩
  have hx : x = 2 ^ lo * (2 ^ w * (x / 2 ^ (lo + w)) + x / 2 ^ lo % 2 ^ w) + x % 2 ^ lo := by
    rw [Nat.pow_add, ← Nat.div_div_eq_div_mul, Nat.div_add_mod, Nat.div_add_mod]
  have e : lo + w - lo = w := by omega
  rw [setBits, bits, Nat.shiftRight_eq_div_pow, hw, e, Nat.pow_add]
  rw [Nat.mul_add, ← Nat.mul_assoc, ← Nat.pow_add] at hx
  rw [← Nat.pow_add, Nat.mul_comm (x / 2 ^ lo % 2 ^ w), Nat.mul_comm (v % 2 ^ w)]
  omega

theorem testBit_setBits (h : lo ≤ hi + 1) (i : Nat) :
    (setBits x hi lo v).testBit i = if lo ≤ i ∧ i ≤ hi then v.testBit (i - lo) else x.testBit i := by
  have hb : 2 ^ lo * (v % 2 ^ (hi + 1 - lo)) + x % 2 ^ lo < 2 ^ (hi + 1) := by
    have h1 : v % 2 ^ (hi + 1 - lo) + 1 ≤ 2 ^ (hi + 1 - lo) := Nat.mod_lt _ (Nat.two_pow_pos _)
    have h2 := Nat.mod_lt x (Nat.two_pow_pos lo)
    calc 2 ^ lo * (v % 2 ^ (hi + 1 - lo)) + x % 2 ^ lo
      _ < 2 ^ lo * (v % 2 ^ (hi + 1 - lo)) + 2 ^ lo := by omega
      _ = 2 ^ lo * (v % 2 ^ (hi + 1 - lo) + 1) := by rw [Nat.mul_add, Nat.mul_one]
      _ ≤ 2 ^ lo * 2 ^ (hi + 1 - lo) := Nat.mul_le_mul_left _ h1
      _ = 2 ^ (hi + 1) := by rw [← Nat.pow_add]; congr 1; omega
  rw [setBits_eq h, Nat.testBit_two_pow_mul_add _ hb, Nat.testBit_two_pow_mul_add _ (Nat.mod_lt _ (Nat.two_pow_pos _)),
    Nat.testBit_mod_two_pow, Nat.testBit_mod_two_pow, Nat.testBit_div_two_pow]
  by_cases h1 : i < lo
  · have h2 : i < hi + 1 := by omega
    simp [h1, h2, Nat.not_le.mpr h1]
  · by_cases h2 : i < hi + 1
    · have h3 : lo ≤ i ∧ i ≤ hi := by omega
      have h4 : i - lo < hi + 1 - lo := by omega
      rw [if_pos h2, if_neg h1, if_pos h3, decide_eq_true h4, Bool.true_and]
    · have h3 : ¬(lo ≤ i ∧ i ≤ hi) := by omega
      rw [if_neg h2, if_neg h3]
      congr 1
      omega

/-- A field of a word of 64 bits stays within it. -/
theorem toNat_setWBits (w : Word) (h : lo ≤ hi + 1) (hh : hi < 64) : (setWBits w hi lo v).toNat = setBits w.toNat hi lo v := by
  rw [setWBits, BitVec.toNat_ofNat]
  refine Nat.mod_eq_of_lt (Nat.lt_pow_two_of_testBit _ fun i hi' => ?_)
  rw [testBit_setBits h, if_neg (by omega)]
  exact Nat.testBit_lt_two_pow (Nat.lt_of_lt_of_le w.isLt (Nat.pow_le_pow_right (by omega) hi'))

/-- Bits within a field that has been replaced are the field's new ones. -/
theorem wbits_setWBits_within (w : Word) {a b : Nat} (h : lo ≤ b) (hb : b ≤ a) (ha : a ≤ hi) (hh : hi < 64) :
    wbits (setWBits w hi lo v) a b = bits v (a - lo) (b - lo) := by
  refine Nat.eq_of_testBit_eq fun i => ?_
  rw [wbits, toNat_setWBits w (by omega) hh, testBit_bits, testBit_bits, testBit_setBits (by omega)]
  by_cases hi' : i < a + 1 - b
  · rw [if_pos (by omega), decide_eq_true hi', decide_eq_true (by omega), show b + i - lo = b - lo + i by omega]
  · rw [decide_eq_false hi', decide_eq_false (by omega), Bool.false_and, Bool.false_and]

/-- Bits outside a field that has been replaced are as before. -/
theorem getLsbD_setWBits (w : Word) (h : lo ≤ hi + 1) (hh : hi < 64) (i : Nat) :
    (setWBits w hi lo v).getLsbD i = if lo ≤ i ∧ i ≤ hi then v.testBit (i - lo) else w.getLsbD i := by
  rw [← BitVec.testBit_toNat, toNat_setWBits w h hh, testBit_setBits h, BitVec.testBit_toNat]

/-- A field taken of a wider field. -/
theorem bits_bits {a b : Nat} (h : a ≤ hi - lo) (hl : lo ≤ hi) : bits (bits x hi lo) a b = bits x (lo + a) (lo + b) := by
  refine Nat.eq_of_testBit_eq fun i => ?_
  rw [testBit_bits, testBit_bits, testBit_bits]
  by_cases hi' : i < a + 1 - b
  · rw [decide_eq_true hi', decide_eq_true (by omega), decide_eq_true (by omega), Bool.true_and, Nat.add_assoc]
  · rw [decide_eq_false hi', decide_eq_false (p := i < lo + a + 1 - (lo + b)) (by omega), Bool.false_and, Bool.false_and]

end fields

section registerFields
variable {s : State} (h : Registers.wf s = true)
include h

theorem regField_setRegField_within (off : Nat) {hi lo v a b : Nat} (hl : lo ≤ b) (hb : b ≤ a) (ha : a ≤ hi) (hh : hi < 64) :
    (s.setRegField off hi lo v).regField off a b = bits v (a - lo) (b - lo) := by
  rw [State.regField, State.setRegField, State.reg_setReg_same h, wbits_setWBits_within _ hl hb ha hh]

theorem regBit_setRegField (off : Nat) {hi lo v : Nat} (hl : lo ≤ hi + 1) (hh : hi < 64) (i : Nat) :
    (s.setRegField off hi lo v).regBit off i = if lo ≤ i ∧ i ≤ hi then v.testBit (i - lo) else s.regBit off i := by
  rw [State.regBit, State.setRegField, State.reg_setReg_same h, getLsbD_setWBits _ hl hh]
  rfl

end registerFields

end Sys2Proof.Machine
end

section
/-! PROOF. Ports and lasers, and the frames that are passed on, flooded or discarded. -/

namespace Sys2Proof.Machine

/-! ## Ports (R391, R404, R407) -/

section port
variable {s : State} {port : Fin 4}

/-- A write that changes ENABLE of a port whose MODE and GEN it does not contest. -/
theorem portEnable_changes (h : Operates s) {v : Lane} (hr : s.hostReaches (portCtrl port.val) = true)
    (hc : bitAt (s.reg (portCtrl port.val)).toNat 0 ≠ v.getLsbD 0)
    (hi : portIgnored (s.reg (portCtrl port.val)).toNat v.toNat = false) :
    exec (.portEnable port v) s = .next (s.framed (
      let u := s.setRegField (portCtrl port.val) 3 0 (bits v.toNat 3 0)
      if v.getLsbD 0 then u.enablePort port.val else u.portDown port.val)) := by
  show execPortEnable port v s = _
  rw [execPortEnable, hostWrite_eq h hr]
  dsimp only
  rw [if_neg hc, hi, if_neg Bool.false_ne_true]

theorem portTrain_port (p q : Nat) : (s.portTrain p).port q = s.port q := rfl

theorem setPort_port (p : Nat) (x : PortSt) : (s.setPort p x).port p = x := by
  simp [State.setPort, State.port]

/-- What a port reads as it is enabled (R391). -/
theorem enablePort_port (p : Nat) : ((s.enablePort p).port p).mode = s.regField (portCtrl p) 2 1 ∧
    ((s.enablePort p).port p).gen = s.regField (portCtrl p) 3 3 := by
  have laser : ∀ u : State, (if laserGood ≤ u.laserPower p then u.setRegField (portStatus p) 31 31 1 else u).port p = u.port p := fun u => by
    split <;> rfl
  rw [State.enablePort, portTrain_port, laser, setPort_port]
  exact ⟨rfl, rfl⟩

theorem enablePort_training (h : Registers.wf s = true) (p : Nat) : (s.enablePort p).portTraining p = true := by
  have train : ∀ u : State, Registers.wf u = true → (u.portTrain p).portTraining p = true := fun u hu => by
    have w := setRegField_registers_wf (setRegField_registers_wf hu (portStatus p) 23 16 0) (portStatus p) 15 8 0
    exact regBit_setRegField w (portStatus p) (by decide) (by decide) 0
  rw [State.enablePort]
  refine train _ ?_
  split
  · exact setRegField_registers_wf (s := s.setPort p _) h _ _ _ _
  · exact h

/-- An enabled port has the MODE and GEN that were written, and trains. -/
theorem enablePort_written (h : Registers.wf s = true) (p v : Nat) :
    let u := (s.setRegField (portCtrl p) 3 0 (bits v 3 0)).enablePort p
    (u.port p).mode = bits v 2 1 ∧ (u.port p).gen = bits v 3 3 ∧ u.portTraining p = true := by
  have field : ∀ a b, b ≤ a → a ≤ 3 → (s.setRegField (portCtrl p) 3 0 (bits v 3 0)).regField (portCtrl p) a b = bits v a b :=
    fun a b hb ha => by
      rw [regField_setRegField_within h _ (Nat.zero_le _) hb ha (by decide), bits_bits (by omega) (by decide), Nat.sub_zero, Nat.sub_zero,
        Nat.zero_add, Nat.zero_add]
  obtain ⟨hm, hg⟩ := enablePort_port (s := s.setRegField (portCtrl p) 3 0 (bits v 3 0)) p
  exact ⟨hm.trans (field 2 1 (by decide) (by decide)), hg.trans (field 3 3 (by decide) (by decide)),
    enablePort_training (setRegField_registers_wf h _ _ _ _) p⟩

theorem trainCheck_discovery (p : Nat) : (s.trainCheck p).discovery = s.discovery := by
  unfold State.trainCheck
  split <;> rfl

/-- The state once an interface is up: the first of a start marks the beat that discovery counts from. -/
def State.interfaceUp (s : State) (p i : Nat) : State :=
  let u := (s.setRegField (portStatus p) (8 + i) (8 + i) 1).trainCheck p
  { u with discovery := { u.discovery with trainedAt := match u.discovery.trainedAt with
    | some t => some t
    | none => some s.beat } }

theorem interfaceUp_trainedAt (p i : Nat) : (s.interfaceUp p i).discovery.trainedAt = some (s.discovery.trainedAt.getD s.beat) := by
  have e : ((s.setRegField (portStatus p) (8 + i) (8 + i) 1).trainCheck p).discovery = s.discovery := trainCheck_discovery p
  simp only [State.interfaceUp, e]
  cases s.discovery.trainedAt <;> rfl

theorem portTrained_up (h : Operates s) {i : Fin 8} (ht : s.portTraining port.val = true) (hl : s.laserOk port.val = true)
    (hi : i.val < s.portIfs port.val) (hf : s.ifFailed port.val i.val = false) (hu : s.ifUp port.val i.val = false) :
    exec (.portTrained port i) s = .next (s.framed (s.interfaceUp port.val i.val)) := by
  show execPortTrained port i s = _
  rw [execPortTrained, whenOn_eq h]
  dsimp only
  rw [if_neg (by simp [ht, hl, hf, hu, hi])]
  rfl

theorem laneTrainingTimeout_fails (h : Operates s) {n : Fin 8} (ht : s.portTraining port.val = true)
    (hu : s.ifUp port.val (n.val / s.lanesPer port.val) = false) : exec (.laneTrainingTimeout port n) s =
      .next (s.framed (State.trainCheck (s.setRegField (portStatus port.val) (16 + n.val) (16 + n.val) 1) port.val)) := by
  show execLaneTrainingTimeout port n s = _
  rw [execLaneTrainingTimeout, whenOn_eq h]
  dsimp only
  rw [if_neg (by simp [ht, hu])]

/-! ## Lasers (R565) -/

/-- The power has not fallen where it was below already. -/
theorem laserLoss_below (h : Operates s) {w : BitVec 16} (hw : w.toInt < 1600) (hl : s.laserOk port.val = false)
    (hp : s.laserPower port.val < 1600) : exec (.laserLoss port w) s = .next (s.framed (s.showLaser port.val w)) := by
  have hlow : ¬laserLow ≤ w.toInt := Int.not_le.mpr hw
  have hbelow : (!s.laserOk port.val && decide (s.laserPower port.val < laserLow)) = true := by
    rw [hl, laserLow, decide_eq_true hp]
    rfl
  show execLaserLoss port w s = _
  rw [execLaserLoss, whenOn_eq h, if_neg hlow]
  dsimp only
  rw [if_pos hbelow]

theorem laserLoss_falls (h : Operates s) {w : BitVec 16} (hw : w.toInt < 1600)
    (hl : s.laserOk port.val = true ∨ 1600 ≤ s.laserPower port.val) :
    let d := State.portDown ((s.showLaser port.val w).setRegField (portStatus port.val) 31 31 0) port.val
    exec (.laserLoss port w) s = .next (s.framed
      (State.linkFault { d with alerts := d.alerts ||| ((1 : BitVec 16) <<< (2 + port.val)) } 4 0)) := by
  have hn : ¬(!s.laserOk port.val && decide (s.laserPower port.val < laserLow)) = true := by
    rw [laserLow]
    rcases hl with hl | hl
    · simp [hl]
    · simp [Int.not_lt.mpr hl]
  have hlow : ¬laserLow ≤ w.toInt := Int.not_le.mpr hw
  show execLaserLoss port w s = _
  rw [execLaserLoss, whenOn_eq h, if_neg hlow]
  dsimp only
  rw [if_neg hn]

theorem laserRestore_trains (h : Operates s) {w : BitVec 16} (hw : 1650 ≤ w.toInt) (he : (s.showLaser port.val w).portEnabled port.val = true)
    (hl : (s.showLaser port.val w).laserOk port.val = false) : exec (.laserRestore port w) s =
      .next (s.framed (State.portTrain ((s.showLaser port.val w).setRegField (portStatus port.val) 31 31 1) port.val)) := by
  show execLaserRestore port w s = _
  have hgood : ¬w.toInt < laserGood := Int.not_lt.mpr hw
  rw [execLaserRestore, whenOn_eq h, if_neg hgood]
  dsimp only
  rw [if_neg (by simp [he, hl])]

end port

/-! ## Frames that are not this device's (R393, R395, R397, R408, R411, R412) -/

section frames
variable {s : State} {arr : Arrival}

theorem countCorrected_counts (h : Registers.wf s = true) : (s.countCorrected arr).reg (R_LNK_FEC_CW + 0x100 * arr.port.val) =
    BitVec.ofNat 64 (min 0xFFFFFFFF ((s.reg (R_LNK_FEC_CW + 0x100 * arr.port.val)).toNat + arr.corrected.toNat)) :=
  State.reg_setReg_same h _ _

theorem receive_down (h : s.ifUp arr.port.val arr.iface.val = false) (ok : Bool) : s.receive arr ok = (s, false) := by
  rw [State.receive, h]
  rfl

theorem receive_taken (h : s.ifUp arr.port.val arr.iface.val = true) : s.receive arr true = (s.countCorrected arr, true) := by
  rw [State.receive, h]
  rfl

theorem receive_dropped (h : s.ifUp arr.port.val arr.iface.val = true) :
    s.receive arr false = ((s.countCorrected arr).countReg (R_LNK_FEC_CW + 0x100 * arr.port.val + 8), false) := by
  rw [State.receive, h]
  rfl

theorem receive_up (h : s.ifUp arr.port.val arr.iface.val = true) (ok : Bool) : s.receive arr ok =
    (if ok then s.countCorrected arr else (s.countCorrected arr).countReg (R_LNK_FEC_CW + 0x100 * arr.port.val + 8), ok) := by
  cases ok
  · exact receive_dropped h
  · exact receive_taken h

/-- What FRAME_FORWARD does with a frame for another device once the interface has taken it. -/
def State.forwardTaken (u : State) (arr : Arrival) (f : Frame) : State :=
  if f.dst = u.landing ∨ !(u.sendsAll || isDiscovery f) then u
  else if f.dst = broadcast then
    (if isDiscovery f then u
    else match u.sawBroadcast f.src f.seq with
      | (v, true) => v
      | (v, false) =>
        if f.hops = 0 then v
        else ((List.range 32).filter (fun k => v.ifUp (k / 8) (k % 8) && k != 8 * arr.port.val + arr.iface.val)).foldl
          (fun s k => s.emit (.forward (k / 8) (k % 8) { f with hops := f.hops - 1 })) v)
  else match u.egress? f.dst with
    | some e => u.emit (.forward e.1 e.2 f)
    | none => u.countLink arr.port.val ctrRxDrop

theorem frameForward_eq (h : Operates s) {u : State} {ok : Bool} (hr : s.receive arr (s.takes arr) = (u, ok)) (f : Frame) :
    exec (.frameForward arr.toLinkEnd arr.toEnvelope f) s = .next (s.framed (if ok then u.forwardTaken arr f else u)) := by
  show execFrameForward arr.toLinkEnd arr.toEnvelope f s = _
  rw [execFrameForward, whenOn_eq h]
  dsimp only
  rw [hr]
  cases ok <;> rfl

theorem neighbourSolicitation_eq (h : Operates s) {u : State} {ok : Bool} {a : BitVec 128}
    (hr : s.receive arr (a == s.ip6 arr.port.val arr.iface.val) = (u, ok)) :
    exec (.neighbourSolicitation arr.toLinkEnd arr.toEnvelope a) s = .next (s.framed (
      if ok then u.emit (.neighbourAdvert arr.port.val arr.iface.val) else u)) := by
  show execNeighbourSolicitation arr.toLinkEnd arr.toEnvelope a s = _
  rw [execNeighbourSolicitation, whenOn_eq h]
  dsimp only
  rw [hr]
  cases ok <;> rfl

theorem frameDiscarded_eq (h : Operates s) (d : Discarded) : exec (.frameDiscarded arr d) s = .next (s.framed (
    if d.uncorrectable then
      (if s.ifUp arr.port.val arr.iface.val then (s.countCorrected arr).countLink arr.port.val ctrFecUcw else s)
    else (s.receive arr (isPtp arr || (s.takes arr && d.version == 1 && frameTypes.contains d.type.toNat))).1)) := by
  show execFrameDiscarded arr d s = _
  rw [execFrameDiscarded, whenOn_eq h]
  cases hp : isPtp arr <;> simp

/-- An emission on each interface of a list leaves everything else. -/
theorem foldl_emit (g : Nat → Out) (l : List Nat) (s : State) :
    l.foldl (fun s k => s.emit (g k)) s = { s with out := s.out ++ l.map g } := by
  induction l generalizing s with
  | nil => simp
  | cons k l ih =>
    rw [List.foldl_cons, ih]
    simp [State.emit]

section forward
variable {u : State} {f : Frame}

/-- A device that sends on nothing but discovery keeps other frames. -/
theorem forwardTaken_kept (h : (u.sendsAll || isDiscovery f) = false) : u.forwardTaken arr f = u :=
  if_pos (.inr (by rw [h]; rfl))

theorem forwardTaken_routed (hl : f.dst ≠ u.landing) (h : (u.sendsAll || isDiscovery f) = true) (hb : f.dst ≠ broadcast) {e : Nat × Nat}
    (he : u.egress? f.dst = some e) : u.forwardTaken arr f = u.emit (.forward e.1 e.2 f) := by
  rw [State.forwardTaken, if_neg (by simp [hl, h]), if_neg hb, he]

theorem forwardTaken_unrouted (hl : f.dst ≠ u.landing) (h : (u.sendsAll || isDiscovery f) = true) (hb : f.dst ≠ broadcast)
    (he : u.egress? f.dst = none) : u.forwardTaken arr f = u.countLink arr.port.val ctrRxDrop := by
  rw [State.forwardTaken, if_neg (by simp [hl, h]), if_neg hb, he]

/-- A broadcast that is none of discovery, at a device that sends every frame on. -/
theorem forwardTaken_broadcast (hl : f.dst ≠ u.landing) (hs : u.sendsAll = true) (hd : isDiscovery f = false) (hb : f.dst = broadcast) :
    u.forwardTaken arr f =
      (if (u.sawBroadcast f.src f.seq).2 ∨ f.hops = 0 then (u.sawBroadcast f.src f.seq).1
       else ((List.range 32).filter (fun k => (u.sawBroadcast f.src f.seq).1.ifUp (k / 8) (k % 8) &&
          k != 8 * arr.port.val + arr.iface.val)).foldl
         (fun s k => s.emit (.forward (k / 8) (k % 8) { f with hops := f.hops - 1 })) (u.sawBroadcast f.src f.seq).1) := by
  rw [State.forwardTaken, if_neg (by simp [hl, hs]), if_pos hb, hd, if_neg Bool.false_ne_true]
  obtain ⟨v, seen⟩ := u.sawBroadcast f.src f.seq
  cases seen
  · by_cases hh : f.hops = 0 <;> simp [hh]
  · simp

/-- Whether a broadcast has been seen within 2 ms (R412). -/
def State.seenBroadcast (s : State) (src : Landing) (seq : Lane) : Bool :=
  (s.discovery.broadcasts.filter (fun b => decide (s.beat < b.beat + 2000000))).any (fun b => b.src == src && b.seq == seq)

theorem sawBroadcast_seen {src : Landing} {seq : Lane} (h : s.seenBroadcast src seq = true) : s.sawBroadcast src seq = (s, true) :=
  if_pos h

/-- A broadcast not yet seen is noted. -/
theorem sawBroadcast_new {src : Landing} {seq : Lane} (h : s.seenBroadcast src seq = false) :
    ∃ d, s.sawBroadcast src seq = ({ s with discovery := d }, false) :=
  ⟨_, if_neg (by rw [State.seenBroadcast] at h; rw [h]; exact Bool.false_ne_true)⟩

theorem forwardTaken_new (hl : f.dst ≠ u.landing) (hs : u.sendsAll = true) (hd : isDiscovery f = false) (hb : f.dst = broadcast)
    (hn : u.seenBroadcast f.src f.seq = false) : ∃ d, u.forwardTaken arr f = { u with
      discovery := d
      out := u.out ++ if f.hops = 0 then [] else
        ((List.range 32).filter (fun k => u.ifUp (k / 8) (k % 8) && k != 8 * arr.port.val + arr.iface.val)).map
          (fun k => Out.forward (k / 8) (k % 8) { f with hops := f.hops - 1 }) } := by
  obtain ⟨d, e⟩ := sawBroadcast_new hn
  refine ⟨d, ?_⟩
  rw [forwardTaken_broadcast hl hs hd hb, e]
  by_cases hh : f.hops = 0
  · simp [hh]
  · simp only [hh, if_false, or_false, Bool.false_eq_true]
    rw [foldl_emit]
    rfl

end forward

end frames

/-- Settles O45: a port enabled and trained and its laser, then what becomes of each frame that is not this device's. -/
theorem portsAndForwarding : Obligations.PortsAndForwarding := by
  unfold Obligations.PortsAndForwarding
  refine ⟨fun s port h => ⟨fun v hr hc hi => ⟨fun hv => ⟨?_, fun hw => enablePort_written hw _ _⟩, fun hv => ?_⟩,
    fun i ht hl hi hf hu => ⟨_, portTrained_up h ht hl hi hf hu, rfl, interfaceUp_trainedAt _ _⟩,
    fun n => laneTrainingTimeout_fails h, fun w => laserLoss_below h, fun w => laserLoss_falls h, fun w => laserRestore_trains h⟩,
    fun s arr h => ⟨countCorrected_counts, fun hd => ⟨fun f => ?_, fun a => ?_, fun unc version type => ?_⟩,
      fun hu => ⟨fun ht f => ?_, fun ht f hl => ?taken, fun a => ⟨fun ha => ?_, fun ha => ?_⟩,
        fun version type => ⟨?_, fun hp => ?_, fun hp => ?_⟩⟩⟩⟩
  · rw [portEnable_changes h hr hc hi, hv]
    rfl
  · rw [portEnable_changes h hr hc hi, hv]
    rfl
  · rw [frameForward_eq h (receive_down hd _)]
    rfl
  · rw [neighbourSolicitation_eq h (receive_down hd _)]
    rfl
  · rw [frameDiscarded_eq h, receive_down hd, hd]
    cases unc <;> rfl
  · rw [frameForward_eq h (ok := false) (by rw [ht, receive_dropped hu])]
    rfl
  case taken =>
    have hr : s.receive arr (s.takes arr) = (s.countCorrected arr, true) := by rw [ht, receive_taken hu]
    refine ⟨fun hs => ?_, fun hs hb => ⟨fun e he => ?_, fun he => ?_⟩, fun hs hd hb => ⟨fun hn => ?_, fun hn hh => ?_, fun hn hh => ?_⟩⟩
    · rw [frameForward_eq h hr, if_pos rfl, forwardTaken_kept hs]
      rfl
    · rw [frameForward_eq h hr, if_pos rfl, forwardTaken_routed hl hs hb he]
      rfl
    · rw [frameForward_eq h hr, if_pos rfl, forwardTaken_unrouted hl hs hb he]
      rfl
    · rw [frameForward_eq h hr, if_pos rfl, forwardTaken_broadcast hl hs hd hb, sawBroadcast_seen hn]
      rfl
    · obtain ⟨d, e⟩ := forwardTaken_new (arr := arr) hl hs hd hb hn
      refine ⟨_, frameForward_eq h hr f, ?_, ?_⟩
      · rw [if_pos rfl, e]
        rfl
      · rw [if_pos rfl, e, if_neg hh]
        rfl
    · obtain ⟨d, e⟩ := forwardTaken_new (arr := arr) hl hs hd hb hn
      refine ⟨_, frameForward_eq h hr f, ?_, ?_⟩
      · rw [if_pos rfl, e]
        rfl
      · rw [if_pos rfl, e, if_pos hh, List.append_nil]
        rfl
  · rw [neighbourSolicitation_eq h (by rw [ha, beq_self_eq_true, receive_taken hu])]
    rfl
  · rw [neighbourSolicitation_eq h (by rw [beq_eq_false_iff_ne.mpr ha, receive_dropped hu])]
    rfl
  · rw [frameDiscarded_eq h, hu]
    rfl
  · rw [frameDiscarded_eq h, hp, Bool.true_or, receive_taken hu]
    rfl
  · rw [frameDiscarded_eq h, hp, Bool.false_or, receive_up hu]
    generalize (s.takes arr && version == 1 && frameTypes.contains type.toNat) = ok
    cases ok <;> rfl

end Sys2Proof.Machine
end

section
/-! PROOF. The messages of IEEE 1588: timestamps, path delays, and the discipline of the beat counter. -/

namespace Sys2Proof.Machine

/-! ## Messages that arrive (R401, R402) -/

section messages
variable {s : State} {arr : Arrival} {domain : Byte} {fraction : BitVec 8} {body : PtpBody}

theorem whenTimed_operates (h : Operates s) (f : State → State) : whenTimed f s = .next { s.framed (f s) with beat := (f s).beat } := by
  simp [whenTimed, h.1, h.2]

theorem ptpMessage_eq (h : Operates s) (hu : s.ifUp arr.port.val arr.iface.val = true) (hp : isPtp arr = true) :
    let u := s.countCorrected arr
    let t := if domain.toNat = u.ptpDomain then u.ptpTake arr.port.val arr.iface.val fraction body else u
    exec (.ptpMessage arr domain fraction body) s = .next { s.framed t with beat := t.beat } := by
  show execPtpMessage arr domain fraction body s = _
  rw [execPtpMessage, whenTimed_operates h, hp, receive_taken hu]

theorem ptpMessage_ofDomain (h : Operates s) (hu : s.ifUp arr.port.val arr.iface.val = true) (hp : isPtp arr = true)
    (hd : domain.toNat = (s.countCorrected arr).ptpDomain) {t : State}
    (ht : (s.countCorrected arr).ptpTake arr.port.val arr.iface.val fraction body = t) :
    exec (.ptpMessage arr domain fraction body) s = .next { s.framed t with beat := t.beat } := by
  rw [ptpMessage_eq h hu hp]
  simp only [if_pos hd, ht]

theorem ptpMessage_otherDomain (h : Operates s) (hu : s.ifUp arr.port.val arr.iface.val = true) (hp : isPtp arr = true)
    (hd : domain.toNat ≠ (s.countCorrected arr).ptpDomain) :
    exec (.ptpMessage arr domain fraction body) s = .next (s.countCorrected arr) := by
  rw [ptpMessage_eq h hu hp]
  simp only [if_neg hd]
  rfl

section take
variable {p i : Nat}

theorem ptpTake_answer {received sent t : Int} (ht : mapGet none s.ptp.sentAt (8 * p + i) = some t) :
    s.ptpTake p i fraction (.delayResp received sent) = { s with ptp := { s.ptp with
      delays := mapPut none s.ptp.delays (8 * p + i) (some ((s.recvStamp p fraction - t - (sent - received)) / 2).toNat)
      sentAt := mapPut none s.ptp.sentAt (8 * p + i) none
      round := s.ptp.round + 1 } } := by
  simp only [State.ptpTake, ht]

theorem ptpTake_sync {origin : Int} {d : Nat} (hd : mapGet none s.ptp.delays (8 * p + i) = some d)
    (h7 : s.regBit R_LNK_TIME 7 = true) (hk : s.regField R_LNK_TIME 4 0 = 8 * p + i) :
    s.ptpTake p i fraction (.sync origin) = s.discipline (origin + d - s.recvStamp p fraction) := by
  simp only [State.ptpTake, hd, h7, hk, and_self, if_true]

theorem ptpTake_unmeasured {origin : Int} (hd : mapGet none s.ptp.delays (8 * p + i) = none) :
    s.ptpTake p i fraction (.sync origin) = s := by
  simp only [State.ptpTake, hd]

end take
end messages

/-! ## The discipline of the beat counter (R402) -/

section discipline
variable {s : State} {offset : Int}

/-- The beat counter stepped or slewed, before the offset is judged for the lock. -/
def State.steered (s : State) (offset : Int) : State :=
  let s1 := s.setReg R_LNK_TIME_OFFSET (BitVec.ofNat 64 (BitVec.ofInt 32 offset).toNat)
  if !s1.ptp.joined && !s1.regBit R_LNK_TIME 30 && decide (256000 < offset) && Config.choice s1.free then
    State.setRegField { s1 with beat := s1.beat + (offset / 256).toNat } R_LNK_TIME 30 30 1
  else s1.servo

theorem ite_books {P : Prop} [Decidable P] {s t u : State} (h : BooksOnly s t) (k : BooksOnly s u) : BooksOnly s (if P then t else u) := by
  split <;> assumption

/-- What is left after the steering is the count towards the lock, and the lock in LNK_TIME with its entry. -/
theorem discipline_books : BooksOnly { (s.steered offset).tick with ptp := { (s.steered offset).ptp with
    lockCount := if offset.natAbs ≤ 20 * 256 then (s.steered offset).ptp.lockCount + 1 else 0 } } (s.discipline offset) := by
  unfold State.discipline
  simp only [decide_eq_true_eq]
  refine ite_books (ite_books ?_ (.refl _)) (ite_books (setReg_books _ _ _) (.refl _))
  exact (setReg_books _ _ _).trans (addFault_books _ _)

theorem discipline_beat : (s.discipline offset).beat = (s.steered offset).beat := by
  rw [discipline_books]
  rfl

theorem discipline_rate : (s.discipline offset).ptp.rate = (s.steered offset).ptp.rate := by
  rw [discipline_books]

theorem discipline_lockCount : (s.discipline offset).ptp.lockCount =
    if offset.natAbs ≤ 20 * 256 then (s.steered offset).ptp.lockCount + 1 else 0 := by
  rw [discipline_books]

theorem steered_lockCount : (s.steered offset).ptp.lockCount = s.ptp.lockCount := by
  unfold State.steered
  dsimp only
  split <;> rfl

theorem servo_rate (s : State) : -200 ≤ s.servo.ptp.rate ∧ s.servo.ptp.rate ≤ 200 := by
  dsimp only [State.servo]
  omega

/-- One forward step, before the device has joined, by more than a microsecond; else the servo slews. -/
theorem steered_cases (h : Registers.wf s = true) :
    ((s.steered offset).beat = s.beat ∧ -200 ≤ (s.steered offset).ptp.rate ∧ (s.steered offset).ptp.rate ≤ 200) ∨
    (s.ptp.joined = false ∧ s.regBit R_LNK_TIME 30 = false ∧ 256000 < offset ∧
      (s.steered offset).beat = s.beat + (offset / 256).toNat ∧ (s.steered offset).ptp.rate = s.ptp.rate) := by
  have stepped : (s.setReg R_LNK_TIME_OFFSET (BitVec.ofNat 64 (BitVec.ofInt 32 offset).toNat)).regBit R_LNK_TIME 30 =
      s.regBit R_LNK_TIME 30 := by
    rw [State.regBit, reg_setReg_other h (by decide)]
    rfl
  unfold State.steered
  dsimp only
  rw [stepped]
  split
  · next hc =>
    simp only [Bool.and_eq_true, Bool.not_eq_true', decide_eq_true_eq] at hc
    obtain ⟨⟨⟨hj, hb⟩, ho⟩, -⟩ := hc
    exact .inr ⟨hj, hb, ho, rfl, rfl⟩
  · exact .inl ⟨rfl, servo_rate _⟩

end discipline

/-! ## Timestamps and delays (R401, R403) -/

section delays
variable {s : State} {p : Nat}

theorem stamps_of_gen0 (f : BitVec 8) (hg : (s.port p).gen = 0) :
    s.recvStamp p f = 256 * s.beat + f.toNat - 33280 - s.asym p ∧ s.sendStamp p f = 256 * s.beat + f.toNat + 12800 - s.asym p := by
  have hr : s.recvDelay p = 33280 := by rw [State.recvDelay, if_pos hg]
  have ht : s.sendDelay p = 12800 := by rw [State.sendDelay, if_pos hg]
  constructor
  · rw [State.recvStamp, hr]
    rfl
  · rw [State.sendStamp, ht]
    rfl

theorem peerDelay_oneHop (d far : Nat) : peerDelay d 1 far = (d + 20 * 256 + 255) / 256 := by
  simp [peerDelay, ceilDiv]

theorem delayTo_measured {l : Landing} {r : Route} {d : Nat} (hr : mapGet none s.routes l.toNat = some r)
    (hd : mapGet none s.ptp.delays (8 * r.port + r.iface) = some d) :
    s.delayTo l = peerDelay d r.hops (Config.farDelay s.ptp.round l.toNat) := by
  simp only [State.delayTo, hr, hd]

end delays

/-! ## The messages that leave (R401, R402) -/

section send

/-- What leaves on an interface at a sync interval. -/
def syncOuts (domain : Nat) (k : Nat) (stamp : Int) : List Out :=
  [.ptp (k / 8) (k % 8) domain .delayReq, .ptp (k / 8) (k % 8) domain (.sync stamp)]

/-- The timestamps of several interfaces, that of one of them given. -/
def stampAt (k : Nat) (t : Int) (stamp : Nat → Int) (j : Nat) : Int := if j = k then t else stamp j

theorem stampAt_self (k : Nat) (t : Int) (stamp : Nat → Int) : stampAt k t stamp k = t := if_pos rfl

theorem ptpSend_eq (s : State) (k : Nat) : ∃ stamp : Int, s.ptpSend k = { s with
    ptp := { s.ptp with sentAt := mapPut none s.ptp.sentAt k (some stamp) }
    free := s.free + 1
    out := s.out ++ syncOuts s.ptpDomain k stamp } := by
  refine ⟨s.sendStamp (k / 8) (Config.sendFraction s.free), ?_⟩
  simp [State.ptpSend, State.emit, State.tick, syncOuts]

/-- The messages leave on each interface of a list, and each keeps the timestamp of its request. -/
theorem foldl_ptpSend (l : List Nat) (hl : l.Nodup) : ∀ s : State, mapWf none s.ptp.sentAt = true → ∃ stamp : Nat → Int,
    (l.foldl State.ptpSend s).regs = s.regs ∧
    (l.foldl State.ptpSend s).out = s.out ++ l.flatMap (fun k => syncOuts s.ptpDomain k (stamp k)) ∧
    (∀ k ∈ l, mapGet none (l.foldl State.ptpSend s).ptp.sentAt k = some (stamp k)) ∧
    (∀ k, k ∉ l → mapGet none (l.foldl State.ptpSend s).ptp.sentAt k = mapGet none s.ptp.sentAt k) := by
  induction l with
  | nil => exact fun s _ => ⟨fun _ => 0, rfl, (List.append_nil _).symm, fun _ h => absurd h List.not_mem_nil, fun _ _ => rfl⟩
  | cons k l ih =>
    intro s w
    obtain ⟨hk, hl⟩ := List.nodup_cons.mp hl
    obtain ⟨t, e⟩ := ptpSend_eq s k
    have w' : mapWf none (s.ptpSend k).ptp.sentAt = true := by rw [e]; exact mapPut_wf k _ w
    obtain ⟨stamp, hr, ho, hin, hout⟩ := ih hl (s.ptpSend k) w'
    have hd : (s.ptpSend k).ptpDomain = s.ptpDomain := by rw [e]; rfl
    rw [hd] at ho
    have same : ∀ j ∈ l, stampAt k t stamp j = stamp j := fun j hj =>
      if_neg (fun h : j = k => hk (by rw [← h]; exact hj))
    refine ⟨stampAt k t stamp, ?_, ?_, ?_, ?_⟩
    · rw [List.foldl_cons, hr, e]
    · rw [List.foldl_cons, ho, List.flatMap_cons, stampAt_self, e, ← List.append_assoc]
      congr 1
      exact congrArg List.flatten (List.map_congr_left fun j hj => by rw [same j hj])
    · intro j hj
      rw [List.foldl_cons]
      obtain rfl | hj := List.mem_cons.mp hj
      · rw [hout j hk, e, stampAt_self, mapGet_mapPut j _ j w, if_pos rfl]
      · rw [hin j hj, same j hj]
    · intro j hj
      obtain ⟨hjk, hj⟩ := not_or.mp (fun h => hj (List.mem_cons.mpr h))
      rw [List.foldl_cons, hout j hj, e, mapGet_mapPut k _ j w, if_neg hjk]

theorem ptpSyncInterval_next {s : State} (h : Operates s) : exec .ptpSyncInterval s =
    .next (s.framed (((List.range 32).filter (fun k => s.ifUp (k / 8) (k % 8))).foldl State.ptpSend s)) := by
  show execPtpSyncInterval s = _
  rw [execPtpSyncInterval, whenOn_eq h]

end send

/-- Settles O46: what each message that arrives does, the discipline by step or slew, the delays, and the messages that leave. -/
theorem timeSynchronisation : Obligations.TimeSynchronisation := by
  unfold Obligations.TimeSynchronisation
  refine ⟨fun s arr domain fraction body h hu hp => ⟨ptpMessage_otherDomain h hu hp, fun hd => ⟨fun hb => ?_, fun received sent t hb ht => ?_,
    fun origin d hb hm h7 hk => ?_, fun origin hb hm => ?_⟩⟩, fun s offset h => ⟨?beat, fun hb => ?rate, ?lock⟩,
    ⟨fun s p f => stamps_of_gen0 f, peerDelay_oneHop, fun s l r d => delayTo_measured⟩, fun s h w => ?sync⟩
  · rw [ptpMessage_ofDomain h hu hp hd (by rw [hb, State.ptpTake])]
    rfl
  · rw [ptpMessage_ofDomain h hu hp hd (by rw [hb, ptpTake_answer ht])]
    rfl
  · exact ptpMessage_ofDomain h hu hp hd (by rw [hb, ptpTake_sync hm h7 hk])
  · rw [ptpMessage_ofDomain h hu hp hd (by rw [hb, ptpTake_unmeasured hm])]
    rfl
  case beat =>
    rw [discipline_beat]
    exact (steered_cases h).imp And.left fun ⟨hj, h30, ho, hb, _⟩ => ⟨hj, h30, ho, hb⟩
  case rate =>
    rw [discipline_rate]
    exact (steered_cases h).imp And.right fun ⟨_, _, _, _, hr⟩ => hr
  case lock => rw [discipline_lockCount, steered_lockCount]
  case sync =>
    obtain ⟨stamp, hr, ho, hin, -⟩ := foldl_ptpSend ((List.range 32).filter (fun k => s.ifUp (k / 8) (k % 8)))
      (List.nodup_range.filter _) s w
    exact ⟨_, stamp, ptpSyncInterval_next h, hr, rfl, ho, hin⟩

end Sys2Proof.Machine
end

section
/-! PROOF. Which frames are accepted, and the acknowledgements and repeats of the transport. -/

namespace Sys2Proof.Machine

/-! ## Accepting (R398, R399, R422) -/

section accepting
variable {s : State} {rx : Rx} {ty : Nat} {x : Peer} {a : Assoc}

theorem accept_down (hu : s.ifUp rx.port.val rx.iface.val = false) : s.accept rx ty = (s, false) := by
  rw [State.accept, receive_down hu]

theorem accept_notTaken (hu : s.ifUp rx.port.val rx.iface.val = true) (ht : s.takes rx.toArrival = false) :
    s.accept rx ty = ((s.countCorrected rx.toArrival).countReg (R_LNK_FEC_CW + 0x100 * rx.port.val + 8), false) := by
  rw [State.accept, ht, receive_dropped hu]

theorem accept_taken (hu : s.ifUp rx.port.val rx.iface.val = true) (ht : s.takes rx.toArrival = true) :
    s.accept rx ty = (s.countCorrected rx.toArrival).authentic rx ty := by
  rw [State.accept, ht, receive_taken hu]

/-- What a frozen flow sends is discarded whichever check it would have met. -/
theorem authentic_frozen (hp : s.peer? rx.src = some x) (ha : x.assoc = some a) (hf : x.frozen = true) :
    s.authentic rx ty = (s, false) := by
  unfold State.authentic
  simp only [hp, ha, if_pos hf, ite_self]

/-- A frame under the association in use is accepted by its ICV and packet number alone. -/
theorem authentic_current (hd : s.discState ≠ discDuplicate) (hp : s.peer? rx.src = some x) (ha : x.assoc = some a)
    (hf : x.frozen = false) (han : rx.an.val = a.an) :
    s.authentic rx ty = if rx.icvOk && a.win.fresh rx.pn.toNat then
      (s.updPeer rx.src (fun x => { x with
        lastHeard := s.beat, assoc := x.assoc.map (fun a => { a with win := a.win.take rx.pn.toNat }) }), true)
    else (s.authFail rx.port.val rx.src, false) := by
  have hn : a.names s.beat rx.an = .current := if_pos han
  have hf' : ¬x.frozen = true := by rw [hf]; exact Bool.false_ne_true
  unfold State.authentic
  simp only [if_neg hd, hp, ha, if_neg hf', hn]

/-- A packet number that was taken is not new again. -/
theorem RxWin.take_notFresh (w : RxWin) (n : Nat) : (w.take n).fresh n = false := by
  have hh : n ≤ (w.take n).high := Nat.le_max_right _ _
  have hs : (w.take n).high < n + 65536 → (w.take n).seen.contains n = true := fun h => by
    rw [List.contains_iff_mem]
    exact List.mem_filter.mpr ⟨List.mem_cons_self, decide_eq_true h⟩
  rw [RxWin.fresh, decide_eq_false (Nat.not_lt.mpr hh)]
  by_cases h : (w.take n).high < n + 65536
  · rw [hs h]
    simp
  · rw [decide_eq_false h]
    simp

end accepting

/-! ## Acknowledging and repeating (R424, R425) -/

section transport
variable {s : State} {l : Landing} {p : Peer} {q : Lane} {f : TxFrame}

theorem sack_removes (h : Operates s) {rx : Rx} {cum : Lane} {bitmap : Word} {s1 : State} (ha : s.accept rx tySack = (s1, true)) :
    exec (.sack rx cum bitmap) s = .next (s.framed (State.sendWaiting (s1.updPeer rx.src (fun p => { p with
      txUnacked := p.txUnacked.filter (fun t => !(t.sent && (!seqGe t.seq cum ||
        decide ((t.seq - cum - 1).toNat < 64) && bitmap.getLsbD (t.seq - cum - 1).toNat))) })) rx.src)) := by
  show execSack rx cum bitmap s = _
  rw [execSack, whenOn_eq h, ha]

theorem sackTimer_sends (h : Operates s) (hp : s.peer? l = some p) (hr : 0 < p.rxUnacked) :
    exec (.sackTimer l) s = .next (s.framed (s.sendSack l)) := by
  show execSackTimer l s = _
  rw [execSackTimer, whenOn_eq h, hp]
  simp only [if_pos hr]

/-- What the timer of a frame that was sent does: nothing before its time, without packet numbers or without a route. -/
theorem retransmitTimer_eq (h : Operates s) (hp : s.peer? l = some p)
    (hf : p.txUnacked.find? (fun t => t.sent && t.seq == q) = some f) :
    exec (.retransmitTimer l q) s = .next (s.framed (
      if s.beat < f.sentAt + s.retransmitAfter l ∨ !p.canTx ∨ (s.egress? l).isNone then s
      else if 8 ≤ f.retries then s.resetStream l false
      else
        let g := { f.frame with flags := f.frame.flags ||| 2 }
        State.transmit (s.updPeer l (fun x => { x.countTx with
          txUnacked := x.txUnacked.map (fun u => if u.seq = q then { u with frame := g, sentAt := s.beat, retries := u.retries + 1 } else u) }))
          l g)) := by
  show execRetransmitTimer l q s = _
  rw [execRetransmitTimer, whenOn_eq h, hp]
  simp only [hf]

theorem retransmitTimer_noRoute (h : Operates s) (hp : s.peer? l = some p)
    (hf : p.txUnacked.find? (fun t => t.sent && t.seq == q) = some f) (hr : s.egress? l = none) :
    exec (.retransmitTimer l q) s = .next s := by
  rw [retransmitTimer_eq h hp hf, if_pos (.inr (.inr (by rw [hr]; rfl))), State.framed_self]

/-- The time of a frame has passed and it can be sent. -/
theorem retransmit_due (ht : f.sentAt + (2 * s.delayTo l + 5000) ≤ s.beat) (hc : p.canTx = true) (hr : (s.egress? l).isSome = true) :
    ¬(s.beat < f.sentAt + s.retransmitAfter l ∨ (!p.canTx) = true ∨ (s.egress? l).isNone = true) :=
  not_or.mpr ⟨Nat.not_lt.mpr ht, by simp [hc, Option.ne_none_iff_isSome.mpr hr]⟩

theorem retransmitTimer_resets (h : Operates s) (hp : s.peer? l = some p)
    (hf : p.txUnacked.find? (fun t => t.sent && t.seq == q) = some f) (ht : f.sentAt + (2 * s.delayTo l + 5000) ≤ s.beat)
    (hc : p.canTx = true) (hr : (s.egress? l).isSome = true) (h8 : 8 ≤ f.retries) :
    exec (.retransmitTimer l q) s = .next (s.framed (s.resetStream l false)) := by
  rw [retransmitTimer_eq h hp hf, if_neg (retransmit_due ht hc hr), if_pos h8]

theorem retransmitTimer_repeats (h : Operates s) (hp : s.peer? l = some p)
    (hf : p.txUnacked.find? (fun t => t.sent && t.seq == q) = some f) (ht : f.sentAt + (2 * s.delayTo l + 5000) ≤ s.beat)
    (hc : p.canTx = true) (hr : (s.egress? l).isSome = true) (h8 : f.retries < 8) :
    exec (.retransmitTimer l q) s = .next (s.framed (State.transmit (s.updPeer l (fun x => { x.countTx with
      txUnacked := x.txUnacked.map (fun u => if u.seq = q then
        { u with frame := { f.frame with flags := f.frame.flags ||| 2 }, sentAt := s.beat, retries := u.retries + 1 } else u) }))
      l { f.frame with flags := f.frame.flags ||| 2 })) := by
  rw [retransmitTimer_eq h hp hf, if_neg (retransmit_due ht hc hr), if_neg (Nat.not_le.mpr h8)]

end transport

/-- Settles O47: the check of a protected frame by interface, flow, association and window, and each timer of the transport. -/
theorem acceptingAndTransport : Obligations.AcceptingAndTransport := by
  unfold Obligations.AcceptingAndTransport
  refine ⟨fun s rx ty x a hp ha => ⟨accept_down, accept_notTaken, fun hu ht => ⟨fun hf => ?frozen, fun hd hf han =>
    ⟨fun hbad => ?bad, fun hicv hpn => ?good⟩⟩, fun _ => a.win.take_notFresh _⟩, fun s h => ⟨fun rx cum bitmap s1 => sack_removes h,
    fun l p hp => ⟨sackTimer_sends h hp, fun q f hf => ⟨retransmitTimer_noRoute h hp hf, fun ht hc hr =>
      ⟨retransmitTimer_resets h hp hf ht hc hr, fun h8 => ⟨_, retransmitTimer_repeats h hp hf ht hc hr h8, rfl⟩⟩⟩⟩⟩⟩
  case frozen => rw [accept_taken hu ht, authentic_frozen (s := s.countCorrected rx.toArrival) hp ha hf]
  case bad =>
    rw [accept_taken hu ht, authentic_current hd (s := s.countCorrected rx.toArrival) hp ha hf han, if_neg]
    obtain hicv | hpn := hbad
    · simp [hicv]
    · simp [hpn]
  case good =>
    rw [accept_taken hu ht, authentic_current hd (s := s.countCorrected rx.toArrival) hp ha hf han, if_pos (by rw [hicv, hpn]; rfl)]
    rfl

end Sys2Proof.Machine
end

section
/-! PROOF. Link keys advance, and associations before them end. -/

namespace Sys2Proof.Machine

section advances
variable {s : State}

/-- A valid write of LNK_SA_ADVANCE: `hard` names the instruction as HARD of the value does. -/
theorem saAdvance_eq (h : Operates s) {v : Lane} {hard : Bool} (hr : s.hostReaches R_LNK_SA_ADVANCE = true) :
    exec (if hard then .hardAdvance v else .softAdvance v) s = .next (s.framed (saWrite v hard s)) := by
  cases hard
  · exact hostWrite_eq h hr
  · exact hostWrite_eq h hr

theorem saWrite_starts {v : Lane} {hard : Bool} (hv : v.getLsbD 31 = true) (hh : v.getLsbD 30 = hard) (hp : s.saPending = none) :
    saWrite v hard s = s.startAdvance (s.advanceNames (BitVec.ofNat 16 (bits v.toNat 15 0))) hard false := by
  have hok : ¬((!v.getLsbD 31) = true ∨ v.getLsbD 30 ≠ hard) := not_or.mpr ⟨by simp [hv], not_not_intro hh⟩
  simp only [saWrite, if_neg hok, hp]

theorem saWrite_refused {v : Lane} {hard : Bool} {a : SaAdvance} (hv : v.getLsbD 31 = true) (hh : v.getLsbD 30 = hard)
    (hp : s.saPending = some a) (ha : a.auto = false) : saWrite v hard s = s.setRegField R_LNK_SA_STATUS 30 30 1 := by
  have hok : ¬((!v.getLsbD 31) = true ∨ v.getLsbD 30 ≠ hard) := not_or.mpr ⟨by simp [hv], not_not_intro hh⟩
  have hno : ¬(hard && a.auto && !a.hard && a.start == s.beat) = true := by simp [ha]
  simp only [saWrite, if_neg hok, hp, if_neg hno]

theorem pnThreshold_starts (h : Operates s) {l : Landing} {p : Peer} (hp : s.peer? l = some p) (ha : p.assoc.isSome = true)
    (hn : 0xC0000000 ≤ p.pnUsed) (hs : s.saPending = none) :
    exec (.pnThreshold l) s = .next (s.framed (s.startAdvance [l] false true)) := by
  have hok : p.assoc.isSome = true ∧ 0xC0000000 ≤ p.pnUsed ∧ s.saPending.isNone = true := ⟨ha, hn, by rw [hs]; rfl⟩
  show execPnThreshold l s = _
  rw [execPnThreshold, whenOn_eq h, hp]
  simp only [if_pos hok]

theorem peerAdvance_installs (h : Operates s) {l : Landing} {p : Peer} (hp : s.peer? l = some p) (ha : p.assoc.isSome = true)
    (hard : Bool) : exec (.peerAdvance l hard) s = .next (s.framed (s.advanceAssoc l hard)) := by
  show execPeerAdvance l hard s = _
  rw [execPeerAdvance, whenOn_eq h, hp]
  simp only [if_pos ha]

/-- A confirmation of a peer that the pending advance names. -/
theorem advanceConfirmed_eq (h : Operates s) {a : SaAdvance} {l : Landing} (hp : s.saPending = some a) (hl : a.peers.contains l = true) :
    exec (.advanceConfirmed l) s = .next (s.framed (if (a.peers.filter (· != l)).isEmpty then s.endAdvance 0
      else { s with saPending := some { a with peers := a.peers.filter (· != l) } })) := by
  show execAdvanceConfirmed l s = _
  rw [execAdvanceConfirmed, whenOn_eq h, hp]
  simp only [hl, Bool.not_true, Bool.false_eq_true, if_false]

theorem advanceConfirmed_waits (h : Operates s) {a : SaAdvance} {l : Landing} (hp : s.saPending = some a)
    (hl : a.peers.contains l = true) (hrest : a.peers.filter (· != l) ≠ []) :
    exec (.advanceConfirmed l) s = .next { s with saPending := some { a with peers := a.peers.filter (· != l) } } := by
  rw [advanceConfirmed_eq h hp hl, if_neg (mt List.isEmpty_iff.mp hrest)]
  rfl

theorem advanceConfirmed_last (h : Operates s) {a : SaAdvance} {l : Landing} (hp : s.saPending = some a)
    (hl : a.peers.contains l = true) (hrest : a.peers.filter (· != l) = []) :
    exec (.advanceConfirmed l) s = .next (s.framed (s.endAdvance 0)) := by
  rw [advanceConfirmed_eq h hp hl, if_pos (List.isEmpty_iff.mpr hrest)]

theorem advanceTimeout_ends (h : Operates s) {a : SaAdvance} (hp : s.saPending = some a) (ht : a.deadline ≤ s.beat) :
    exec .advanceTimeout s = .next (s.framed (s.endAdvance a.peers.length)) := by
  show execAdvanceTimeout s = _
  rw [execAdvanceTimeout, whenOn_eq h, hp]
  simp only [if_pos ht]

theorem oldAnExpire_forgets (h : Operates s) (l : Landing) : exec (.oldAnExpire l) s = .next (s.updPeer l (fun p =>
    { p with assoc := p.assoc.map (fun a => { a with olds := a.olds.filter (fun o => o.lives s.beat) }) })) := by
  show execOldAnExpire l s = _
  rw [execOldAnExpire, whenOn_eq h]
  rfl

end advances

/-- Settles O48: what starts an advance, what refuses one, what ends it, and the end of the associations before. -/
theorem keyAdvances : Obligations.KeyAdvances := by
  unfold Obligations.KeyAdvances
  refine fun s h => ⟨fun v hard hr hv hh => ?write, fun l p hp ha => ⟨pnThreshold_starts h hp ha, peerAdvance_installs h hp ha⟩,
    fun a hp => ⟨fun l hrest hl => advanceConfirmed_waits h hp hl hrest, fun l hrest hl => advanceConfirmed_last h hp hl hrest,
      advanceTimeout_ends h hp⟩, oldAnExpire_forgets h⟩
  case write =>
    refine ⟨fun hp => ?_, fun a hp ha => ?_⟩
    · rw [saAdvance_eq h hr, saWrite_starts hv hh hp]
    · rw [saAdvance_eq h hr, saWrite_refused hv hh hp ha]
      rfl

end Sys2Proof.Machine
end

section
/-! PROOF. Counting off, claims and defences, HELLO, and the latency a keeper publishes. -/

namespace Sys2Proof.Machine

/-! ## Counting off and rediscovery (R409, R410) -/

section discovery
variable {s : State} {arr : Arrival}

theorem countOff_eq (h : Operates s) {n : Landing} (hu : s.ifUp arr.port.val arr.iface.val = true) (ht : s.takes arr = true) :
    let u := (s.countCorrected arr).hearFrom (n - 1)
    exec (.countOff arr.toLinkEnd arr.toEnvelope n) s = .next (s.framed (
      if u.landing != 0 || u.discState != discCounting || !usable n then u
      else ((u.settleOn n).noteRoute (n - 1) arr.port.val arr.iface.val 1).sendCount (n.toNat + 1)
        (some (8 * arr.port.val + arr.iface.val)))) := by
  show execCountOff arr.toLinkEnd arr.toEnvelope n s = _
  rw [execCountOff, whenOn_eq h, ht, receive_taken hu]

theorem countOff_takes (h : Operates s) {n : Landing} (hu : s.ifUp arr.port.val arr.iface.val = true) (ht : s.takes arr = true) :
    let u := (s.countCorrected arr).hearFrom (n - 1)
    u.landing = 0 → u.discState = discCounting → usable n = true → exec (.countOff arr.toLinkEnd arr.toEnvelope n) s = .next (s.framed
      (((u.settleOn n).noteRoute (n - 1) arr.port.val arr.iface.val 1).sendCount (n.toNat + 1)
        (some (8 * arr.port.val + arr.iface.val)))) := by
  intro u hl hd hn
  have hno : ¬(u.landing != 0 || u.discState != discCounting || !usable n) = true := by rw [hl, hd, hn]; decide
  rw [countOff_eq h hu ht, if_neg hno]

theorem countOff_discards (h : Operates s) {n : Landing} (hu : s.ifUp arr.port.val arr.iface.val = true) (ht : s.takes arr = true) :
    let u := (s.countCorrected arr).hearFrom (n - 1)
    u.landing ≠ 0 ∨ u.discState ≠ discCounting ∨ usable n = false →
      exec (.countOff arr.toLinkEnd arr.toEnvelope n) s = .next u := by
  intro u hno
  have hno : (u.landing != 0 || u.discState != discCounting || !usable n) = true := by
    rw [Bool.or_eq_true, Bool.or_eq_true, bne_iff_ne, bne_iff_ne, Bool.not_eq_true', or_assoc]
    exact hno
  rw [countOff_eq h hu ht, if_pos hno]
  rfl

theorem claimTimer_eq (h : Operates s) (hd : s.discState = discClaiming) : exec .claimTimer s = .next (s.framed (
    if s.discovery.claims < 3 then
      if s.discovery.lastClaim + 200000 ≤ s.beat then s.sendClaim else s
    else if s.discovery.lastClaim + 2000000 ≤ s.beat then s.settleOn s.discovery.candidate else s)) := by
  show execClaimTimer s = _
  rw [execClaimTimer, whenOn_eq h, if_neg (not_not_intro hd)]

theorem claimTimer_repeats (h : Operates s) (hd : s.discState = discClaiming) (hc : s.discovery.claims < 3)
    (ht : s.discovery.lastClaim + 200000 ≤ s.beat) : exec .claimTimer s = .next (s.framed s.sendClaim) := by
  rw [claimTimer_eq h hd, if_pos hc, if_pos ht]

theorem claimTimer_settles (h : Operates s) (hd : s.discState = discClaiming) (hc : 3 ≤ s.discovery.claims)
    (ht : s.discovery.lastClaim + 2000000 ≤ s.beat) :
    exec .claimTimer s = .next (s.framed (s.settleOn s.discovery.candidate)) := by
  rw [claimTimer_eq h hd, if_neg (Nat.not_lt.mpr hc), if_pos ht]

theorem discoveryFallback_claims (h : Operates s) {t : Nat} (htr : s.discovery.trainedAt = some t) (hl : s.landing = 0)
    (hd : s.discState = discCounting) (ht : t + 100000000 ≤ s.beat) :
    exec .discoveryFallback s = .next (s.framed (s.claimFrom s.firstCandidate)) := by
  show execDiscoveryFallback s = _
  rw [execDiscoveryFallback, whenOn_eq h, htr]
  simp only [if_pos (And.intro hl (And.intro hd ht))]

theorem rediscover_eq (h : Operates s) {v : Lane} (hr : s.hostReaches R_ROS_CMD = true) (hv : v.getLsbD 0 = true)
    (hf : s.ferryDown = false) (hd : s.discState ≠ discDuplicate) : exec (.rediscover v) s =
      .next (s.framed (if s.parts.toList.any (fun p => p.slot.isSome) then s else s.unnumber.startDiscovery)) := by
  show execRediscover v s = _
  rw [execRediscover, hostWrite_eq h hr]
  simp only [hv, hf, if_neg hd, Bool.not_true, Bool.false_eq_true, or_false, false_or]

end discovery

/-! ## Broadcasts of discovery (R410 to R412) -/

section broadcasts
variable {s u : State} {arr : Arrival} {hops : Byte} {n : Landing} {mac : BitVec 48} {here : State → State}

/-- A broadcast of discovery is sent on with one hop less, where one is left, under a source number. -/
def State.passOn (u : State) (arr : Arrival) (hops : Byte) (n : Landing) (mac : BitVec 48) (ty : Nat) (src : Landing) : State :=
  if hops = 0 then u
  else u.flood { discFrame u ty (hops.toNat - 1) broadcast (claimBytes n mac.toNat) with src := src }
    (some (8 * arr.port.val + arr.iface.val))

section taken
variable (hu : s.ifUp arr.port.val arr.iface.val = true) (ht : s.takes arr = true)
include hu ht

theorem broadcastIn_seen {ty : Nat} (hs : (s.countCorrected arr).seenBefore ty n mac = (u, true)) :
    s.broadcastIn arr ty hops n mac here = u := by
  rw [State.broadcastIn, ht, receive_taken hu]
  simp only [hs]

theorem broadcastIn_claim (hs : (s.countCorrected arr).seenBefore tyClaim n mac = (u, false)) :
    s.broadcastIn arr tyClaim hops n mac here = here (u.passOn arr hops n mac tyClaim 0) := by
  have hne : ¬tyClaim = tyDefend := by decide
  rw [State.broadcastIn, ht, receive_taken hu]
  simp only [hs, if_neg hne]
  rfl

theorem broadcastIn_defend (hs : (s.countCorrected arr).seenBefore tyDefend n mac = (u, false)) :
    s.broadcastIn arr tyDefend hops n mac here = here ((u.hearFrom n).passOn arr hops n mac tyDefend n) := by
  rw [State.broadcastIn, ht, receive_taken hu]
  simp only [hs, if_true]
  rfl

theorem claim_seen (h : Operates s) (hs : (s.countCorrected arr).seenBefore tyClaim n mac = (u, true)) :
    exec (.claim arr.toLinkEnd arr.toEnvelope hops n mac) s = .next (s.framed u) := by
  show execClaim arr.toLinkEnd arr.toEnvelope hops n mac s = _
  rw [execClaim, whenOn_eq h]
  exact congrArg (fun t => Host.Outcome.next (s.framed t)) (broadcastIn_seen hu ht hs)

theorem claim_new (h : Operates s) (hs : (s.countCorrected arr).seenBefore tyClaim n mac = (u, false)) :
    let w := u.passOn arr hops n mac tyClaim 0
    exec (.claim arr.toLinkEnd arr.toEnvelope hops n mac) s = .next (s.framed (
      if w.landing ≠ 0 then
        if n = w.landing then w.flood (discFrame w tyDefend 16 broadcast (claimBytes n w.macBase)) none else w
      else if w.discState = discClaiming ∧ n = w.discovery.candidate ∧ mac.toNat < w.macBase then w.collide
      else w)) := by
  show execClaim arr.toLinkEnd arr.toEnvelope hops n mac s = _
  rw [execClaim, whenOn_eq h]
  exact congrArg (fun t => Host.Outcome.next (s.framed t)) (broadcastIn_claim hu ht hs)

theorem claim_collides (h : Operates s) (hs : (s.countCorrected arr).seenBefore tyClaim n mac = (u, false)) :
    let w := u.passOn arr hops n mac tyClaim 0
    w.landing = 0 → w.discState = discClaiming → n = w.discovery.candidate → mac.toNat < w.macBase →
      exec (.claim arr.toLinkEnd arr.toEnvelope hops n mac) s = .next (s.framed w.collide) := by
  intro w hl hd hn hm
  rw [claim_new hu ht h hs, if_neg (not_not_intro hl), if_pos ⟨hd, hn, hm⟩]

theorem claim_defended (h : Operates s) (hs : (s.countCorrected arr).seenBefore tyClaim n mac = (u, false)) :
    let w := u.passOn arr hops n mac tyClaim 0
    w.landing = n → n ≠ 0 → exec (.claim arr.toLinkEnd arr.toEnvelope hops n mac) s =
      .next (s.framed (w.flood (discFrame w tyDefend 16 broadcast (claimBytes n w.macBase)) none)) := by
  intro w hl hn
  rw [claim_new hu ht h hs, if_pos (show w.landing ≠ 0 by rw [hl]; exact hn), if_pos hl.symm]

theorem defend_new (h : Operates s) (hs : (s.countCorrected arr).seenBefore tyDefend n mac = (u, false)) :
    let w := (u.hearFrom n).passOn arr hops n mac tyDefend n
    exec (.defend arr.toLinkEnd arr.toEnvelope hops n mac) s = .next (s.framed (
      if w.landing ≠ 0 then
        if n = w.landing then w.duplicateNumber mac else w.noteRoute n arr.port.val arr.iface.val (17 - min hops.toNat 16)
      else if w.discState = discClaiming ∧ n = w.discovery.candidate then w.collide
      else w.noteRoute n arr.port.val arr.iface.val (17 - min hops.toNat 16))) := by
  show execDefend arr.toLinkEnd arr.toEnvelope hops n mac s = _
  rw [execDefend, whenOn_eq h]
  exact congrArg (fun t => Host.Outcome.next (s.framed t)) (broadcastIn_defend hu ht hs)

theorem defend_collides (h : Operates s) (hs : (s.countCorrected arr).seenBefore tyDefend n mac = (u, false)) :
    let w := (u.hearFrom n).passOn arr hops n mac tyDefend n
    w.landing = 0 → w.discState = discClaiming → n = w.discovery.candidate →
      exec (.defend arr.toLinkEnd arr.toEnvelope hops n mac) s = .next (s.framed w.collide) := by
  intro w hl hd hn
  rw [defend_new hu ht h hs, if_neg (not_not_intro hl), if_pos ⟨hd, hn⟩]

theorem defend_ofOwn (h : Operates s) (hs : (s.countCorrected arr).seenBefore tyDefend n mac = (u, false)) :
    let w := (u.hearFrom n).passOn arr hops n mac tyDefend n
    w.landing = n → n ≠ 0 →
      exec (.defend arr.toLinkEnd arr.toEnvelope hops n mac) s = .next (s.framed (w.duplicateNumber mac)) := by
  intro w hl hn
  rw [defend_new hu ht h hs, if_pos (show w.landing ≠ 0 by rw [hl]; exact hn), if_pos hl.symm]

theorem defend_ofOther (h : Operates s) (hs : (s.countCorrected arr).seenBefore tyDefend n mac = (u, false)) :
    let w := (u.hearFrom n).passOn arr hops n mac tyDefend n
    w.landing ≠ 0 → w.landing ≠ n → exec (.defend arr.toLinkEnd arr.toEnvelope hops n mac) s =
      .next (s.framed (w.noteRoute n arr.port.val arr.iface.val (17 - min hops.toNat 16))) := by
  intro w hl hn
  rw [defend_new hu ht h hs, if_pos hl, if_neg (Ne.symm hn)]

end taken

end broadcasts

/-! ## HELLO and the keeper's latency (R413 to R416, R419, R420) -/

section hello
variable {s : State}

theorem hello_accepted (h : Operates s) {rx : Rx} {mac : BitVec 48} {reference : Landing} {rs : List HelloRecord} {s1 : State}
    (hu : s.ifUp rx.port.val rx.iface.val = true) (ht : s.takes rx.toArrival = true) (hl : rx.src ≠ s.landing)
    (hd : s.discState ≠ discDuplicate)
    (ha : (s.meet rx.src mac rx.port.val rx.iface.val).accept rx tyHello = (s1, true)) :
    exec (.hello rx mac reference rs) s = .next (s.framed (State.afterLiveness (State.adoptReference
      (rs.foldl (fun s r => s.takeRecord rx.src r) (s1.updPeer rx.src (fun p => { p with
        live := true, mac := mac, reference := reference, port := rx.port.val, iface := rx.iface.val })))) s)) := by
  have hin : ¬((!s.ifUp rx.port.val rx.iface.val) = true ∨ (!s.takes rx.toArrival) = true) := by rw [hu, ht]; decide
  have hother : ¬(rx.src = s.landing ∧ s.landing ≠ 0) := fun e => hl e.1
  show execHello rx mac reference rs s = _
  rw [execHello, whenOn_eq h, if_neg hin, if_neg hother]
  simp only [if_neg hd, ha]

/-- A fold whose every step leaves the start as it is. -/
theorem foldl_fixed_of_mem {α β : Type} {f : β → α → β} {b : β} {l : List α} (h : ∀ a ∈ l, f b a = b) : l.foldl f b = b := by
  induction l with
  | nil => rfl
  | cons a l ih => rw [List.foldl_cons, h a List.mem_cons_self, ih fun x hx => h x (List.mem_cons_of_mem a hx)]

/-- HELLO_TIMER meets a device that HELLO goes to and that only discovery has told of. -/
def State.meetTarget (s : State) (l : Landing) : State := match s.peer? l, mapGet none s.routes l.toNat with
  | none, some r => s.meet l 0 r.port r.iface
  | _, _ => s

theorem meetTarget_known {l : Landing} (hp : (s.peer? l).isSome = true) : s.meetTarget l = s := by
  obtain ⟨p, hp⟩ := Option.isSome_iff_exists.mp hp
  simp only [State.meetTarget, hp]

theorem helloTimer_eq (h : Operates s) (hl : s.landing ≠ 0) (hk : s.key.fabric.isSome = true) :
    let u := s.helloTargets.foldl State.meetTarget s
    exec .helloTimer s = .next (s.framed (u.helloTargets.foldl (fun s l => s.sendUnseq l tyHello s.helloBytes) u.tick)) := by
  have hon : ¬(s.landing = 0 ∨ s.key.fabric.isNone = true) := not_or.mpr ⟨hl, by simp [Option.ne_none_iff_isSome.mpr hk]⟩
  show execHelloTimer s = _
  rw [execHelloTimer, whenOn_eq h, if_neg hon]
  rfl

theorem helloTimer_sends (h : Operates s) (hl : s.landing ≠ 0) (hk : s.key.fabric.isSome = true)
    (hp : ∀ l ∈ s.helloTargets, (s.peer? l).isSome = true) :
    exec .helloTimer s = .next (s.framed (s.helloTargets.foldl (fun s l => s.sendUnseq l tyHello s.helloBytes) s.tick)) := by
  rw [helloTimer_eq h hl hk, foldl_fixed_of_mem (f := State.meetTarget) fun l hm => meetTarget_known (hp l hm)]

theorem keeperLatencyUpdate_publishes (h : Operates s) {slot : SlotId} {v : VDev}
    (hv : s.vdevs.find? (fun v => v.slot == some slot) = some v) (hk : s.isKeeper v = true) (hf : s.ferryDown = false) :
    exec (.keeperLatencyUpdate slot) s = .next (s.framed (State.tick (s.setVdLat v (s.reportedLat v)))) := by
  show execKeeperLatencyUpdate slot s = _
  rw [execKeeperLatencyUpdate, whenOn_eq h, hv]
  simp only [hk, hf, Bool.not_false, Bool.and_true, if_true]

end hello

/-- Settles O49: each frame and timer of discovery by the number and state it meets, HELLO, and the keeper's latency. -/
theorem discoveryAndHello : Obligations.DiscoveryAndHello := by
  unfold Obligations.DiscoveryAndHello
  refine ⟨fun s h => ⟨fun arr n hu ht => ⟨countOff_takes h hu ht, countOff_discards h hu ht⟩, fun arr hops n mac u hu ht =>
      ⟨claim_seen hu ht h, fun hs => ⟨claim_collides hu ht h hs, claim_defended hu ht h hs⟩,
        fun hs => ⟨defend_collides hu ht h hs, defend_ofOwn hu ht h hs, defend_ofOther hu ht h hs⟩⟩,
      fun hd => ⟨claimTimer_repeats h hd, claimTimer_settles h hd⟩, fun t => discoveryFallback_claims h,
      fun v hr hv hf hd => ⟨fun hm => ?_, fun hm => ?_⟩⟩,
    fun s h => ⟨fun rx mac reference rs s1 => hello_accepted h, helloTimer_sends h, fun slot v => keeperLatencyUpdate_publishes h⟩⟩
  · rw [rediscover_eq h hr hv hf hd, if_pos hm, State.framed_self]
  · rw [rediscover_eq h hr hv hf hd, hm, if_neg Bool.false_ne_true]

end Sys2Proof.Machine
end

section
/-! PROOF. DECIDE at a taker that keeps the handoff's outcome: discarded, and not reported back. -/

namespace Sys2Proof.Machine

section kept
variable {s u : State} {rx : Rx} {r : HandoffRecord}

/-- A decision of a handoff whose outcome is kept changes nothing beyond the acceptance of its frame. -/
theorem hoDecide_keptOutcome (h : Operates s) (ha : s.acceptSeq rx tyDecide = (u, true)) (hd : u.dispute? r.hid r.holder = none)
    (ho : (u.hoOutcome? r.hid r.holder).isSome = true) : exec (.hoDecide rx r) s = .next (s.framed u) := by
  refine exec_rosterFrame (f := _) rfl h ha ?_
  simp only [hd, if_pos ho]

/-- Device 5 with its first interface up and device 9 its peer; it keeps outcome NEW of handoff 4 of device 9. -/
def keptDecide : State :=
  { (State.reset.setRegField R_ROS_STATUS 15 0 5).setRegField (portStatus 0) 15 8 1 with
    powered := true
    peers := [{ Peer.fresh 9 0x200 0 0 with assoc := some Assoc.fresh, live := true }]
    hoOutcomes := [(4, 9, 0)] }

/-- A frame of device 9 under its association, with packet number 1. -/
def keptRx : Rx := ⟨⟨⟨0, 0⟩, ⟨0, 0, .raw 0x88B5⟩⟩, 9, 0, false, false, 0, 1, true⟩

/-- The record of the frame: a handoff of one entry, device 9 the holder, device 5 the taker. -/
def keptRecord : HandoffRecord := ⟨4, 9, 5, 0, 1, 0, 0, 1, 1, [], 64, []⟩

/-- Device 5 once it has accepted the frame. -/
def keptDecided : State := (keptDecide.acceptSeq keptRx tyDecide).1

/-- The sequence numbers that the device's streams have next, peer by peer. -/
def State.txNexts (s : State) : List Lane := s.peers.map (·.txNext)

theorem framed_txNexts (s t : State) : (s.framed t).txNexts = t.txNexts := rfl

theorem keptDecide_operates : Operates keptDecide := ⟨rfl, rfl⟩

theorem keptDecide_accepts : keptDecide.acceptSeq keptRx tyDecide = (keptDecided, true) :=
  Prod.ext rfl (by decide)

theorem keptDecided_undisputed : keptDecided.dispute? keptRecord.hid keptRecord.holder = none := by decide

theorem keptDecided_keeps : (keptDecided.hoOutcome? keptRecord.hid keptRecord.holder).isSome = true := by decide

theorem keptDecided_landing : keptDecided.landing = 5 := by decide

theorem keptDecided_txNexts : keptDecided.txNexts = [0] := by decide

/-- A report sent back would take a sequence number. -/
theorem reported_txNexts : (State.sendHo (keptDecided.applyDecision keptRecord (keptRecord.info.toNat % 2))
    keptRx.src tyReport keptRecord 0).txNexts = [1] := by decide

end kept

/-- Refutes O53: its clause on DECIDE at the taker leaves out that no outcome is kept. Device 5 keeps the outcome of handoff 4 of
device 9, so that it discards the decision and sends no report. -/
theorem not_handoffsAndDisputes : ¬ Obligations.HandoffsAndDisputes := by
  unfold Obligations.HandoffsAndDisputes
  intro h
  obtain ⟨-, hdisputes⟩ := h
  obtain ⟨-, hdecide, -⟩ := hdisputes keptDecide keptRx keptRecord keptDecided keptDecide_operates
  have hne : keptRecord.holder ≠ keptDecided.landing := by rw [keptDecided_landing]; decide
  have hclaim := hdecide keptDecide_accepts keptDecided_undisputed keptDecided_landing.symm hne
  rw [hoDecide_keptOutcome keptDecide_operates keptDecide_accepts keptDecided_undisputed keptDecided_keeps] at hclaim
  have hsame := congrArg State.txNexts (Host.Outcome.next.inj hclaim)
  rw [framed_txNexts, framed_txNexts, keptDecided_txNexts, reported_txNexts] at hsame
  exact absurd hsame (by decide)

end Sys2Proof.Machine
end

section
/-! PROOF. The host link: its training, its loss and what it held, and deferred vectors. -/

namespace Sys2Proof.Machine

/-! ## Training (R438 to R440) -/

section training
variable {s : State}

/-- A key reads what was put there, in any map, unless that is the default. -/
theorem mapGet_mapPut_of_ne {α : Type} [DecidableEq α] {d x : α} (hx : x ≠ d) (n : Nat) :
    ∀ m : SMap α, mapGet d (mapPut d m n x) n = x
  | [] => by simp [mapPut, mapGet, hx]
  | (k, v) :: t => by
    rw [mapPut, if_neg hx, if_neg hx]
    split
    · rw [mapGet, if_pos rfl]
    · split
      · rw [mapGet, if_pos rfl]
      · next hk => rw [mapGet, if_neg hk, mapGet_mapPut_of_ne hx n t]

theorem State.reg_setReg_of_ne {off : Nat} {v : Word} (hv : v ≠ regReset off) : (s.setReg off v).reg off = v := by
  rw [State.reg, State.setReg, if_neg hv, mapGet_mapPut_of_ne (by simp)]
  rfl

theorem trainModules_length {works : Nat} (h : trainModules works ≠ []) :
    (trainModules works).length = 1 ∨ (trainModules works).length = 2 ∨ (trainModules works).length = 4 := by
  have hpos := List.length_pos_iff.mpr h
  rw [trainModules] at hpos ⊢
  rw [List.length_take] at hpos ⊢
  by_cases h4 : 4 ≤ (maskIndices works 4).length
  · rw [if_pos h4]
    omega
  · rw [if_neg h4] at hpos ⊢
    by_cases h2 : 2 ≤ (maskIndices works 4).length
    · rw [if_pos h2]
      omega
    · rw [if_neg h2] at hpos ⊢
      omega

/-- The rate of a trained link, a sum of positive rates, is never the register's reset value. -/
theorem hostRate_ne_reset {works : Nat} (h : trainModules works ≠ []) (fast : Bool) :
    BitVec.ofNat 64 (625 * ((trainModules works).length * (if fast then 256 else 128)) / 1024) ≠ regReset R_HST_HOST_RATE := by
  obtain hl | hl | hl := trainModules_length h <;> rw [hl] <;> cases fast <;> decide

/-- The state of a link that has trained at a bandwidth. -/
def State.linkTrained (s : State) (status : Word) (bw : Nat) : State :=
  { (s.setReg R_HST_LINK_STATUS status).setReg R_HST_HOST_RATE (BitVec.ofNat 64 (625 * bw / 1024)) with hostUp := true, linkBw := bw }

theorem linkTrained_rate {bw : Nat} (status : Word) (h : BitVec.ofNat 64 (625 * bw / 1024) ≠ regReset R_HST_HOST_RATE) :
    (s.linkTrained status bw).reg R_HST_HOST_RATE = BitVec.ofNat 64 (625 * bw / 1024) := State.reg_setReg_of_ne h

theorem releaseHostWrites_nothing (h : s.hostHeld = []) : s.releaseHostWrites = { s with hostHeld := [] } := by
  rw [State.releaseHostWrites, h, List.foldl_nil]

/-- A link that has no bandwidth to fall below and holds nothing. -/
theorem linkUp_fresh (hh : s.hostHeld = []) (hb : s.linkBw = 0) (fast : Bool) (ms : List Nat) :
    ∃ status : Word, s.linkUp fast ms = { s.linkTrained status (ms.length * (if fast && !s.regBit R_HST_LINK_CTRL 1 then 256 else 128)) with
      hostHeld := [] } := by
  have hr : ∀ status bw, (s.linkTrained status bw).releaseHostWrites = { s.linkTrained status bw with hostHeld := [] } :=
    fun status bw => releaseHostWrites_nothing hh
  rw [State.linkUp, hb]
  simp only [if_neg (Nat.not_lt_zero _)]
  exact ⟨_, hr _ _⟩

theorem linkUp_trained {works : Nat} (h : trainModules works ≠ []) (hh : s.hostHeld = []) (hb : s.linkBw = 0) (fast : Bool) :
    let u := s.linkUp fast (trainModules works)
    u.misused = s.misused ∧ u.hostUp = true ∧
      u.linkBw = (trainModules works).length * (if fast && !s.regBit R_HST_LINK_CTRL 1 then 256 else 128) ∧
      u.reg R_HST_HOST_RATE = BitVec.ofNat 64 (625 * u.linkBw / 1024) := by
  obtain ⟨status, e⟩ := linkUp_fresh hh hb fast (trainModules works)
  dsimp only
  rw [e]
  exact ⟨rfl, rfl, rfl, linkTrained_rate status (hostRate_ne_reset h _)⟩

theorem hostLinkUp_trains (h : Operates s) {fast : Bool} {modules : BitVec 4} (hu : s.hostUp = false) (ht : s.linkMayTrain = true)
    (hm : trainModules modules.toNat ≠ []) (hok : (s.linkUp fast (trainModules modules.toNat)).misused = none) :
    exec (.hostLinkUp fast modules) s = .next (s.framed (s.linkUp fast (trainModules modules.toNat))) := by
  have hgo : ¬(s.hostUp || !s.linkMayTrain || (trainModules modules.toNat).isEmpty) = true := by
    rw [hu, ht, List.isEmpty_eq_false_iff.mpr hm]
    decide
  show execHostLinkUp fast modules s = _
  exact whenChecked_of h (if_neg hgo) hok

end training

/-! ## Loss (R442) -/

section loss
variable {s : State}

/-- Whether an place lies in the host's memory. -/
def Place.atHost : Place → Bool
  | .host _ => true
  | _ => false

/-- The movements that the link carries. -/
def State.hostMoves (s : State) : List Movement := s.moves.filter (fun m => m.endpoints.any Place.atHost)

/-- The loss of the link with the movements that it carries. -/
def State.loseMoves (s : State) (hit : List Movement) : State :=
  let t := s.addFault { FaultEntry.bare 6 2 with flags := if hit.isEmpty then 0 else 1 }
  hit.foldl (fun s (m : Movement) => s.strike m.manifest (some (corePart m.core).val))
    { t with moves := t.moves.filter (fun (m : Movement) => !hit.any (fun h => h.id == m.id)) }

/-- The state of the link once it is down. -/
def State.linkLost (s : State) : State :=
  State.setRegField { s with hostUp := false, hostDownAt := s.beat } R_HST_LINK_STATUS 31 12 0

theorem hostDown_ofUp (h : s.hostUp = true) : s.hostDown = s.linkLost.loseMoves s.hostMoves := by
  rw [State.hostDown, h]
  rfl

theorem loseMoves_nil : s.loseMoves [] = s.addFault { FaultEntry.bare 6 2 with flags := 0 } := by
  have hall (u : State) : u.moves.filter (fun m => !([] : List Movement).any (fun h => h.id == m.id)) = u.moves :=
    List.filter_eq_self.mpr fun _ _ => rfl
  rw [State.loseMoves, List.foldl_nil, hall]
  rfl

theorem hostDown_ofDown (h : s.hostUp = false) : s.hostDown = s := by
  rw [State.hostDown, h]
  rfl

theorem books_hostUp {s t : State} (h : BooksOnly s t) : t.hostUp = s.hostUp := by rw [h]

theorem books_hostDownAt {s t : State} (h : BooksOnly s t) : t.hostDownAt = s.hostDownAt := by rw [h]

theorem books_moves {s t : State} (h : BooksOnly s t) : t.moves = s.moves := by rw [h]

/-- The loss of a link that carries no movement leaves the movements as they are. -/
theorem hostDown_unused (h : s.hostUp = true) (hm : s.hostMoves = []) :
    s.hostDown.hostUp = false ∧ s.hostDown.hostDownAt = s.beat ∧ s.hostDown.moves = s.moves := by
  have hb := addFault_books s.linkLost { FaultEntry.bare 6 2 with flags := 0 }
  rw [hostDown_ofUp h, hm, loseMoves_nil]
  exact ⟨(books_hostUp hb).trans rfl, (books_hostDownAt hb).trans rfl, (books_moves hb).trans rfl⟩

theorem retrain_eq (h : Operates s) {v : Lane} (hr : s.hostReaches R_HST_LINK_CTRL = true) :
    let u := s.setRegField R_HST_LINK_CTRL 1 1 (bits v.toNat 1 1)
    exec (.retrain v) s = .next (s.framed (if v.getLsbD 0 then u.hostDown else u)) := by
  intro u
  show execRetrain v s = _
  rw [execRetrain, hostWrite_eq h hr]

theorem hostLinkTimeout_discards (h : Operates s) (hu : s.hostUp = false) (hb : s.linkBw ≠ 0) (ht : s.hostDownAt + 100000000 ≤ s.beat) :
    exec .hostLinkTimeout s =
      .next (s.framed (State.squashAll { s with hostHeld := s.hostHeld.filter (fun w => !w.publishes) } false)) := by
  have hgo : ¬(s.hostUp || s.linkBw == 0 || decide (s.beat < s.hostDownAt + 100000000)) = true := by
    rw [hu, beq_false_of_ne hb, decide_eq_false (Nat.not_lt.mpr ht)]
    decide
  show execHostLinkTimeout s = _
  rw [execHostLinkTimeout, whenOn_eq h, if_neg hgo]

/-- Whether the interval since the last raise of a vector has ended (R446). -/
def State.vectorDue (s : State) (v : Nat) : Bool := match mapGet none s.irqLast v with
  | some t => decide (t + 1000 * s.regField R_HST_IRQ_MOD 15 0 ≤ s.beat)
  | none => true

theorem vectorDue_of {v : Nat} (h : ∀ t, mapGet none s.irqLast v = some t → t + 1000 * s.regField R_HST_IRQ_MOD 15 0 ≤ s.beat) :
    s.vectorDue v = true := by
  rw [State.vectorDue]
  split
  · next t ht => exact decide_eq_true (h t ht)
  · rfl

theorem irqModerationExpire_raises (h : Operates s) {v : Fin 64} (hd : s.irqDeferred.contains v.val = true) (hu : s.hostUp = true)
    (ht : s.vectorDue v.val = true) : exec (.irqModerationExpire v) s = .next { s with
      irqDeferred := s.irqDeferred.filter (fun x => x != v.val), irqLast := mapPut none s.irqLast v.val (some s.beat)
      out := s.out ++ s.vectorOuts v.val } := by
  show execIrqModerationExpire v s = _
  rw [execIrqModerationExpire, whenOn_eq h]
  dsimp only
  rw [if_pos ⟨hd, ht, hu⟩]
  rfl

end loss

/-- Settles O54: the link as it trains, goes down, times out and is retrained, and the end of a vector's interval. -/
theorem hostLink : Obligations.HostLink := by
  unfold Obligations.HostLink
  refine fun s h => ⟨fun fast modules hu ht hm => ⟨hostLinkUp_trains h hu ht hm, fun hh hb => linkUp_trained hm hh hb fast⟩,
    fun hu => ?already, fun hu => ⟨whenOn_eq h, fun hm => ?loses⟩, hostLinkTimeout_discards h,
    fun v hr => ⟨fun hv => ?retrains, fun hv => ?writes⟩, fun v hd hu ht => irqModerationExpire_raises h hd hu (vectorDue_of ht)⟩
  case already =>
    show execHostLinkDown s = _
    rw [execHostLinkDown, whenOn_eq h, hostDown_ofDown hu, State.framed_self]
  case loses =>
    refine hostDown_unused hu (List.filter_eq_nil_iff.mpr fun m hmem hany => ?_)
    obtain ⟨e, he, hhost⟩ := List.any_eq_true.mp hany
    have hother := List.all_eq_true.mp (List.all_eq_true.mp hm m hmem) e he
    cases e with
    | host a => exact Bool.false_ne_true hother
    | _ => exact Bool.false_ne_true hhost
  case retrains => rw [retrain_eq h hr, if_pos hv]
  case writes =>
    rw [retrain_eq h hr, hv, if_neg Bool.false_ne_true]
    rfl

end Sys2Proof.Machine
end

section
/-! PROOF. Sharing modes, the commands of instances and their ends. -/

namespace Sys2Proof.Machine

/-! ## Modes (R448 to R450) -/

section modes
variable {s : State}

theorem devModeWrite_changes (h : Operates s) {v : Lane} (hr : s.hostReaches R_DEV_MODE = true) (hv : v.getLsbD 31 = false)
    (hm : bits v.toNat 1 0 ≠ s.sharing) : exec (.devModeWrite v) s = .next (s.framed (
      if bits v.toNat 1 0 = 3 ∨ !s.modeIdle then s.setRegField R_DEV_MODE 31 31 1
      else State.resetInstances (s.setRegField R_DEV_MODE 1 0 (bits v.toNat 1 0)) (bits v.toNat 1 0))) := by
  show execDevModeWrite v s = _
  rw [execDevModeWrite, hostWrite_eq h hr, hv]
  simp only [Bool.false_eq_true, if_false, if_neg hm]

theorem devModeWrite_refused (h : Operates s) {v : Lane} (hr : s.hostReaches R_DEV_MODE = true) (hv : v.getLsbD 31 = false)
    (hm : bits v.toNat 1 0 ≠ s.sharing) (hno : bits v.toNat 1 0 = 3 ∨ s.modeIdle = false) :
    exec (.devModeWrite v) s = .next (s.setRegField R_DEV_MODE 31 31 1) := by
  rw [devModeWrite_changes h hr hv hm, if_pos (hno.imp_right fun e => by rw [e]; rfl)]
  rfl

theorem devModeWrite_resets (h : Operates s) {v : Lane} (hr : s.hostReaches R_DEV_MODE = true) (hv : v.getLsbD 31 = false)
    (hm : bits v.toNat 1 0 ≠ s.sharing) (h3 : bits v.toNat 1 0 ≠ 3) (hi : s.modeIdle = true) : exec (.devModeWrite v) s =
      .next (s.framed (State.resetInstances (s.setRegField R_DEV_MODE 1 0 (bits v.toNat 1 0)) (bits v.toNat 1 0))) := by
  rw [devModeWrite_changes h hr hv hm, if_neg (not_or.mpr ⟨h3, by simp [hi]⟩)]

/-- A virtual function comes into being Running. -/
def State.enableVf (s : State) (i : Nat) : State := (s.setRegField (instReg i) 63 63 1).setInstState i instRunning

/-- While no command of R455 runs, every function is enabled. -/
theorem foldl_enableVf (l : List Nat) : ∀ s : State, s.instCmds = [] →
    l.foldl (fun s i => if s.instCmds.any (fun (c : InstCmd) => c.inst == i) then s else s.enableVf i) s = l.foldl State.enableVf s := by
  induction l with
  | nil => exact fun _ _ => rfl
  | cons i l ih =>
    intro s hs
    rw [List.foldl_cons, List.foldl_cons, hs, List.any_nil, if_neg Bool.false_ne_true]
    exact ih (s.enableVf i) hs

theorem vfEnableSet_enables (h : Operates s) {n : Nat} (hu : s.hostUp = true) (hm : s.sharing = modeMediated) (hc : s.vfCount = 0)
    (hn : n ≤ 64) (hi : s.instCmds = []) :
    exec (.vfEnableSet n) s = .next (s.framed ((List.range n).foldl State.enableVf { s with vfCount := n })) := by
  have hgo : ¬(!s.hostUp || s.sharing != modeMediated || s.vfCount != 0 || decide (64 < n)) = true := by
    rw [hu, hm, hc, decide_eq_false (Nat.not_lt.mpr hn)]
    decide
  show execVfEnableSet n s = _
  rw [execVfEnableSet, whenOn_eq h, if_neg hgo]
  exact congrArg (fun t => Host.Outcome.next (s.framed t)) (foldl_enableVf (List.range n) { s with vfCount := n } hi)

theorem vfEnableClear_squashes (h : Operates s) (hu : s.hostUp = true) (hm : s.sharing = modeMediated) (hc : s.vfCount ≠ 0) :
    exec .vfEnableClear s = .next (s.framed (State.squashAll { s with vfCount := 0 } true)) := by
  have hgo : ¬(!s.hostUp || s.sharing != modeMediated || s.vfCount == 0) = true := by
    rw [hu, hm, beq_false_of_ne hc]
    decide
  show execVfEnableClear s = _
  rw [execVfEnableClear, whenOn_eq h, if_neg hgo]

theorem functionLevelReset_squashes (h : Operates s) {i : Fin 64} (hu : s.hostUp = true) (hm : s.sharing = modeMediated)
    (hv : s.instValid i.val = true) :
    exec (.functionLevelReset i) s = .next (s.framed (s.instCommand i.val true false)) := by
  have hgo : ¬(!s.hostUp || s.sharing != modeMediated || !s.instValid i.val) = true := by
    rw [hu, hm, hv]
    decide
  show execFunctionLevelReset i s = _
  rw [execFunctionLevelReset, whenOn_eq h, if_neg hgo]

theorem cxlReset_squashes (h : Operates s) (hu : s.hostUp = true) : exec .cxlReset s = .next (s.framed (s.squashAll false)) := by
  show execCxlReset s = _
  rw [execCxlReset, whenOn_eq h, if_pos hu]

end modes

/-! ## Commands (R455 to R458) -/

section commands
variable {s : State} {i : Nat} {squash remove : Bool}

/-- The four commands are one command with two choices. -/
theorem instCmd_eq (h : Operates s) (hr : s.hostReaches R_HST_INST_CMD = true) {i : Fin 64} {c : Instr}
    (hc : (c = .resetDrain i ∧ squash = false ∧ remove = false) ∨ (c = .resetSquash i ∧ squash = true ∧ remove = false) ∨
      (c = .removeDrain i ∧ squash = false ∧ remove = true) ∨ (c = .removeSquash i ∧ squash = true ∧ remove = true)) :
    exec c s = .next (s.framed (s.instCommand i.val squash remove)) := by
  obtain ⟨rfl, rfl, rfl⟩ | ⟨rfl, rfl, rfl⟩ | ⟨rfl, rfl, rfl⟩ | ⟨rfl, rfl, rfl⟩ := hc <;>
    exact hostWrite_eq (f := fun s => s.instCommand i.val _ _) h hr

theorem instCommand_begins (hn : s.instCmds = []) (hv : s.instValid i = true) :
    s.instCommand i squash remove = s.beginInst i squash remove := by
  simp [State.instCommand, hn, hv]

theorem instCommand_absent (hn : s.instCmds = []) (hv : s.instValid i = false) :
    s.instCommand i squash remove = (s.setRegField R_HST_INST_STATUS 5 0 i).setRegField R_HST_INST_STATUS 7 6 2 := by
  simp [State.instCommand, hn, hv, instAbsentResult]

/-- A squash during a drain of the same target turns its command into a squash. -/
theorem instCommand_converts {x : InstCmd} {rest : List InstCmd} (hn : s.instCmds = x :: rest) (hx : x.inst = i)
    (hsq : x.squash = false) : s.instCommand i true remove = s.convertInst x remove := by
  simp [State.instCommand, hn, hx, hsq]

theorem instCommand_refused {x : InstCmd} (hn : s.instCmds = [x]) (hx : x.inst ≠ i) :
    s.instCommand i squash remove = s.setRegField R_HST_INST_STATUS 30 30 1 := by
  simp [State.instCommand, hn, hx]

/-- The end of a command waits until the command is ready to end. -/
theorem instanceCommandDone_eq (h : Operates s) {i : Fin 64} {c : InstCmd} (hc : s.instCmds.find? (fun c => c.inst == i.val) = some c) :
    exec (.instanceCommandDone i) s = .next (s.framed (if s.cmdReady c then s.endInst c else s)) := by
  show execInstanceCommandDone i s = _
  rw [execInstanceCommandDone, whenOn_eq h, hc]

end commands

/-- Settles O55: writes of the mode and of HST_INST, the commands by what is under way, and their ends. -/
theorem instances : Obligations.Instances := by
  unfold Obligations.Instances
  refine fun s h => ⟨fun v hr hv hm => ⟨devModeWrite_refused h hr hv hm, devModeWrite_resets h hr hv hm⟩, fun i v hr => hostWrite_eq (f := fun s => s.writeInst i.val v) h hr,
    fun i c squash remove hr hc => ?commands, fun hu => ⟨cxlReset_squashes h hu, fun hm => ⟨fun i => functionLevelReset_squashes h hu hm,
      vfEnableClear_squashes h hu hm, fun n => vfEnableSet_enables h hu hm⟩⟩, fun i c hc => ⟨fun hy => ?ends, fun hy => ?waits⟩⟩
  case commands =>
    rw [instCmd_eq h hr hc]
    refine ⟨fun hn hv => ?_, fun hn hv => ?_, fun x rest hn hx hs hsq => ?_, fun x hn hx => ?_⟩
    · rw [instCommand_begins hn hv]
    · rw [instCommand_absent hn hv]
      rfl
    · rw [hs, instCommand_converts hn hx hsq]
    · rw [instCommand_refused hn hx]
      rfl
  case ends => rw [instanceCommandDone_eq h hc, if_pos hy]
  case waits => rw [instanceCommandDone_eq h hc, hy, if_neg Bool.false_ne_true, State.framed_self]

end Sys2Proof.Machine
end

section
/-! PROOF. Grants of the rack manager, slack and its reports, and loans. -/

namespace Sys2Proof.Machine

/-! ## The rack manager (R461 to R465) -/

section rack
variable {s s1 : State} {rx : Rx}

theorem rackGrant_announces (h : Operates s) (ha : s.acceptSeq rx tyGrant = (s1, true)) (hl : rackLanding s1 ≠ 0)
    (hx : rx.src = rackLanding s1) {w f : BitVec 16} {e : Word} (hf : f.toNat ≤ w.toNat) (hw : w.toNat ≤ 1000) :
    let at_ := if w.toNat < grantW s1 then max e.toNat (s1.beat + 250000) else e.toNat
    let u : State := { s1 with power := { s1.power with
      lastGrant := s1.beat
      pendingG := s1.power.pendingG ++ [(at_, w.toNat)], pendingF := s1.power.pendingF ++ [(e.toNat, f.toNat)] } }
    exec (.rackGrant rx w f e) s = .next (s.framed (State.applyGrants (u.setRegField R_PWR_STATUS 29 29 0))) := by
  have hg : min wattsMax w.toNat = w.toNat := Nat.min_eq_right hw
  have hff : min wattsMax f.toNat = f.toNat := Nat.min_eq_right (Nat.le_trans hf hw)
  have hok : ¬(rackLanding s1 = 0 ∨ rx.src ≠ rackLanding s1 ∨ w.toNat < f.toNat) :=
    not_or.mpr ⟨hl, not_or.mpr ⟨not_not_intro hx, Nat.not_lt.mpr hf⟩⟩
  show execRackGrant rx w f e s = _
  rw [execRackGrant, whenOn_eq h, ha]
  simp only [hg, hff, if_neg hok]
  rfl

theorem grantEffective_applies (h : Operates s) : exec .grantEffective s = .next (s.framed s.applyGrants) := by
  show execGrantEffective s = _
  rw [execGrantEffective, whenOn_eq h]

theorem rackTimeout_floors (h : Operates s) (ht : s.power.lastGrant + 1000 * s.regField R_PWR_RACK 15 0 ≤ s.beat) :
    exec .rackTimeout s = .next (s.framed ((s.setGrant (floorW s) (floorW s)).setRegField R_PWR_STATUS 29 29 1)) := by
  show execRackTimeout s = _
  rw [execRackTimeout, whenOn_eq h, if_neg (Nat.not_lt.mpr ht)]

theorem rackReportTimer_reports (h : Operates s) (hl : rackLanding s ≠ 0) : exec .rackReportTimer s =
    .next (s.framed (s.sendSeq (rackLanding s) tyGrant 0
      (grantBytes subReport (budgetW s) (heldFloorW s) 0 s.beat 0 s.windowPower (s.reg R_PWR_ENERGY_DEVICE)) none)) := by
  show execRackReportTimer s = _
  rw [execRackReportTimer, whenOn_eq h, if_neg hl]

end rack

/-! ## Slack and loans (R466 to R468) -/

section slack
variable {s : State} {v : VDev} {slot : SlotId} {x : BitVec 32}

/-- Whether a device carries a member of a virtual device that computes. -/
def VDev.computesAt (v : VDev) (l : Landing) : Bool := v.members.any (fun m => !m.store && (match m.host with
  | some h => h.1 == l
  | none => false))

/-- Where the slack of a virtual device goes, by its keeper. -/
def State.slackTo (s : State) (v : VDev) (value : Nat) : Option Landing → State
  | some k =>
    if k = s.landing then (if v.computesAt s.landing then s.noteSlack v.number s.landing value else s).orderLoans v
    else if v.computesAt s.landing then s.sendSeq k tyGrant 0 (grantBytes subSlack 0 0 0 s.beat v.number.toNat value 0) none else s
  | none => s

theorem slackOf_eq (hs : v.slot = some slot) : State.slackOf [(slot, x)] s v = s.slackTo v x.toNat (s.keeper v) := by
  have hv : (([(slot, x)].find? (fun p => p.1 == slot)).map (fun p => p.2.toNat)).getD 0 = x.toNat := by simp
  unfold State.slackOf
  rw [hs]
  cases s.keeper v with
  | none => rfl
  | some k =>
    dsimp only
    rw [hv]
    rfl

/-- The slack of a device's one virtual device. -/
theorem slackInterval_eq (h : Operates s) (he : s.shiftEn = true) (hv : s.vdevs = [v]) (hs : v.slot = some slot) :
    exec (.slackInterval [(slot, x)]) s = .next (s.framed (s.slackTo v x.toNat (s.keeper v))) := by
  show execSlackInterval [(slot, x)] s = _
  rw [execSlackInterval, whenOn_eq h, he, if_neg (by decide), hv, List.foldl_cons, List.foldl_nil, slackOf_eq hs]

theorem slackInterval_ordered (h : Operates s) (he : s.shiftEn = true) (hv : s.vdevs = [v]) (hs : v.slot = some slot)
    (hc : v.computesAt s.landing = true) (hk : s.keeper v = some s.landing) :
    exec (.slackInterval [(slot, x)]) s = .next (s.framed ((s.noteSlack v.number s.landing x.toNat).orderLoans v)) := by
  rw [slackInterval_eq h he hv hs, hk, State.slackTo, if_pos rfl, if_pos hc]

theorem slackInterval_reported (h : Operates s) (he : s.shiftEn = true) (hv : s.vdevs = [v]) (hs : v.slot = some slot)
    (hc : v.computesAt s.landing = true) {k : Landing} (hk : s.keeper v = some k) (hne : k ≠ s.landing) :
    exec (.slackInterval [(slot, x)]) s = .next (s.framed (s.sendSeq k tyGrant 0
      (grantBytes subSlack 0 0 0 s.beat v.number.toNat x.toNat 0) none)) := by
  rw [slackInterval_eq h he hv hs, hk, State.slackTo, if_neg hne, if_pos hc]

theorem loanExpire_ends (h : Operates s) : exec .loanExpire s = .next (s.framed (State.showBudget { s with power := { s.power with
    borrowed := s.power.borrowed.filter (fun t => decide (s.beat < t)) } })) := by
  show execLoanExpire s = _
  rw [execLoanExpire, whenOn_eq h]

theorem lentExpire_ends (h : Operates s) : exec .lentExpire s = .next (s.framed (State.showBudget { s with power := { s.power with
    lent := s.power.lent.filter (fun p => decide (s.beat < p.1)) } })) := by
  show execLentExpire s = _
  rw [execLentExpire, whenOn_eq h]

section frames
variable {s1 : State} {rx : Rx} {vdev : BitVec 24}

theorem slack_noted (h : Operates s) (ha : s.acceptSeq rx tyGrant = (s1, true)) {value : Lane} (hv : s1.vdev? vdev = some v)
    (hk : s1.isKeeper v = true) : exec (.slack rx vdev value) s = .next (s.framed (s1.noteSlack vdev rx.src value.toNat)) := by
  show execSlack rx vdev value s = _
  rw [execSlack, whenOn_eq h, ha]
  simp only [hv, if_pos hk]

theorem loanOrder_obeyed (h : Operates s) (ha : s.acceptSeq rx tyGrant = (s1, true)) (l : Landing) :
    exec (.loanOrder rx vdev l) s = .next (s.framed (s1.lend vdev l)) := by
  show execLoanOrder rx vdev l s = _
  rw [execLoanOrder, whenOn_eq h, ha]

theorem loan_taken (h : Operates s) (ha : s.acceptSeq rx tyGrant = (s1, true)) {e : Word} (hs : s1.shiftEn = true)
    (hv : (s1.vdev? vdev).isSome = true) (he : s1.beat < e.toNat) (hb : borrowedW s1 + 1 ≤ s1.regField R_PWR_SHIFT 15 0)
    (hg : grantW s1 + borrowedW s1 + 1 - lentW s1 ≤ 1000) : exec (.loan rx vdev e) s =
      .next (s.framed (State.showBudget { s1 with power := { s1.power with borrowed := s1.power.borrowed ++ [e.toNat] } })) := by
  have hok : ¬(!s1.shiftEn || (s1.vdev? vdev).isNone || decide (e.toNat ≤ s1.beat) ||
      decide (s1.regField R_PWR_SHIFT 15 0 < borrowedW s1 + 1) || decide (wattsMax < grantW s1 + borrowedW s1 + 1 - lentW s1)) = true := by
    rw [hs, Option.isNone_eq_false_iff.mpr hv, decide_eq_false (Nat.not_le.mpr he), decide_eq_false (Nat.not_lt.mpr hb),
      decide_eq_false (p := wattsMax < _) (Nat.not_lt.mpr hg)]
    decide
  show execLoan rx vdev e s = _
  rw [execLoan, whenOn_eq h, ha]
  simp only [if_neg hok]

end frames

end slack

/-- Settles O56: grants at their beats, the silent rack, reports and slack, and loans on either side. -/
theorem grantsAndLoans : Obligations.GrantsAndLoans := by
  unfold Obligations.GrantsAndLoans
  refine fun s rx s1 h => ⟨grantEffective_applies h, fun ha hl hx w f e => rackGrant_announces h ha hl hx, rackTimeout_floors h,
    rackReportTimer_reports h, fun slot v x he hv hs hc => ⟨slackInterval_ordered h he hv hs hc,
      fun k => slackInterval_reported h he hv hs hc⟩,
    fun ha vdev value l e => ⟨fun v => slack_noted h ha, loanOrder_obeyed h ha l, loan_taken h ha⟩, loanExpire_ends h, lentExpire_ends h⟩

end Sys2Proof.Machine
end

section
/-! PROOF. Rails and power commits, droops and temperature. -/

namespace Sys2Proof.Machine

/-! ## Rails and commits (R469 to R473, R479, R485) -/

section rails
variable {s : State} {die : Fin 2}

/-- The state once a die's rail has a goal, and the power that the package needs is shown. -/
def State.aimRail (s : State) (die : Fin 2) (fit : Nat) : State :=
  let u := State.showShort (s.tick.setRegField R_PWR_POWER 31 16 ((Config.needW s.free).toNat + sumReserve s))
  { u with power := { u.power with
    railTarget := mapPut 0 u.power.railTarget die.val (railGoal s die fit)
    settling := mapPut false u.power.settling die.val (railGoal s die fit != railStep s die) } }

theorem railChoice_aims (h : Operates s) (fit : Fin 25) : exec (.railChoice die fit) s = .next (s.framed (s.aimRail die fit.val)) := by
  show execRailChoice die fit s = _
  rw [execRailChoice, whenOn_eq h]
  rfl

theorem railStepSettled_moves (h : Operates s) (hs : mapGet false s.power.settling die.val = true) :
    let goal := mapGet 0 s.power.railTarget die.val
    let now := railStep s die
    goal ≠ now →
    let next := if now < goal then now + 1 else now - 1
    exec (.railStepSettled die) s = .next { s.setRegField (dieReg die) 20 16 next with
      power := { s.power with settling := mapPut false s.power.settling die.val (next != goal) } } := by
  intro goal now hne next
  have hgo : ¬((!mapGet false s.power.settling die.val) = true ∨ goal = now) := not_or.mpr ⟨by simp [hs], hne⟩
  show execRailStepSettled die s = _
  rw [execRailStepSettled, whenOn_eq h]
  dsimp only
  rw [if_neg hgo]
  rfl

theorem pwrCommit_refused (h : Operates s) {v : Lane} (hr : s.hostReaches R_PWR_COMMIT = true) (hv : v.getLsbD 0 = true)
    (hok : pwrCommitOk s = false) : exec (.pwrCommit v) s = .next (s.setRegField R_PWR_STATUS 27 27 1) := by
  show execPwrCommit v s = _
  rw [execPwrCommit, hostWrite_eq h hr, hv, if_neg (by decide), hok, if_pos (by decide)]
  rfl

theorem pwrCommit_applies (h : Operates s) {v : Lane} (hr : s.hostReaches R_PWR_COMMIT = true) (hv : v.getLsbD 0 = true)
    (hok : pwrCommitOk s = true) :
    let t := pwrShadowed.foldl (fun (t : State) r => r.2.foldl (fun t b =>
      t.setRegField r.1 b.1 b.2 (shadField s r.1 b.1 b.2)) t) s.refillAll
    let raised := allParts.any (fun p => decide (10 * t.regField (R_PWR_PART + 16 * p.val) 15 0 < slowPace (floorStep t p)))
    exec (.pwrCommit v) s =
      .next (s.framed (State.clipBuckets (if raised then t.setRegField R_PWR_STATUS 26 26 1 else t))) := by
  show execPwrCommit v s = _
  rw [execPwrCommit, hostWrite_eq h hr, hv, if_neg (by decide), hok, if_neg (by decide)]

end rails

/-! ## Droops (R480) -/

section droops
variable {s : State} {p : PartId}

theorem droop_stretches (h : Operates s) : exec (.droop p) s = .next (State.countReg (s.updPart p (fun x => { x with
    stretched := true, droopUntil := some (s.beat + 16 * s.regField R_PWR_DROOP 23 16) })) (R_PWR_DROOP_CNT + 4 * (p.val / 8))) := by
  show execDroop p s = _
  rw [execDroop, whenOn_eq h]
  rfl

theorem droopHoldExpire_ends (h : Operates s) {t : Nat} (ht : (s.part p).droopUntil = some t) (hb : t ≤ s.beat) :
    exec (.droopHoldExpire p) s = .next (s.updPart p (fun x => { x with stretched := false, droopUntil := none })) := by
  show execDroopHoldExpire p s = _
  rw [execDroopHoldExpire, whenOn_eq h, ht]
  simp only [if_pos hb]
  rfl

end droops

/-! ## Temperature (R481, R564) -/

section heat
variable {s : State} {die : Fin 2} {c : BitVec 8}

/-- The caps that heat sets on partitions. -/
def State.capParts (s : State) (l : List PartId) (cap : Nat) : State :=
  l.foldl (fun s p => s.updPart p (fun x => { x with thermalCap := cap })) s

theorem capParts_cap {cap : Nat} {q : PartId} (l : List PartId) : ∀ s : State, q ∈ l ∨ (s.part q).thermalCap = cap →
    ((s.capParts l cap).part q).thermalCap = cap := by
  induction l with
  | nil => exact fun s h => h.resolve_left List.not_mem_nil
  | cons p l ih =>
    intro s h
    refine ih _ ?_
    by_cases hq : q = p
    · right
      subst hq
      show ((s.setPart q { s.part q with thermalCap := cap }).part q).thermalCap = cap
      rw [State.part_setPart_same]
    · refine (h.imp_left fun hm => (List.mem_cons.mp hm).resolve_left hq).imp_right fun hc => ?_
      show ((s.setPart p { s.part p with thermalCap := cap }).part q).thermalCap = cap
      rwa [State.part_setPart_other _ _ _ _ hq]

theorem capParts_alerts (l : List PartId) (cap : Nat) : (s.capParts l cap).alerts = s.alerts := by
  unfold State.capParts
  refine foldl_keeps State.alerts ?_ _ _
  exact fun _ _ => rfl

theorem capParts_power (l : List PartId) (cap : Nat) : (s.capParts l cap).power = s.power := by
  unfold State.capParts
  refine foldl_keeps State.power ?_ _ _
  exact fun _ _ => rfl

theorem books_alerts {s t : State} (h : BooksOnly s t) : t.alerts = s.alerts := by rw [h]

theorem books_power {s t : State} (h : BooksOnly s t) : t.power = s.power := by rw [h]

theorem mem_dieParts {q : PartId} (h : q.val / 8 = die.val) : q ∈ dieParts die :=
  List.mem_filter.mpr ⟨List.mem_finRange q, beq_iff_eq.mpr h⟩

/-- A die that passes 105 °C: its entry, its mark, and the caps of its partitions. -/
def State.dieHeats (s : State) (die : Fin 2) : State :=
  let u := (s.setRegField R_PWR_STATUS 28 28 1).addFault (FaultEntry.bare 9 1)
  State.capParts { u with
    alerts := u.alerts ||| 1, power := { u.power with thermalDie := mapPut false u.power.thermalDie die.val true } } (dieParts die) thermalPace

/-- No kernel is dispatched on a die above 110 °C. -/
def State.markHot (s : State) (die : Fin 2) (c : BitVec 8) : State :=
  if 110 < c.toNat then { s with power := { s.power with hotDie := mapPut false s.power.hotDie die.val true } } else s

theorem thermalOver_heats (h : Operates s) (hc : 105 < c.toNat) (hd : mapGet false s.power.thermalDie die.val = false) :
    exec (.thermalOver die c) s = .next (s.framed (((s.showTemp die c).dieHeats die).markHot die c)) := by
  have hd' : ¬mapGet false (s.showTemp die c).power.thermalDie die.val = true := by
    show ¬mapGet false s.power.thermalDie die.val = true
    rw [hd]
    exact Bool.false_ne_true
  show execThermalOver die c s = _
  rw [execThermalOver, whenOn_eq h, if_neg (Nat.not_le.mpr hc)]
  dsimp only
  rw [if_neg hd']
  rfl

theorem markHot_part (q : PartId) : (s.markHot die c).part q = s.part q := by
  rw [State.markHot]
  split <;> rfl

theorem markHot_alerts : (s.markHot die c).alerts = s.alerts := by
  rw [State.markHot]
  split <;> rfl

theorem markHot_hotDie : (s.markHot die c).power.hotDie =
    if 110 < c.toNat then mapPut false s.power.hotDie die.val true else s.power.hotDie := by
  rw [State.markHot]
  split <;> rfl

theorem dieHeats_cap {q : PartId} (hq : q.val / 8 = die.val) : ((s.dieHeats die).part q).thermalCap = 1400 :=
  capParts_cap _ _ (.inl (mem_dieParts hq))

theorem dieHeats_alerts : (s.dieHeats die).alerts = s.alerts ||| 1 := by
  have hb := addFault_books (s.setRegField R_PWR_STATUS 28 28 1) (FaultEntry.bare 9 1)
  rw [State.dieHeats, capParts_alerts]
  exact congrArg (· ||| 1) ((books_alerts hb).trans rfl)

theorem dieHeats_hotDie : (s.dieHeats die).power.hotDie = s.power.hotDie := by
  have hb := addFault_books (s.setRegField R_PWR_STATUS 28 28 1) (FaultEntry.bare 9 1)
  rw [State.dieHeats, capParts_power]
  have hh := congrArg PowerSt.hotDie (books_power hb)
  exact hh

/-- A die that has cooled: its temperature, its caps and its marks. -/
def State.dieCools (s : State) (die : Fin 2) (c : BitVec 8) : State :=
  let u := (s.showTemp die c).capParts (dieParts die) 0
  { u with power := { u.power with
    thermalDie := mapPut false u.power.thermalDie die.val false, hotDie := mapPut false u.power.hotDie die.val false } }

/-- The mark of heat in PWR_STATUS lifts once no die is hot. -/
def State.liftHeat (s : State) : State :=
  if mapGet false s.power.thermalDie 0 || mapGet false s.power.thermalDie 1 then s else s.setRegField R_PWR_STATUS 28 28 0

theorem liftHeat_part (q : PartId) : s.liftHeat.part q = s.part q := by
  rw [State.liftHeat]
  split <;> rfl

theorem liftHeat_power : s.liftHeat.power = s.power := by
  rw [State.liftHeat]
  split <;> rfl

theorem thermalRecover_cools (h : Operates s) (hc : c.toNat < 100) :
    exec (.thermalRecover die c) s = .next (s.framed (s.dieCools die c).liftHeat) := by
  show execThermalRecover die c s = _
  rw [execThermalRecover, whenOn_eq h, if_neg (Nat.not_le.mpr hc)]
  rfl

theorem dieCools_cap {q : PartId} (hq : q.val / 8 = die.val) : ((s.dieCools die c).part q).thermalCap = 0 :=
  capParts_cap _ _ (.inl (mem_dieParts hq))

theorem dieCools_marks : (s.dieCools die c).power.thermalDie = mapPut false s.power.thermalDie die.val false ∧
    (s.dieCools die c).power.hotDie = mapPut false s.power.hotDie die.val false := by
  have hp : ((s.showTemp die c).capParts (dieParts die) 0).power = s.power := (capParts_power _ _).trans rfl
  rw [State.dieCools, hp]
  exact ⟨rfl, rfl⟩

theorem thermtrip_asserts (h : Operates s) (ht : s.power.thermTrip = false) : exec .thermtrip s = .next { s with
    power := { s.power with thermTrip := true }, alerts := s.alerts ||| 2, out := s.out ++ [.thermTrip] } := by
  show execThermtrip s = _
  rw [execThermtrip, whenOn_eq h, ht, if_neg Bool.false_ne_true]
  rfl

end heat

/-- Settles O57: rails and their steps, commits by the check of their shadows, droops, and a die as it heats and cools. -/
theorem railsDroopsAndHeat : Obligations.RailsDroopsAndHeat := by
  unfold Obligations.RailsDroopsAndHeat
  refine fun s die p h => ⟨fun fit => ⟨_, railChoice_aims h fit, rfl, rfl⟩, railStepSettled_moves h,
    fun v hr hv => ⟨pwrCommit_refused h hr hv, pwrCommit_applies h hr hv⟩, droop_stretches h, fun t => droopHoldExpire_ends h,
    fun c hc hd => ⟨_, thermalOver_heats h hc hd, fun q hq => ?_, ?_, ?_⟩,
    fun c hc => ⟨_, thermalRecover_cools h hc, fun q hq => ?_, ?_, ?_⟩, thermtrip_asserts h⟩
  · exact (congrArg PartSt.thermalCap (markHot_part q)).trans (dieHeats_cap hq)
  · exact markHot_alerts.trans dieHeats_alerts
  · refine markHot_hotDie.trans ?_
    rw [dieHeats_hotDie]
    rfl
  · exact (congrArg PartSt.thermalCap (liftHeat_part q)).trans (dieCools_cap hq)
  · exact (congrArg PowerSt.thermalDie liftHeat_power).trans dieCools_marks.1
  · exact (congrArg PowerSt.hotDie liftHeat_power).trans dieCools_marks.2

end Sys2Proof.Machine
end

section
/-! PROOF. The commands of the key store. -/

namespace Sys2Proof.Machine

/-- A write of KEY_CMD that starts its command: `u` is the state that the command finds. -/
structure State.TakesKey (s : State) (v : Lane) (u : State) : Prop where
  operates : Operates s
  reaches : s.hostReaches R_KEY_CMD = true
  go : v.getLsbD 31 = true
  serves : s.ferryDown = false
  idle : u.keyBusy = false
  found : u = (s.setRegField R_KEY_CMD 27 24 (bits v.toNat 27 24)).setRegField R_KEY_CMD 15 0 (bits v.toNat 15 0)

section commands
variable {s u : State} {v : Lane}

theorem keyCommand_taken (k : s.TakesKey v u) {op : Nat} (hop : bits v.toNat 27 24 = op) (run : State → State) :
    keyCommand op v none run s = .next (s.framed (run u)) := by
  obtain ⟨hs, h1, h2, h5, h4, rfl⟩ := k
  subst hop
  exact keyCommand_eq hs h1 h2 rfl h4 h5

/-! ## Tenants, reports and certificates (R498 to R501) -/

section install
variable (k : s.TakesKey v u) (hop : bits v.toNat 27 24 = 0) (hr : u.key.rootFailed = false) (ht : u.key.tenant = .none)
  (hrec : u.closeMeas.tenantRecOk (keyArg u.closeMeas 0) = true)
include k hop hr ht hrec

theorem install_eq (tagOk : Bool) :
    let c := u.closeMeas
    exec (.install v none tagOk true) s = .next (s.framed (
      if !tagOk then c.keyAnswer keyTag 0
      else State.keyAnswer (State.setTenant { c with
        key := { c.key with fabric := some (c.fabricSecret (keyArg c 0)) } } .installed (c.hostNat (keyArg c 0 + 8) 4)) keyOkResult 0)) := by
  show execInstall v none tagOk true s = _
  rw [execInstall, keyCommand_taken k hop, if_neg (not_not_intro ht), needRoot_eq (.inl hr)]
  dsimp only
  rw [hrec, if_neg (by decide)]
  rfl

theorem install_installs :
    let c := u.closeMeas
    exec (.install v none true true) s = .next (s.framed (State.keyAnswer (State.setTenant { c with
      key := { c.key with fabric := some (c.fabricSecret (keyArg c 0)) } } .installed (c.hostNat (keyArg c 0 + 8) 4)) keyOkResult 0)) := by
  rw [install_eq k hop hr ht hrec, if_neg (by decide)]

theorem install_refused : exec (.install v none false true) s = .next (s.framed (u.closeMeas.keyAnswer keyTag 0)) := by
  rw [install_eq k hop hr ht hrec, if_pos (by decide)]

end install

theorem removeTenant_begins (k : s.TakesKey v u) (hop : bits v.toNat 27 24 = 1) :
    exec (.removeTenant v none) s = .next (s.framed u.beginRemoval) := keyCommand_taken k hop State.beginRemoval

theorem attest_reports (k : s.TakesKey v u) (hop : bits v.toNat 27 24 = 2) (hr : u.key.rootFailed = false) :
    let c := u.closeMeas
    let body := c.reportBody (c.hostRead (keyArg c 0) 32)
    let n := c.nextRandom
    exec (.attest v none) s = .next (s.framed ((n.1.publish (keyArg c 1)
      (body ++ fitBytes 1280 (Config.falconSign c.attestNode n.2 (hash 64 body))) []).keyAnswer keyOkResult 0)) := by
  show execAttest v none s = _
  rw [execAttest, keyCommand_taken k hop, needRoot_eq (.inl hr)]

theorem certs_writes (k : s.TakesKey v u) (hop : bits v.toNat 27 24 = 3) (hr : u.key.rootFailed = false) :
    let c := u.closeMeas
    exec (.certs v none) s = .next (s.framed ((c.tick.publish (keyArg c 1)
      ((List.range (bits (keyArg c 2) 31 0)).map (fun i => Config.outputByte c.free i)) []).keyAnswer keyOkResult 0)) := by
  show execCerts v none s = _
  rw [execCerts, keyCommand_taken k hop, needRoot_eq (.inl hr)]

/-! ## Bundles (R505, R506) -/

/-- The bundle that an OPEN makes. -/
def State.openedBundle (u : State) (r h : Nat) : Bundle :=
  ⟨h, u.bundleKey (keyArg u 0) r, u.hostRead (keyArg u 0) 64, u.hostNat (keyArg u 0 + 0x18) 1, u.hostNat (keyArg u 0 + 0x20) 8⟩

theorem openBundle_opens (k : s.TakesKey v u) (hop : bits v.toNat 27 24 = 4) (hr : u.key.rootFailed = false)
    (ht : u.key.tenant = .installed) {r h : Nat} (hhead : u.bundleHeadOk (keyArg u 0) = true)
    (hp : keyParam u % 256 < 200 ∨ keyParam u % 256 = 255) (hrec : u.deviceRec (keyArg u 0) = some r)
    (hz : u.hostZero (r + 0x678) 8 = true) (hh : u.openHandle = some h) :
    exec (.openBundle v none true true) s = .next (s.framed (State.keyAnswer (State.setRegField { u with key := { u.key with
      bundles := u.key.bundles.filter (fun x => x.handle != h) ++ [u.openedBundle r h] } } R_KEY_STATUS 15 8 h) keyOkResult 0)) := by
  have hform : ¬(!u.bundleHeadOk (keyArg u 0) || (decide (bundleMax ≤ keyParam u % 256) && keyParam u % 256 != 255)) = true := by
    rw [hhead]
    obtain hp | hp := hp
    · rw [decide_eq_false (p := bundleMax ≤ _) (Nat.not_le.mpr hp), Bool.false_and]
      decide
    · rw [hp]
      decide
  show execOpenBundle v none true true s = _
  rw [execOpenBundle, keyCommand_taken k hop, needTenant_eq ht, needRoot_eq (.inl hr)]
  dsimp only
  rw [if_neg hform, hrec]
  dsimp only
  rw [hz, if_neg (by decide), if_neg (by decide), hh]
  rfl

theorem decrypt_opens (k : s.TakesKey v u) (hop : bits v.toNat 27 24 = 5) (hr : u.key.rootFailed = false)
    (ht : u.key.tenant = .installed) {b : Bundle} (hb : u.bundle? (keyParam u % 256) = some b) :
    let first := bits (keyArg u 2) 63 32
    let count := bits (keyArg u 2) 31 0
    first + count ≤ b.chunks → count ≠ 0 →
    u.bundleDest (keyArg u 1) (((List.range count).map (fun i => b.chunkBytes (first + i))).foldl (· + ·) 0) = true →
    ∀ bad, let r := State.openChunks b (bits (keyParam u) 15 8) bad count u first (keyArg u 0) (keyArg u 1)
      exec (.decrypt v none bad) s = .next (s.framed (r.1.keyAnswer r.2 0)) := by
  intro first count hc h0 hd bad r
  show execDecrypt v none bad s = _
  rw [execDecrypt, keyCommand_taken k hop, needTenant_eq ht, needRoot_eq (.inl hr)]
  dsimp only
  rw [hb]
  dsimp only
  rw [if_neg (Nat.not_lt.mpr hc), if_neg h0, hd, if_neg (by decide)]

theorem closeBundle_closes (k : s.TakesKey v u) (hop : bits v.toNat 27 24 = 6) (ht : u.key.tenant = .installed) :
    exec (.closeBundle v none) s = .next (s.framed (State.keyAnswer { u with
      key := { u.key with bundles := u.key.bundles.filter (fun b => b.handle != keyParam u % 256) } } keyOkResult 0)) := by
  show execCloseBundle v none s = _
  rw [execCloseBundle, keyCommand_taken k hop, needTenant_eq ht]

theorem closeBundle_refused (k : s.TakesKey v u) (hop : bits v.toNat 27 24 = 6) (ht : u.key.tenant ≠ .installed) :
    exec (.closeBundle v none) s = .next (s.framed (u.keyAnswer keyState 0)) := by
  show execCloseBundle v none s = _
  rw [execCloseBundle, keyCommand_taken k hop, State.needTenant, if_pos ht]

/-! ## Domains and sealed blobs (R504, R515) -/

theorem eraseDomain_erases (k : s.TakesKey v u) (hop : bits v.toNat 27 24 = 7) (ht : u.key.tenant = .installed)
    (hd : keyParam u % 256 ≠ 0) : exec (.eraseDomain v none) s = .next (s.framed (State.keyAnswer
      { u with key := { u.key with domGen := mapPut 0 u.key.domGen (keyParam u % 256) (mapGet 0 u.key.domGen (keyParam u % 256) + 1) } }
      keyOkResult 0)) := by
  show execEraseDomain v none s = _
  rw [execEraseDomain, keyCommand_taken k hop, needTenant_eq ht]
  dsimp only
  rw [if_neg hd]

theorem seal_seals (k : s.TakesKey v u) (hop : bits v.toNat 27 24 = 8) (hr : u.key.rootFailed = false) :
    let c := u.closeMeas
    let n := bits (keyArg c 2) 12 0
    1 ≤ n → n ≤ 4096 →
    let r := c.nextRandom
    let head := leBytes 4 r.1.key.sealGen ++ leBytes 4 n
    exec (.seal v none) s = .next (s.framed ((r.1.publish (keyArg r.1 1) (head ++ r.2.take 12 ++
      fitBytes (n + 16) (Config.gcmSeal r.1.blobKey (r.2.take 12) head (r.1.hostRead (keyArg r.1 0) n))) []).keyAnswer keyOkResult 0)) := by
  intro c n h1 h2 r head
  have hn : ¬(n = 0 ∨ 4096 < n) := not_or.mpr ⟨Nat.one_le_iff_ne_zero.mp h1, Nat.not_lt.mpr h2⟩
  show execSeal v none s = _
  rw [execSeal, keyCommand_taken k hop, needRoot_eq (.inl hr)]
  dsimp only
  rw [if_neg hn]
  rfl

theorem unseal_unseals (k : s.TakesKey v u) (hop : bits v.toNat 27 24 = 9) (hr : u.key.rootFailed = false) :
    let c := u.closeMeas
    let a := keyArg c 0
    let n := c.hostNat (a + 4) 4
    37 ≤ bits (keyArg c 2) 12 0 → n + 36 = bits (keyArg c 2) 12 0 → n ≤ 4096 → c.hostNat a 4 = c.key.sealGen →
    exec (.unseal v none true) s = .next (s.framed ((c.publish (keyArg c 1) (fitBytes n (Config.gcmOpen c.blobKey
      (c.hostRead (a + 8) 12) (c.hostRead a 8) (c.hostRead (a + 20) (n + 16)))) []).keyAnswer keyOkResult 0)) := by
  intro c a n h37 h36 hn hg
  have hform : ¬(bits (keyArg c 2) 12 0 < 37 ∨ n + 36 ≠ bits (keyArg c 2) 12 0 ∨ 4096 < n) :=
    not_or.mpr ⟨Nat.not_lt.mpr h37, not_or.mpr ⟨not_not_intro h36, Nat.not_lt.mpr hn⟩⟩
  have htag : ¬((!true) = true ∨ c.hostNat a 4 ≠ c.key.sealGen) := not_or.mpr ⟨by decide, not_not_intro hg⟩
  show execUnseal v none true s = _
  rw [execUnseal, keyCommand_taken k hop, needRoot_eq (.inl hr)]
  dsimp only
  rw [if_neg hform, if_neg htag]

end commands

end Sys2Proof.Machine
end

section
/-! PROOF. Debug, thawing, and the end of a tenant's removal. -/

namespace Sys2Proof.Machine

/-! ## Debug (R497) -/

section debug
variable {s : State} {v : Lane}

theorem keyDebugEnable_eq (h : Operates s) (hr : s.hostReaches R_KEY_DEBUG = true) (hv : v.getLsbD 31 = true) (h29 : v.getLsbD 29 = false) :
    exec (.keyDebugEnable v) s = .next (s.framed (
      if s.key.tenant = .none ∧ !s.keyBusy then s.enableDebug else s.setRegField R_KEY_DEBUG 29 29 1)) := by
  show execKeyDebugEnable v s = _
  rw [execKeyDebugEnable, hostWrite_eq h hr, h29, hv, if_neg Bool.false_ne_true, if_neg (by decide)]

theorem keyDebugEnable_enables (h : Operates s) (hr : s.hostReaches R_KEY_DEBUG = true) (hv : v.getLsbD 31 = true)
    (h29 : v.getLsbD 29 = false) (hb : s.keyBusy = false) (ht : s.key.tenant = .none) :
    exec (.keyDebugEnable v) s = .next (s.framed s.enableDebug) := by
  rw [keyDebugEnable_eq h hr hv h29, if_pos ⟨ht, by rw [hb]; rfl⟩]

theorem keyDebugEnable_refused (h : Operates s) (hr : s.hostReaches R_KEY_DEBUG = true) (hv : v.getLsbD 31 = true)
    (h29 : v.getLsbD 29 = false) (ht : s.key.tenant ≠ .none) :
    exec (.keyDebugEnable v) s = .next (s.setRegField R_KEY_DEBUG 29 29 1) := by
  rw [keyDebugEnable_eq h hr hv h29, if_neg fun e => ht e.1]
  rfl

end debug

/-! ## Thawing (R510) -/

section thaw
variable {s : State} {v : Lane}

/-- What a thaw does, by the kind of the master that it names. -/
def State.thaw (s : State) (v : Nat) : Nat → State
  | 0 => if h : bits v 13 8 < 48 then
      s.updBerth ⟨bits v 13 8, h⟩ (fun x => { x with frozen := x.frozen &&& ~~~((1 : BitVec 16) <<< bits v 3 0) })
    else s
  | 1 => if bits v 3 0 < 12 then s.setRegField (R_KEY_FROZEN + 4 * bits v 11 8) (16 + bits v 3 0) (16 + bits v 3 0) 0 else s
  | 2 => if bits v 3 0 < 12 then
      State.startAll ((s.setRegField (R_KEY_FROZEN + 4 * bits v 11 8) (16 + bits v 3 0) (16 + bits v 3 0) 0).setRegField
        (R_KEY_FROZEN + 4 * bits v 11 8) (bits v 3 0) (bits v 3 0) 0) allCores
    else s
  | 3 => match s.peer? (BitVec.ofNat 16 (bits v 15 0)) with
    | some p => if p.frozen then
        (s.updPeer (BitVec.ofNat 16 (bits v 15 0)) (fun p => { p with frozen := false })).resetStream (BitVec.ofNat 16 (bits v 15 0)) true
      else s
    | none => s
  | _ => s

section kinds
variable (h : Operates s) (hr : s.hostReaches R_KEY_THAW = true) (hv : v.getLsbD 31 = true)
include h hr hv

theorem keyThaw_eq {kind : Nat} (hk : bits v.toNat 30 28 = kind) (h3 : kind ≤ 3) :
    exec (.keyThaw v) s = .next (s.framed (s.thaw v.toNat kind)) := by
  show execKeyThaw v s = _
  rw [execKeyThaw, hostWrite_eq h hr]
  dsimp only
  rw [hv, if_neg (by decide), hk]
  match kind, h3 with
  | 0, _ => rfl
  | 1, _ => rfl
  | 2, _ => rfl
  | 3, _ => rfl

theorem keyThaw_queue (b : BerthId) (hk : bits v.toNat 30 28 = 0) (hb : bits v.toNat 13 8 = b.val) : exec (.keyThaw v) s =
    .next (s.updBerth b (fun x => { x with frozen := x.frozen &&& ~~~((1 : BitVec 16) <<< bits v.toNat 3 0) })) := by
  have hlt : bits v.toNat 13 8 < 48 := by rw [hb]; exact b.isLt
  have he : (⟨bits v.toNat 13 8, hlt⟩ : BerthId) = b := Fin.ext hb
  rw [keyThaw_eq h hr hv hk (by decide), State.thaw, dif_pos hlt, he]
  rfl

theorem keyThaw_mover (hk : bits v.toNat 30 28 = 1) (hn : bits v.toNat 3 0 < 12) : exec (.keyThaw v) s =
    .next (s.setRegField (R_KEY_FROZEN + 4 * bits v.toNat 11 8) (16 + bits v.toNat 3 0) (16 + bits v.toNat 3 0) 0) := by
  rw [keyThaw_eq h hr hv hk (by decide), State.thaw, if_pos hn]
  rfl

theorem keyThaw_core (hk : bits v.toNat 30 28 = 2) (hn : bits v.toNat 3 0 < 12) : exec (.keyThaw v) s =
    .next (s.framed (State.startAll ((s.setRegField (R_KEY_FROZEN + 4 * bits v.toNat 11 8) (16 + bits v.toNat 3 0)
      (16 + bits v.toNat 3 0) 0).setRegField (R_KEY_FROZEN + 4 * bits v.toNat 11 8) (bits v.toNat 3 0) (bits v.toNat 3 0) 0) allCores)) := by
  rw [keyThaw_eq h hr hv hk (by decide), State.thaw, if_pos hn]

theorem keyThaw_flow {p : Peer} (hk : bits v.toNat 30 28 = 3) (hp : s.peer? (BitVec.ofNat 16 (bits v.toNat 15 0)) = some p)
    (hf : p.frozen = true) : exec (.keyThaw v) s =
    .next (s.framed (State.resetStream (s.updPeer (BitVec.ofNat 16 (bits v.toNat 15 0)) (fun p => { p with frozen := false }))
      (BitVec.ofNat 16 (bits v.toNat 15 0)) true)) := by
  rw [keyThaw_eq h hr hv hk (by decide), State.thaw, hp]
  simp only [if_pos hf]

end kinds

end thaw

/-! ## The end of a removal (R511 to R513) -/

section removal
variable {s : State}

theorem zeroRange_key (s : State) (lo hi : Nat) : (s.zeroRange lo hi).key = s.key := by
  rw [zeroRange_errorsOnly]
  rfl

theorem wipe_key : s.wipe.key = s.key := by
  unfold State.wipe
  refine (foldl_keeps State.key ?_ _ _).trans rfl
  intro u p
  split
  · rfl
  · exact zeroRange_key _ _ _

theorem wipe_core (c : CoreId) : s.wipe.core c = CoreSt.reset := by
  have hc : s.wipe.cores = Vector.replicate 192 CoreSt.reset := by
    unfold State.wipe
    refine (foldl_keeps State.cores ?_ _ _).trans rfl
    intro u p
    split
    · rfl
    · exact zeroRange_cores _ _ _
  rw [State.core, hc]
  exact Vector.getElem_replicate _

/-- The freezes of berths end. -/
def State.thawBerths (s : State) (l : List BerthId) : State := l.foldl (fun s b => s.updBerth b (fun x => { x with frozen := 0 })) s

theorem thawBerths_frozen {b : BerthId} (l : List BerthId) : ∀ s : State, b ∈ l ∨ (s.berth b).frozen = 0 →
    ((s.thawBerths l).berth b).frozen = 0 := by
  induction l with
  | nil => exact fun s h => h.resolve_left List.not_mem_nil
  | cons d l ih =>
    intro s h
    refine ih _ ?_
    by_cases hb : b = d
    · right
      subst hb
      show ((s.setBerth b { s.berth b with frozen := 0 }).berth b).frozen = 0
      rw [State.berth_setBerth_same]
    · refine (h.imp_left fun hm => (List.mem_cons.mp hm).resolve_left hb).imp_right fun hf => ?_
      show ((s.setBerth d { s.berth d with frozen := 0 }).berth b).frozen = 0
      rwa [State.berth_setBerth_other _ _ _ _ hb]

theorem thawBerths_key (l : List BerthId) : (s.thawBerths l).key = s.key := by
  unfold State.thawBerths
  refine foldl_keeps State.key ?_ _ _
  exact fun _ _ => rfl

theorem thawBerths_cores (l : List BerthId) : (s.thawBerths l).cores = s.cores := by
  unfold State.thawBerths
  refine foldl_keeps State.cores ?_ _ _
  exact fun _ _ => rfl

/-- The marks of frozen cores and movers end. -/
def State.thawParts (s : State) (l : List PartId) : State := l.foldl (fun s p => s.setReg (R_KEY_FROZEN + 4 * p.val) 0) s

theorem thawParts_key (l : List PartId) : (s.thawParts l).key = s.key := by
  unfold State.thawParts
  refine foldl_keeps State.key ?_ _ _
  exact fun _ _ => rfl

theorem thawParts_cores (l : List PartId) : (s.thawParts l).cores = s.cores := by
  unfold State.thawParts
  refine foldl_keeps State.cores ?_ _ _
  exact fun _ _ => rfl

/-- The generations of a store whose installed keys are destroyed. -/
def KeySt.destroyed (k : KeySt) : KeySt :=
  { k with memGen := k.memGen + 1, linkGen := k.linkGen + 1, bindGen := k.bindGen + 1, fabric := none, bundles := [], removal := 0 }

theorem destroyKeys_eq : s.destroyKeys = State.thawBerths (State.thawParts { s with
    key := s.key.destroyed, peers := s.peers.map (fun p => { p with frozen := false, assoc := none }) } allParts) allBerths := rfl

theorem destroyKeys_key : s.destroyKeys.key = s.key.destroyed := by
  rw [destroyKeys_eq, thawBerths_key, thawParts_key]

theorem destroyKeys_cores : s.destroyKeys.cores = s.cores := by
  rw [destroyKeys_eq, thawBerths_cores, thawParts_cores]

theorem destroyKeys_frozen (b : BerthId) : (s.destroyKeys.berth b).frozen = 0 :=
  thawBerths_frozen _ _ (.inl (List.mem_finRange b))

theorem setTenant_key (t : TenantState) (epoch : Nat) : (s.setTenant t epoch).key = { s.key with tenant := t } := rfl

theorem keyAnswer_key (result retry : Nat) : (s.keyAnswer result retry).key = s.key := rfl

theorem setTenant_core (t : TenantState) (epoch : Nat) (c : CoreId) : (s.setTenant t epoch).core c = s.core c := rfl

theorem keyAnswer_core (result retry : Nat) (c : CoreId) : (s.keyAnswer result retry).core c = s.core c := rfl

theorem setTenant_berth (t : TenantState) (epoch : Nat) (b : BerthId) : (s.setTenant t epoch).berth b = s.berth b := rfl

theorem keyAnswer_berth (result retry : Nat) (b : BerthId) : (s.keyAnswer result retry).berth b = s.berth b := rfl

/-- The state at the end of a removal: stores, keys and freezes are gone, and with them the tenant. -/
def State.removed (s : State) : State := (s.wipe.destroyKeys.setTenant .none 0).keyAnswer keyOkResult 0

theorem removalWaitEnd_removes (h : Operates s) (h3 : s.key.removal = 3) (ht : s.key.removalWaitFrom + 2 * s.key.removalLmax ≤ s.beat)
    (hp : ∀ p, (s.part p).state ≠ .resetting) : exec .removalWaitEnd s = .next (s.framed s.removed) := by
  have hno : ¬allParts.any (fun p => (s.part p).state == .resetting) = true := fun e => by
    obtain ⟨p, -, he⟩ := List.any_eq_true.mp e
    exact hp p (beq_iff_eq.mp he)
  have hgo : ¬(s.key.removal ≠ 3 ∨ s.beat < s.key.removalWaitFrom + 2 * s.key.removalLmax ∨
      allParts.any (fun p => (s.part p).state == .resetting) = true) :=
    not_or.mpr ⟨not_not_intro h3, not_or.mpr ⟨Nat.not_lt.mpr ht, hno⟩⟩
  show execRemovalWaitEnd s = _
  rw [execRemovalWaitEnd, whenOn_eq h, if_neg hgo]
  rfl

theorem removed_key : s.removed.key = { s.key.destroyed with tenant := .none } := by
  rw [State.removed, keyAnswer_key, setTenant_key, destroyKeys_key, wipe_key]

theorem removed_core (c : CoreId) : s.removed.core c = CoreSt.reset := by
  rw [State.removed, keyAnswer_core, setTenant_core, core_congr destroyKeys_cores, wipe_core]

theorem removed_frozen (b : BerthId) : (s.removed.berth b).frozen = 0 := by
  rw [State.removed, keyAnswer_berth, setTenant_berth, destroyKeys_frozen]

end removal

/-- Settles O58: each command of the key store, debug, the thaw of each master, and the state that a removal leaves. -/
theorem keysDebugAndRemoval : Obligations.KeysDebugAndRemoval := by
  unfold Obligations.KeysDebugAndRemoval
  refine ⟨fun s v h hr hv hf => ?commands, fun s v h hv => ⟨fun hr h29 hb => ⟨keyDebugEnable_enables h hr hv h29 hb,
    keyDebugEnable_refused h hr hv h29⟩, fun hr => ⟨keyThaw_queue h hr hv, keyThaw_mover h hr hv, keyThaw_core h hr hv,
      fun p => keyThaw_flow h hr hv⟩, fun h3 ht hp => ?removal⟩⟩
  case commands =>
    intro u op c hb hroot
    have k : s.TakesKey v u := ⟨h, hr, hv, hf, hb, rfl⟩
    refine ⟨fun hop ht hrec => ⟨install_installs k hop hroot ht hrec, install_refused k hop hroot ht hrec⟩, removeTenant_begins k,
      fun hop => attest_reports k hop hroot, fun hop => certs_writes k hop hroot, fun hop ht r h hhead hp hrec hz hh => ?opens,
      fun hop ht b hb => decrypt_opens k hop hroot ht hb, closeBundle_closes k, eraseDomain_erases k, fun hop => seal_seals k hop hroot,
      fun hop => unseal_unseals k hop hroot, closeBundle_refused k⟩
    case opens => exact ⟨_, u.openedBundle r h, openBundle_opens k hop hroot ht hhead hp hrec hz hh, rfl, rfl, rfl⟩
  case removal =>
    have hk : (s.framed s.removed).key = { s.key.destroyed with tenant := .none } := by rw [State.framed_key, removed_key]
    refine ⟨s.framed s.removed, removalWaitEnd_removes h h3 ht hp, ?_⟩
    rw [hk]
    refine ⟨rfl, rfl, rfl, rfl, rfl, rfl, fun c => ?core, fun b => ?frozen⟩
    case core => rw [State.framed_core, removed_core]
    case frozen => rw [State.framed_berth, removed_frozen]

end Sys2Proof.Machine
end
